-- ==== Sys2Proof/Word.lean ====
section
/-! DEFINITION. The word types of the OL-96: what the manual treats as bits (R7, R9). -/

namespace Sys2Proof

/-- One byte of memory or of a frame (R8). -/
abbrev Byte := BitVec 8

/-- A 32-bit code, for example an FP32 code or a vector lane. -/
abbrev Word32 := BitVec 32

/-- A pick count or a step number (R477, R376). -/
abbrev Word48 := BitVec 48

/-- A register or a parameter word (R9, R12). -/
abbrev Word64 := BitVec 64

end Sys2Proof
end

