-- ==== Sys2Proof/Syntax.lean ====
section
/-! DEFINITION. The commands of the block and their operands: command packets, treadle and service frames, link
packets, and what a channel, a pin or a sensor brings from outside. -/

namespace Sys2Proof

/-- A command packet as its unit receives it: the header fields of R432 but OPCODE (the constructor), PLEN (the
number of parameters) and CRC (checked before, R29), and the parameter words. -/
structure Packet where
  version : BitVec 8 := 0x10
  flags : BitVec 8 := 0
  tag : BitVec 32 := 0
  release : BitVec 48 := 0
  creel : BitVec 8 := 0
  lane : BitVec 8 := 0
  step : BitVec 48 := 0
  rsvd : BitVec 32 := 0
  params : List Word64 := []
deriving DecidableEq, Repr

/-- A port on which frames arrive (R419, R595). -/
inductive Port where
  | ta | tb | service
deriving DecidableEq, Repr

/-- A received frame: the 16-byte header of R421 and the payload bytes that followed. -/
structure RxFrame where
  port : Port := .ta
  typ : BitVec 8 := 0
  fflags : BitVec 8 := 0
  length : BitVec 16 := 0
  seq : BitVec 32 := 0
  ack : BitVec 32 := 0
  crc : BitVec 32 := 0
  payload : List Byte := []
deriving DecidableEq, Repr

/-- A prepare message of the twin: step, state digest, step digest, dirty bits, and whether the twin reports that it
aborted the step (R388). -/
structure PrepareMsg where
  step : Nat
  stateDigest : Word64
  stepDigest : Word64
  dirty : BitVec 8
  aborted : Bool
deriving DecidableEq, Repr

/-- An ACTIVE entry as a weave announces it (R411): number, kind, face, back, length. -/
structure WeaveEntry where
  entry : Nat
  kind : Nat
  face : Nat
  back : Nat
  length : Nat
deriving DecidableEq, Repr

/-- What a link packet carries. Bucket packets (R331) and checkpoint packets (R524) are their bytes, header first; the
manual gives no byte layout for the others, which are their contents. -/
inductive WarpMsg where
  /-- Bucket header and elements (R331). -/
  | bucket (bytes : List Byte)
  /-- Checkpoint header and payload (R524). -/
  | ckpt (bytes : List Byte)
  /-- Device number, COLL.SELF.VALID, port number (R323); the twin device and mode it names, on a twin link (R406). -/
  | identity (device : Nat) (valid : Bool) (port : Nat) (twin : Option (Nat × Nat))
  /-- Bytes of a MEM_COPY to another device; free when the command names no step (R261, R378). -/
  | memWrite (src dst cmd addr : Nat) (free : Bool) (bytes : List Byte)
  /-- The destination's report that its writes are complete, or refused on a face range (R261, R277). -/
  | memDone (src dst cmd : Nat) (refused : Bool)
  /-- A prepare message (R388). -/
  | prepare (m : PrepareMsg)
  /-- A request for the twin's copy of the packet that the bucket header names (R348). -/
  | copyRequest (hdr : List Byte)
  /-- The twin's copy, or that it cannot supply it (R348, R350). -/
  | copyAnswer (hdr : List Byte) (elems : Option (List Byte))
  /-- A weave begins: LAST_COMMIT and the ACTIVE entries (R411). -/
  | weaveStart (last : Nat) (entries : List WeaveEntry)
  /-- Face content of an entry (R411). -/
  | weaveData (entry offset : Nat) (bytes : List Byte)
  /-- Content digest of an entry (R411). -/
  | weaveDigest (entry : Nat) (digest : Word64)
  /-- The receiver's outcome of a weave (R411). -/
  | weaveResult (ok : Bool)
  /-- The fault indication of R321. -/
  | faultIndication
deriving DecidableEq, Repr

/-- A link-layer event at a port (R319): a packet arrives with its sequence number and the verdict of its CRC and of
the decoder, or the peer acknowledges or refuses a packet sent, with the codewords corrected since. -/
inductive LinkEvent where
  | arrives (seq : Nat) (good : Bool)
  | acked (seq : Nat)
  | refused (seq : Nat)
  | corrected (codewords : Nat)
deriving DecidableEq, Repr

/-- Why a port enters FAULT (R320, R321). -/
inductive FaultCause where
  | retries | lockLost | indication
deriving DecidableEq, Repr

/-- A port at which a keepalive may be due, and whether its link is up (R424). -/
structure KeepaliveTurn where
  port : Port
  linkUp : Bool
deriving DecidableEq, Repr

/-- A yarn engine consumes a unit; upset: words of its store that bit errors then strike, and the wrong bits of each
(R239, R507). -/
structure Consumption where
  shuttle : Nat
  upset : List (Nat × Nat)
deriving DecidableEq, Repr

/-- The narrow tile that an ending command names, and whether the accumulator file that it reads shows a parity error
(R148, R507). -/
structure FileRead where
  tile : Nat
  parity : Bool
deriving DecidableEq, Repr

/-- A frame of an image transfer, and whether the write into MRAM that it leads to succeeds (R598). -/
structure ImageFrame where
  frame : RxFrame
  mramOk : Bool
deriving DecidableEq, Repr

/-- What the boot ROM of a headstock finds: whether its self-test passes, and the HEADSTOCK slots, 0 or 1, that fail
verification (R586, R590). -/
structure HeadTest where
  selfTest : Bool
  bad : List Nat
deriving DecidableEq, Repr

/-- Lanes of a port that are trained and locked (R320, R370). -/
structure PortLanes where
  port : Nat
  lanes : BitVec 8
deriving DecidableEq, Repr

/-- What issued a request: a command, by the model's number of it, a scrub, or the traffic of counters, trace and watch
(R229, R248, R541). -/
inductive Issuer where
  | command (id : Nat)
  | scrub
  | observation
deriving DecidableEq, Repr

/-- A requester that presents a request to an arbiter: index, what issued it, beats (R248, R249). -/
structure Arrival where
  index : Nat
  issuer : Issuer
  beats : Nat
deriving DecidableEq, Repr

/-- The readings of a loom die at a sampling instant, in 1/128 of a degree, and its current estimate in amperes
(R634, R636). -/
structure ThermReading where
  logic : Int
  dram : Int
  current : Nat
deriving DecidableEq, Repr

/-- A test access port instruction (R612). -/
inductive TapInstr where
  /-- A boundary-scan instruction. -/
  | boundaryScan
  /-- A debug read of the accumulator file at an address. -/
  | readAccumulator (addr : Nat)
  /-- Any other Camgil debug instruction. -/
  | debug (code : Nat)
deriving DecidableEq, Repr


/-- The commands: one constructor for each row of the table of operations and events. -/
inductive Instr where
  /-- NOP (R456). Command that completes with OK and has no effect. -/
  | nop (pk : Packet)
  /-- FENCE (R503). Fixes the set of covered commands and holds its own lane until every covered command has completed. -/
  | fence (pk : Packet)
  /-- PICK_SET (R491). Sets the pick source, apply delay and echo period, and with LOAD schedules an advance to a given count. -/
  | pickSet (pk : Packet)
  /-- TIME_READ (R493). Returns a stamp and the time base taken on the active headstock at acceptance. -/
  | timeRead (pk : Packet)
  /-- MEM_COPY (R260). Bobbin engines of a die copy bytes, optionally to bonded DRAM of another device. -/
  | memCopy (pk : Packet)
  /-- MEM_FILL (R262). Writes a 64-bit pattern into every aligned 8 bytes of a range, writing each granule whole. -/
  | memFill (pk : Packet)
  /-- YARN_LOAD (R257). Streams a described DRAM pattern into a shuttle store, optionally quantizing to a block format. -/
  | yarnLoad (pk : Packet)
  /-- YARN_STORE (R259). Streams contiguous shuttle-store bytes into bonded DRAM along a descriptor, without conversion or run-ahead. -/
  | yarnStore (pk : Packet)
  /-- MEM_RETRAIN (R263). Starts the retraining of one DRAM channel, waiting for any earlier retrain. -/
  | memRetrain (pk : Packet)
  /-- ACC_BEGIN (R183). Opens an exact or guarded accumulation on a tile and loads its preload terms. -/
  | accBegin (pk : Packet)
  /-- ACC_MATMUL (R186). Adds one chunk of products, group by group, to an open accumulation. -/
  | accMatmul (pk : Packet)
  /-- ACC_READOUT (R190). Ends an accumulation and writes it in a target format through the epilogue. -/
  | accReadout (pk : Packet)
  /-- ACC_EXPORT_WIDE (R195). Ends an exact accumulation and writes each element as WP256. -/
  | accExportWide (pk : Packet)
  /-- ACC_IMPORT_WIDE (R197). Checks and adds WP256 elements as one term to each element of an open exact tile. -/
  | accImportWide (pk : Packet)
  /-- ACC_DISCARD (R196). Ends an accumulation, or closes a failed tile, and writes nothing. -/
  | accDiscard (pk : Packet)
  /-- VEC_LOAD (R206). Copies a vector program into the program memories of the selected shuttles of a die. -/
  | vecLoad (pk : Packet)
  /-- VEC_RUN (R207). Starts threads of a loaded vector program on one shuttle. -/
  | vecRun (pk : Packet)
  /-- RED_TOPK (R216). Writes the first K ranked elements of each row with their positions. -/
  | redTopk (pk : Packet)
  /-- RED_MAXMIN (R217). Writes a record of maximum and minimum with positions for each row. -/
  | redMaxmin (pk : Packet)
  /-- RED_CENSUS (R218). Counts zeros, non-finite values and the exponent histogram of a stored tensor into a census slot. -/
  | redCensus (pk : Packet)
  /-- WARP_FWD_SET (R362). Loads the 1,024-entry warp forwarding table. -/
  | warpFwdSet (pk : Packet)
  /-- ROUTE_SET (R363). Loads or frees a ring route after checking its member list and strand peers. -/
  | routeSet (pk : Packet)
  /-- BKT_REDUCE (R364). Converts a bucket to GF64 and reduce-scatters it so the device receives its own shard. -/
  | bktReduce (pk : Packet)
  /-- BKT_GATHER (R353). All-gathers the shards of a bucket along each side's ring into DST. -/
  | bktGather (pk : Packet)
  /-- BKT_DIGEST_READ (R367). Writes the bucket records of the open or last step and returns the collective digest. -/
  | bktDigestRead (pk : Packet)
  /-- LINK_RESET (R368). Resets one warp link die as a unit and retrains its ports. -/
  | linkReset (pk : Packet)
  /-- UPD_RUN (R287). Updates a range of a parameter group from face arrays into back arrays. -/
  | updRun (pk : Packet)
  /-- UPD_MICRO_LOAD (R300). Checks and loads an update microprogram into a slot. -/
  | updMicroLoad (pk : Packet)
  /-- BOB_CONVERT (R303). Converts rows between formats on a die's bobbin engines. -/
  | bobConvert (pk : Packet)
  /-- BOB_GATHER (R304). Copies table rows selected by an index list into dense rows. -/
  | bobGather (pk : Packet)
  /-- BOB_SCATTER_ADD (R304). Converts dense rows to GF64 and adds them into indexed table rows. -/
  | bobScatterAdd (pk : Packet)
  /-- STATE_SET (R282). Loads, activates or frees a state-map entry. -/
  | stateSet (pk : Packet)
  /-- STATE_READ (R284). Returns a state-map entry's state, ranges and digest. -/
  | stateRead (pk : Packet)
  /-- CENSUS_CLEAR (R312). Zeroes a range of census slots and sets their HIST_LO and ALERT. -/
  | censusClear (pk : Packet)
  /-- CENSUS_READ (R313). Combines the die parts of a census slot and writes its record. -/
  | censusRead (pk : Packet)
  /-- STEP_BEGIN (R384). Opens a step, optionally setting the origin. -/
  | stepBegin (pk : Packet)
  /-- STEP_PREPARE (R386). Seals the open step. -/
  | stepPrepare (pk : Packet)
  /-- STEP_COMMIT (R392). Accepted as an implicit fence that flips every ACTIVE entry's SEL and returns the device to IDLE. -/
  | stepCommit (pk : Packet)
  /-- STEP_ABORT (R399). Discards an open step, completing its commands with STEP_ABORTED, and sets ABORT_PENDING. -/
  | stepAbort (pk : Packet)
  /-- STEP_UNDO (R397). Takes back the last commit by flipping SEL back. -/
  | stepUndo (pk : Packet)
  /-- TWIN_SET (R405). Names the twin and the twin mode and clears AGREED. -/
  | twinSet (pk : Packet)
  /-- SHADOW_BEGIN (R407). Starts a shadow replay of the twin's step on a sealed or prepared device. -/
  | shadowBegin (pk : Packet)
  /-- SHADOW_END (R409). Waits for shadow commands, writes shadow bucket records and ends the shadow. -/
  | shadowEnd (pk : Packet)
  /-- WEAVE_SEND (R411). Sends LAST_COMMIT, the ACTIVE entries and their face content to the twin. -/
  | weaveSend (pk : Packet)
  /-- WEAVE_RECV (R411). Receives the face banks and state map from the twin into LOADING entries. -/
  | weaveRecv (pk : Packet)
  /-- REG_READ (R458). Returns a register's value, clearing its RC fields. -/
  | regRead (pk : Packet)
  /-- REG_WRITE (R459). Writes the masked bits of a register that has no row of its own, on one or every instance. -/
  | regWrite (pk : Packet)
  /-- LOCK_ACQUIRE (R464). Takes a FREE or BROKEN lock for the issuing creel with a lease. -/
  | lockAcquire (pk : Packet)
  /-- LOCK_RENEW (R464). Extends the lease of a lock held by the issuing creel. -/
  | lockRenew (pk : Packet)
  /-- LOCK_RELEASE (R464). Frees a lock held by the issuing creel. -/
  | lockRelease (pk : Packet)
  /-- FW_QUERY (R615). Reports firmware versions, pending images and slots of each image type. -/
  | fwQuery (pk : Packet)
  /-- UNIT_RESET (R600). Resets a command processor with its bobbin engines, or the standby headstock, activating a pending image. -/
  | unitReset (pk : Packet)
  /-- HS_HANDOVER (R603). Makes the READY standby the active headstock between steps. -/
  | hsHandover (pk : Packet)
  /-- ATTEST (R609). Signs and returns an attestation report, to memory or as a REPORT frame. -/
  | attest (pk : Packet)
  /-- MEASURE_READ (R611). Writes the measurement registers and the logged measurement events. -/
  | measureRead (pk : Packet)
  /-- FUSE_DEBUG_OFF (R612). Arms, confirms or cancels the two-phase blowing of the debug fuse. -/
  | fuseDebugOff (pk : Packet)
  /-- CTR_CONFIG (R551). Starts or stops periodic sampling of a counter set into a ring. -/
  | ctrConfig (pk : Packet)
  /-- CTR_READ (R553). Samples a counter set once and writes one manual record. -/
  | ctrRead (pk : Packet)
  /-- TRACE_CONFIG (R560). Starts or stops the trace in continuous or trigger mode. -/
  | traceConfig (pk : Packet)
  /-- TRACE_TRIGGER (R563). Triggers trace capture with a user code. -/
  | traceTrigger (pk : Packet)
  /-- WATCH_SET (R571). Arms, disarms or reads a tensor watch slot. -/
  | watchSet (pk : Packet)
  /-- EVLOG_READ (R576). Copies event-recorder records from a given sequence number. -/
  | evlogRead (pk : Packet)
  /-- LIFE_READ (R580). Writes the life counters and histograms record. -/
  | lifeRead (pk : Packet)
  /-- BURLER_SET (R530). Sets the burler checking fraction. -/
  | burlerSet (pk : Packet)
  /-- MEND_READ (R531). Writes the mending record of one loom die. -/
  | mendRead (pk : Packet)
  /-- STEPLOG_READ (R532). Writes step-digest log entries from a given step. -/
  | steplogRead (pk : Packet)
  /-- CKPT_STREAM (R526). Streams a face range out to a checkpoint sink, in from it, or cancels a running stream. -/
  | ckptStream (pk : Packet)
  /-- SHUTDOWN_REQUEST (R625). A write of 1 to PWR.SHUTDOWN.REQUEST begins the shutdown sequence. -/
  | shutdownRequest (pk : Packet)
  /-- COLL_SELF_WRITE (R323). A write of COLL.SELF.DEVICE sets VALID and sends new identity frames on every UP port. -/
  | collSelfWrite (pk : Packet)
  /-- RUNAHEAD_DISABLE (R267). Clearing YARN.CTL.RUNAHEAD_EN cancels run-ahead on a die's yarn engines. -/
  | runaheadDisable (pk : Packet)
  /-- CREEL_MODE_SET (R444). A write of CREEL.CTL.MODE switches an empty creel between full-flag and credit mode. -/
  | creelModeSet (pk : Packet)
  /-- TRACE_RP_WRITE (R559). A write of OBS.TRACE_PTR.RP consumes trace records and frees room for the drain. -/
  | traceRpWrite (pk : Packet)
  /-- VLD (R210). Vector load of 64 elements, widened exactly. -/
  | vld (n : Nat) (h : Nat)
  /-- VST (R210). Vector store in a scalar format with conversion under POL. -/
  | vst (n : Nat) (h : Nat)
  /-- VGATHER (R210). Gathers one element per lane by index. -/
  | vgather (n : Nat) (h : Nat)
  /-- VSCATTER (R210). Scatters one element per lane by index, highest lane winning. -/
  | vscatter (n : Nat) (h : Nat)
  /-- VSCATADD (R210). Adds each lane, I32 modulo 2^32, into an indexed address. -/
  | vscatadd (n : Nat) (h : Nat)
  /-- VADD (R210). Lane-wise addition. -/
  | vadd (n : Nat) (h : Nat)
  /-- VSUB (R210). Lane-wise subtraction. -/
  | vsub (n : Nat) (h : Nat)
  /-- VMUL (R210). Lane-wise multiplication. -/
  | vmul (n : Nat) (h : Nat)
  /-- VFMA (R210). F32 fused multiply-add with one rounding. -/
  | vfma (n : Nat) (h : Nat)
  /-- VDIV (R210). F32 lane-wise division. -/
  | vdiv (n : Nat) (h : Nat)
  /-- VSQRT (R210). F32 lane-wise square root. -/
  | vsqrt (n : Nat) (h : Nat)
  /-- VMIN (R210). Lane-wise minimum. -/
  | vmin (n : Nat) (h : Nat)
  /-- VMAX (R210). Lane-wise maximum. -/
  | vmax (n : Nat) (h : Nat)
  /-- VAND (R210). Bitwise AND on 32 bits. -/
  | vand (n : Nat) (h : Nat)
  /-- VOR (R210). Bitwise OR on 32 bits. -/
  | vor (n : Nat) (h : Nat)
  /-- VXOR (R210). Bitwise XOR on 32 bits. -/
  | vxor (n : Nat) (h : Nat)
  /-- VSHL (R210). Left shift by an immediate. -/
  | vshl (n : Nat) (h : Nat)
  /-- VSHR (R210). Right shift by an immediate, arithmetic for I32. -/
  | vshr (n : Nat) (h : Nat)
  /-- VCMP (R210). Lane-wise comparison into a mask register. -/
  | vcmp (n : Nat) (h : Nat)
  /-- VSEL (R210). Lane-wise select under a mask. -/
  | vsel (n : Nat) (h : Nat)
  /-- VCVT (R210). Converts register lanes between types under POL. -/
  | vcvt (n : Nat) (h : Nat)
  /-- VREDSUM (R211). Reduces the lanes to a sum, exact for I32 and by a fixed tree for F32. -/
  | vredsum (n : Nat) (h : Nat)
  /-- VREDMAX (R211). Reduces the lanes to the maximum and its lowest lane. -/
  | vredmax (n : Nat) (h : Nat)
  /-- VREDMIN (R211). Reduces the lanes to the minimum and its lowest lane. -/
  | vredmin (n : Nat) (h : Nat)
  /-- VWLD (R212). Loads and checks 8 WP256 elements into a vector register. -/
  | vwld (n : Nat) (h : Nat)
  /-- VWADD (R212). Adds 8 wide values exactly, faulting on 256-bit overflow. -/
  | vwadd (n : Nat) (h : Nat)
  /-- VWST (R212). Stores 8 wide values as WP256 with a given base. -/
  | vwst (n : Nat) (h : Nat)
  /-- SADD (R210). Scalar addition modulo 2^64. -/
  | sadd (n : Nat) (h : Nat)
  /-- SMOVI (R210). Moves a sign-extended immediate into a scalar register. -/
  | smovi (n : Nat) (h : Nat)
  /-- SLANE (R210). Moves one vector lane into a scalar register. -/
  | slane (n : Nat) (h : Nat)
  /-- BR (R210). Jumps to an instruction index. -/
  | br (n : Nat) (h : Nat)
  /-- BNZ (R210). Jumps when a scalar register is not zero. -/
  | bnz (n : Nat) (h : Nat)
  /-- BARRIER (R210). Makes a thread wait until every thread of the run reaches a barrier. -/
  | vBarrier (n : Nat) (h : Nat)
  /-- BARRIER_RELEASE (R210). Releases all threads once the last one reaches the barrier. -/
  | vBarrierRelease (n : Nat)
  /-- END (R210). Ends a vector thread; the run ends when every thread has ended. -/
  | vEnd (n : Nat) (h : Nat)
  /-- THREAD_SWITCH (R213). An engine switches to another ready thread on a missing load or an unissued request. -/
  | threadSwitch (e : Nat) (h : Nat) (granule : Nat)
  /-- FADD (R298). Microprogram F32 addition. -/
  | fadd (die : Nat)
  /-- FSUB (R298). Microprogram F32 subtraction. -/
  | fsub (die : Nat)
  /-- FMUL (R298). Microprogram F32 multiplication. -/
  | fmul (die : Nat)
  /-- FDIV (R298). Microprogram F32 division. -/
  | fdiv (die : Nat)
  /-- FSQRT (R298). Microprogram F32 square root. -/
  | fsqrt (die : Nat)
  /-- FMIN (R298). Microprogram lesser of two values. -/
  | fmin (die : Nat)
  /-- FMAX (R298). Microprogram greater of two values. -/
  | fmax (die : Nat)
  /-- FNEG (R298). Microprogram sign inversion. -/
  | fneg (die : Nat)
  /-- FABS (R298). Microprogram sign clearing. -/
  | fabs (die : Nat)
  /-- FSIGN (R298). Microprogram sign function. -/
  | fsign (die : Nat)
  /-- FSCALE (R298). Microprogram scaling by 2^LRX. -/
  | fscale (die : Nat)
  /-- FSEL (R298). Microprogram select on a positive value. -/
  | fsel (die : Nat)
  /-- MOV (R298). Microprogram register move. -/
  | fmov (die : Nat)
  /-- MICRO_END (R298). Ends a microprogram and writes f1, f2 and f3 as the element's results. -/
  | microEnd (die : Nat)
  /-- SESSION_OPEN (R425). A session-open frame selects a version and opens a session, or is rejected. -/
  | sessionOpen (f : RxFrame)
  /-- SESSION_FORCE_END (R427). Once running commands of a forced session complete, the device discards its state, breaks its locks and sends SESSION_ENDED. -/
  | sessionForceEnd (svc : Bool)
  /-- SESSION_RESUME (R428). A resume frame reopens an open or lapsed session on the arriving port and triggers resends. -/
  | sessionResume (f : RxFrame)
  /-- SESSION_CLOSE (R429). A close frame discards unread packets, breaks the session's locks and ends the session. -/
  | sessionClose (f : RxFrame)
  /-- SESSION_LAPSE (R430). When no session frame arrives for TIMEOUT_MS, the session lapses and its locks break. -/
  | sessionLapse (svc : Bool)
  /-- CREEL_WRITE (R439). A creel-write frame appends creel words to a lane, or is ignored and sets OVERRUN. -/
  | creelWrite (f : RxFrame)
  /-- KEEPALIVE (R420). A received keepalive frame carries the peer's latest acknowledgement. -/
  | keepalive (f : RxFrame)
  /-- KEEPALIVE_SEND (R424). After 100 µs without sending on a port, the device sends a keepalive. -/
  | keepaliveSend (k : KeepaliveTurn)
  /-- FRAME_RESEND (R420). The device resends a sequenced frame that the other side has not acknowledged. -/
  | frameResend (svc : Bool) (seq : Nat)
  /-- DROPPED_FRAME (R423). A frame of reserved type, bad CRC, wrong sequence, wrong port or no session is dropped and counted. -/
  | droppedFrame (f : RxFrame)
  /-- CREEL_STATUS (R440). The device sends the FULL and OVERRUN bitmaps after a flag change or every 100 µs. -/
  | creelStatus
  /-- REPLY_FLUSH (R450). Held replies are sent in a REPLY frame when they reach 4 KiB or the oldest has waited FLUSH_US. -/
  | replyFlush (svc : Bool)
  /-- PACKET_READ (R445). The device reads the ready head packet of the highest lane, checks it and forwards or refuses it. -/
  | packetRead
  /-- STALL (R447). A lane's stall timer reaches STALL_TIME with a packet waiting; STALLED is set and one notice sent. -/
  | stall (creel : Nat) (lane : Nat)
  /-- COMMAND_COMPLETION (R498). A command whose work has finished completes once the previous command of its lane has completed, and its reply is queued. -/
  | commandCompletion (creel : Nat) (lane : Nat)
  /-- LOCK_EXPIRED (R465). A held lock's pick count reaches its expiry and the lock becomes BROKEN. -/
  | lockExpired (k : Nat)
  /-- PICK (R479). A pick marker frame schedules an advance or is counted stale. -/
  | pick (f : RxFrame)
  /-- PICK_IN_EDGE (R481). A rising edge on PICK_IN schedules an advance to the target pick. -/
  | pickInEdge
  /-- PICK_ADVANCE (R480). Every die applies a scheduled pick advance at its apply time. -/
  | pickAdvance
  /-- PICK_ECHO (R494). An advance past a multiple of ECHO_EVERY sends one echo frame. -/
  | pickEcho
  /-- CTR_SAMPLE (R549). An advance past a multiple of INTERVAL samples a running counter set into its ring. -/
  | ctrSample (set : Nat)
  /-- ARBITRATION_ROUND (R249). A free bank, bridge or port grants the waiting requester of highest effective priority. -/
  | arbitrationRound (a : Nat) (arrivals : List Arrival) (withdrawn : Bool)
  /-- PREEMPTION (R250). An arriving requester with higher priority than a grant's frozen priority preempts it. -/
  | preemption (a : Nat) (r : Arrival) (doneBeats : Nat)
  /-- DRAM_READ (R226). A channel serves a granule read, correcting or poisoning it; wrong counts the 8-bit symbols in error
  among the granule's data, its address and its code (R225). -/
  | dramRead (granule : Nat) (source : Nat) (wrong : Nat)
  /-- DRAM_WRITE (R230). A write reaches its channel and the directory sends kills to run-ahead holders. -/
  | dramWrite (granule : Nat) (mask : BitVec 64) (data : BitVec 512)
  /-- KILL (R240). A run-ahead holder drops a killed granule and acknowledges. -/
  | kill (n : Nat) (granule : Nat)
  /-- WRITE_COMPLETE (R231). A write becomes complete when every kill acknowledgement has arrived. -/
  | writeComplete (granule : Nat)
  /-- RUNAHEAD_READ (R238). A yarn engine reads a granule ahead of consumption into its buffer: one request, for as many
  consecutive granules of a row as the list counts, each with its symbols in error (R225, R244). -/
  | runaheadRead (n : Nat) (wrong : List Nat)
  /-- GRANULE_CONSUME (R239). A yarn engine writes a granule, or its converted form, into the shuttle store for a running
  command; upset lists the 8-byte words of the store that bit errors strike then, each with its number of bits in error (R507). -/
  | granuleConsume (u : Consumption)
  /-- SLOT_FREE (R245). A request slot frees and an unissued request's thread becomes runnable. -/
  | slotFree (e : Nat) (h : Nat)
  /-- SCRUB_READ (R229). A stack's scrub reads its next granule at its period. -/
  | scrubRead (stack : Nat) (wrong : Nat)
  /-- MEM_RETRAIN_DONE (R254). A channel finishes retraining, or restores its training, and resumes service. -/
  | memRetrainDone (ok : Bool) (pause : Nat)
  /-- UNIT_FAILURE (R508). A failed control-state or residue check ends the unit's commands with UNIT_FAILED and stops the device. -/
  | unitFailure (cls : Nat) (inst : Nat)
  /-- ENDING_START (R200). An ending command starts once every included contribution has completed and checks for overflow;
  parity tells whether it meets a parity error in the accumulator file (R507). -/
  | endingStart (n : Nat) (t : Nat) (r : FileRead)
  /-- BUCKET_CONVERSION_DONE (R335). A member finishes converting a bucket into staging and starts sending its packets. -/
  | bucketConversionDone (tag : Nat)
  /-- BUCKET_PACKET (R336). A link adder adds the own piece to an arriving partial and relays it, or drops a malformed packet. -/
  | bucketPacket (port : Nat) (m : WarpMsg)
  /-- HELD_PARTIAL_RELEASE (R338). Held partials of a bucket are added once the local conversion of their generation finishes. -/
  | heldPartialRelease (tag : Nat)
  /-- TWIN_HALF_SUM (R340). An owner adds the twin's half-sum received over the twin link and writes the shard. -/
  | twinHalfSum (port : Nat) (m : WarpMsg)
  /-- SHARD_FINAL (R343). An owner's final shard is judged by its flags: final, non-finite or overflowed. -/
  | shardFinal (tag : Nat)
  /-- BUCKET_RESEND (R345). A member raises the bucket's generation and exponent, reconverts and sends again. -/
  | bucketResend (tag : Nat)
  /-- GATHER_PACKET (R353). A member writes an arriving all-gather packet into DST and sends it on. -/
  | gatherPacket (port : Nat) (m : WarpMsg)
  /-- LATENESS_EXPIRY (R347). A bucket's lateness window ends with packets missing, and the member asks the twin for copies. -/
  | latenessExpiry (tag : Nat)
  /-- TWIN_COPY_REQUEST (R348). A twin answers a copy request with its relay or DST content, or that it cannot. -/
  | twinCopyRequest (port : Nat) (m : WarpMsg)
  /-- TWIN_COPY_ANSWER (R348). A member uses the twin's copy as its result, or waits for the original. -/
  | twinCopyAnswer (port : Nat) (m : WarpMsg)
  /-- WARP_FORWARD (R324). A packet for a third device is forwarded by the forwarding table. -/
  | warpForward (port : Nat) (m : WarpMsg)
  /-- REMOTE_WRITE (R261). A MEM_COPY write from another device is translated and written, or refused on a face range. -/
  | remoteWrite (port : Nat) (m : WarpMsg)
  /-- LINK_PACKET (R319). A link packet is acknowledged or refused for resend from the retry buffer. -/
  | linkPacket (port : Nat) (e : LinkEvent)
  /-- IDENTITY_FRAME (R323). An identity frame sets the peer fields and may set twin AGREED. -/
  | identityFrame (port : Nat) (m : WarpMsg)
  /-- PORT_UP (R320). A port finishes training and the first identity exchange and enters UP. -/
  | portUp (port : Nat) (m : WarpMsg)
  /-- PORT_FAULT (R321). A port enters FAULT after 16 retries, loss of lock or a fault indication. -/
  | portFault (port : Nat) (c : FaultCause)
  /-- PORT_DOWN (R370). A port loses its peer or its link die enters reset and goes DOWN. -/
  | portDown (port : Nat)
  /-- LANE_EQUALIZATION (R604). Every 10 s a port renegotiates one lane's transmit equalization. -/
  | laneEqualization (port : Nat)
  /-- PREPARE_DIGEST (R386). Once the sealed step's commands complete, prepare computes the digests and logs the entry. -/
  | prepareDigest
  /-- PREPARE_MESSAGE (R388). The twin's prepare message is compared and STEP_PREPARE completes. -/
  | prepareMessage (port : Nat) (m : WarpMsg)
  /-- COMMIT_START (R392). The commit flips the banks once every earlier command has completed. -/
  | commitStart
  /-- WEAVE_PACKET (R411). The receiver writes weave content through face ranges and checks each entry's digest. -/
  | weavePacket (port : Nat) (m : WarpMsg)
  /-- CKPT_DATA (R526). A checkpoint DATA packet is written through the face range of a LOADING entry. -/
  | ckptData (port : Nat) (m : WarpMsg)
  /-- CKPT_END (R526). A checkpoint END packet completes an IN stream. -/
  | ckptEnd (port : Nat) (m : WarpMsg)
  /-- BURLER_SLICE (R513). The burler runs a slice of at most 4,096 cycles on the tested shuttle. -/
  | burlerSlice (die : Nat) (wantsTile : Bool)
  /-- BURLER_TEST_DONE (R510). A burler test ends and its digest is compared with the expected digest. -/
  | burlerTestDone (die : Nat) (part : Nat) (digest : Word64) (expected : Word64)
  /-- MEND_DONE (R518). The spare's test ends; the slot moves to the spare, or the slot is lost. -/
  | mendDone (die : Nat) (pass : Bool)
  /-- IMAGE_BEGIN (R598). An image header is checked and a transfer begins into the alternate slot. -/
  | imageBegin (f : RxFrame)
  /-- IMAGE_DATA (R598). The next bytes of an image are written into the alternate slot. -/
  | imageData (f : ImageFrame)
  /-- IMAGE_END (R598). The image length, hash and signature are checked, and the image becomes pending. -/
  | imageEnd (f : ImageFrame)
  /-- IMAGE_ABORT (R599). Ends an image transfer and leaves the alternate slot invalid. -/
  | imageAbort (f : RxFrame)
  /-- HS_FAULT (R574). A headstock watchdog declares its headstock faulted. -/
  | hsFault (h : Nat)
  /-- TAKEOVER (R51). The READY standby becomes active after the active headstock faults. -/
  | takeover
  /-- STANDBY_READY (R49). The standby enters READY and copies the active headstock's MRAM contents. -/
  | standbyReady (bad : List Nat)
  /-- THERMAL_SAMPLE (R636). At each 100 µs interval a loom die reads its sensors and sets its stretch level. -/
  | thermalSample (die : Nat) (r : ThermReading)
  /-- LIFE_SAMPLE (R579). Once each second the active headstock bins temperatures and VCORE into the life histograms. -/
  | lifeSample (vcore : List Nat)
  /-- HOURS_TICK (R578). Every 0.1 h the life counters and histograms are stored in MRAM. -/
  | hoursTick
  /-- PERST_N_ASSERT (R631). PERST_N low for at least 1 µs resets the whole device. -/
  | perstNAssert (ns : Nat)
  /-- PERST_N_RELEASE (R586). Release of PERST_N starts the time base and boot stage 0. -/
  | perstNRelease (hs0 : HeadTest) (hs1 : HeadTest)
  /-- BOOT_STAGE_1 (R586). Usdon firmware settles roles, migrates records, loads images, trains, zeroes memory and tests shuttles. -/
  | bootStage1 (failing : List Nat) (badA : List Nat) (badB : List Nat)
  /-- VAUX_RISE (R578). A first rise of VAUX counts a power cycle and starts the SMBus target. -/
  | vauxRise
  /-- SHDN_REQ_N (R625). SHDN_REQ_N low for at least 1 µs begins the shutdown sequence. -/
  | shdnReqN (ns : Nat)
  /-- SMB_VERSION (R648). SMBus Read Byte of code 0x00 returns the layout version. -/
  | smbVersion
  /-- SMB_STATUS (R648). SMBus Read Byte of code 0x01 returns the status bits. -/
  | smbStatus
  /-- SMB_HOTTEST_LOGIC (R648). SMBus Read Word of code 0x02 returns the hottest logic sensor. -/
  | smbHottestLogic
  /-- SMB_HOTTEST_DRAM (R648). SMBus Read Word of code 0x03 returns the hottest DRAM sensor. -/
  | smbHottestDram
  /-- SMB_HOTTEST_OTHER (R648). SMBus Read Word of code 0x04 returns the hottest link or headstock sensor. -/
  | smbHottestOther
  /-- SMB_DIE_LOGIC_TEMP (R648). SMBus Read Word of code 0x10 + d returns loom die d's hottest logic sensor. -/
  | smbDieLogicTemp (d : Nat)
  /-- SMB_STACK_TEMP (R648). SMBus Read Word of code 0x30 + d returns stack d's hottest sensor. -/
  | smbStackTemp (d : Nat)
  /-- SMB_VCORE (R648). SMBus Read Word of code 0x50 + d returns VCORE_d in millivolts. -/
  | smbVcore (d : Nat)
  /-- SMB_IDENT (R648). SMBus Block Read of code 0x70 returns HS.IDENT. -/
  | smbIdent
  /-- SMB_LIFE (R648). SMBus Block Read of code 0x71 returns four life counters. -/
  | smbLife
  /-- SMB_ALERT_RESPONSE (R649). An answer to the alert response address releases SMB_ALERT_N. -/
  | smbAlertResponse
  /-- TRACE_DRAIN (R558). DMA drains a trace unit's local records into its region in bonded DRAM. -/
  | traceDrain (u : Nat)
  /-- TRACE_GAP (R557). Once a full buffer has room for two records, the unit writes one GAP record. -/
  | traceGap (u : Nat)
  /-- TRACE_WINDOW_END (R562). At the end of the post-trigger window the buffers are drained and STATE becomes DONE. -/
  | traceWindowEnd
  /-- PORT_TRAINING (R320). A peer answering on the lanes of a port whose link die is out of reset starts training and takes the port from DOWN to TRAINING. -/
  | portTraining (l : PortLanes)
  /-- LINK_RESET_TIMEOUT (R368). 200 ms after a LINK_RESET's reset, the command completes with the bitmap of ports that are UP. -/
  | linkResetTimeout
  /-- UNIT_REPORTS_READY (R600). A reset command processor reports ready, Usdon firmware reloads its state map and microprograms, and UNIT_RESET completes. -/
  | unitReportsReady (standby : Bool) (die : Nat)
  /-- READY_TIME_EXPIRY (R600). A reset unit not ready within 50 ms or 3 s is reset again from its former image, or the command completes with UNIT_RESET_FAILED. -/
  | readyTimeExpiry (standby : Bool) (die : Nat)
  /-- WRITES_COMPLETE_REPORT (R261). The destination device's report that its writes are complete, or refused on a face range, completes a MEM_COPY to another device. -/
  | writesCompleteReport (port : Nat) (m : WarpMsg)
  /-- VAUX_LOSS (R629). Loss of VAUX removes all state outside MRAM and the fuses and cuts off an MRAM write in progress. -/
  | vauxLoss
  /-- TEST_ACCESS_PORT (R612). An IEEE 1149.1 instruction on the test access port runs boundary scan or debug access, or meets a controller held in Test-Logic-Reset once DEBUG_OFF is 1. -/
  | testAccessPort (ti : TapInstr)
deriving DecidableEq, Repr

end Sys2Proof
end

