-- ==== Sys2Proof/Decode.lean ====
section
/-! DEFINITION. Commands by word. The table of operations and events gives no row any bits: commands are packets, frames
and events, whose fields Machine/Cmds.lean and Machine/Treadle.lean read from their bytes (R421, R432). -/

namespace Sys2Proof

/-- The command that a word of the table spells: none, since the table gives no row bits. -/
def decodeTableWord (_nbits _w : Nat) : Option Instr := none

end Sys2Proof
end

