-- ==== Sys2Proof/Machine/Bits.lean ====
section
/-! DEFINITION. Bit fields, sign extension, byte order and exact integer helpers (R7, R8, R79, R80). -/

namespace Sys2Proof.Machine

/-- Bits [lo + len - 1 : lo] of a natural number. -/
def nfld (w lo len : Nat) : Nat := (w >>> lo) % 2 ^ len

/-- Bits [lo + len - 1 : lo] of a bit vector, as a number. -/
def fld {n : Nat} (w : BitVec n) (lo len : Nat) : Nat := nfld w.toNat lo len

/-- Bit i of a bit vector. -/
def flag {n : Nat} (w : BitVec n) (i : Nat) : Bool := w.toNat.testBit i

/-- A w-bit two's-complement field read as an integer. -/
def sext (c w : Nat) : Int := if c < 2 ^ (w - 1) then Int.ofNat c else Int.ofNat c - Int.ofNat (2 ^ w)

/-- The w low bits of an integer, two's complement. -/
def lowBits (v : Int) (w : Nat) : Nat := (v % Int.ofNat (2 ^ w)).toNat

/-- A word with bits [lo + len - 1 : lo] replaced. -/
def putFld (w lo len v : Nat) : Nat := w - (nfld w lo len) * 2 ^ lo + (v % 2 ^ len) * 2 ^ lo

/-- A Bool as one bit. -/
def b2n (b : Bool) : Nat := if b then 1 else 0

/-- m × 2^n. -/
def shl (m : Int) (n : Nat) : Int := m * Int.ofNat (2 ^ n)

/-- floor(m / 2^n). -/
def floorShr (m : Int) (n : Nat) : Int := m / Int.ofNat (2 ^ n)

/-- floor_log2 of the magnitude of a nonzero integer (R79). -/
def flog (m : Int) : Int := Int.ofNat (Nat.log2 m.natAbs)

/-- The n low bytes of a number, least significant first (R8). -/
def leBytes : Nat → Nat → List Byte
  | 0, _ => []
  | n + 1, v => BitVec.ofNat 8 v :: leBytes n (v / 256)

/-- The number that little-endian bytes spell (R8). -/
def ofLe : List Byte → Nat
  | [] => 0
  | b :: r => b.toNat + 256 * ofLe r

/-- Saturation of a count at a bound. -/
def satAt (bound v : Nat) : Nat := if v ≤ bound then v else bound

/-- The largest value of an unsigned field of w bits. -/
def umax (w : Nat) : Nat := 2 ^ w - 1

/-- Smallest integer not below a / b, with 0 for b = 0. -/
def cdiv (a b : Nat) : Nat := (a + b - 1) / b

/-- Newton steps towards the integer square root. -/
def isqrtStep : Nat → Nat → Nat → Nat
  | 0, _, x => x
  | fuel + 1, n, x =>
    let y := (x + n / x) / 2
    if y < x then isqrtStep fuel n y else x

/-- floor of the square root. -/
def isqrt (n : Nat) : Nat := if n = 0 then 0 else isqrtStep 200 n (2 ^ (Nat.log2 n / 2 + 1))

/-- Replace entry i of a list. -/
def lset {α : Type} (l : List α) (i : Nat) (a : α) : List α := l.set i a

/-- Apply a function to entry i of a list. -/
def lmod {α : Type} (l : List α) (i : Nat) (f : α → α) : List α := l.modify i f

/-- Least element of a nonempty list of numbers. -/
def minNat : List Nat → Nat
  | [] => 0
  | [a] => a
  | a :: r => Nat.min a (minNat r)

/-- Distinct entries of a list, first occurrence kept. -/
def dedup {α : Type} [DecidableEq α] (l : List α) : List α :=
  l.foldl (fun acc a => if a ∈ acc then acc else acc ++ [a]) []

/-- Insertion into a list sorted by a key. -/
def insertBy {α : Type} (le : α → α → Bool) (a : α) : List α → List α
  | [] => [a]
  | b :: r => if le a b then a :: b :: r else b :: insertBy le a r

/-- Stable insertion sort. -/
def sortBy {α : Type} (le : α → α → Bool) (l : List α) : List α := l.foldr (insertBy le) []

/-- Cut a list into pieces of n entries. -/
def chunksOf {α : Type} (n : Nat) : Nat → List α → List (List α)
  | 0, _ => []
  | k + 1, l => l.take n :: chunksOf n k (l.drop n)

end Sys2Proof.Machine
end

