-- ==== Sys2Proof/Machine/Formats.lean ====
section
/-! DEFINITION. Number formats and conversions (R63 to R99): codes, exact decoding, rounding onto a grid,
conversion to block and scalar formats, census classes, GF64, WP256, and the stochastic word of R141. -/

namespace Sys2Proof.Machine

/-- The number formats of R63. -/
inductive Fmt where
  | int8 | uint8 | int4 | uint4 | int8bs | uint8bs | int4bs | uint4bs
  | mxint8 | e4m3 | e5m2 | e2m3 | e3m2 | e2m1 | bf16 | fp16 | fp32 | gf64 | wp256
deriving DecidableEq, Repr

/-- The format of a code; none for a reserved code and for 0x00 (R63). -/
def fmtOf (c : Nat) : Option Fmt :=
  match c with
  | 0x01 => some .int8 | 0x02 => some .uint8 | 0x03 => some .int4 | 0x04 => some .uint4
  | 0x05 => some .int8bs | 0x06 => some .uint8bs | 0x07 => some .int4bs | 0x08 => some .uint4bs
  | 0x10 => some .mxint8 | 0x11 => some .e4m3 | 0x12 => some .e5m2 | 0x13 => some .e2m3
  | 0x14 => some .e3m2 | 0x15 => some .e2m1 | 0x20 => some .bf16 | 0x21 => some .fp16
  | 0x22 => some .fp32 | 0x30 => some .gf64 | 0x31 => some .wp256
  | _ => none

/-- Element bits (R63). -/
def fmtWidth : Fmt → Nat
  | .int8 | .uint8 | .int8bs | .uint8bs | .mxint8 | .e4m3 | .e5m2 => 8
  | .int4 | .uint4 | .int4bs | .uint4bs | .e2m1 => 4
  | .e2m3 | .e3m2 => 6
  | .bf16 | .fp16 => 16
  | .fp32 => 32
  | .gf64 => 64
  | .wp256 => 320

/-- The block formats (R63). -/
def isBlockFmt : Fmt → Bool
  | .int8bs | .uint8bs | .int4bs | .uint4bs | .mxint8 | .e4m3 | .e5m2 | .e2m3 | .e3m2 | .e2m1 => true
  | _ => false

/-- The scalar formats (R63). -/
def isScalarFmt : Fmt → Bool
  | .int8 | .uint8 | .int4 | .uint4 | .bf16 | .fp16 | .fp32 => true
  | _ => false

/-- Integer and fixed-point elements (R66). -/
def isIntFmt : Fmt → Bool
  | .int8 | .uint8 | .int4 | .uint4 | .int8bs | .uint8bs | .int4bs | .uint4bs | .mxint8 => true
  | _ => false

/-- Unsigned elements (R66). -/
def isUnsignedFmt : Fmt → Bool
  | .uint8 | .uint4 | .uint8bs | .uint4bs => true
  | _ => false

/-- Fraction bits of an integer format: 6 for MXINT8, else 0 (R66, R79). -/
def fracBits : Fmt → Nat
  | .mxint8 => 6
  | _ => 0

/-- Mantissa bits (R70). -/
def mBits : Fmt → Nat
  | .e4m3 => 3 | .e5m2 => 2 | .e2m3 => 3 | .e3m2 => 2 | .e2m1 => 1
  | .fp16 => 10 | .bf16 => 7 | .fp32 => 23
  | _ => 0

/-- Exponent bits (R70). -/
def eBits (f : Fmt) : Nat := fmtWidth f - 1 - mBits f

/-- Exponent bias (R70). -/
def biasOf : Fmt → Int
  | .e4m3 => 7 | .e5m2 => 15 | .e2m3 => 1 | .e3m2 => 3 | .e2m1 => 1
  | .fp16 => 15 | .bf16 => 127 | .fp32 => 127
  | _ => 0

/-- emax_elem of R70. -/
def emaxElem : Fmt → Int
  | .e4m3 => 8 | .e5m2 => 15 | .e2m3 => 2 | .e3m2 => 4 | .e2m1 => 2
  | .fp16 => 15 | .bf16 => 127 | .fp32 => 127
  | .int8bs => 6 | .uint8bs => 7 | .int4bs => 2 | .uint4bs => 3
  | _ => 0

/-- The code of the maximum finite value (R68 to R70). -/
def maxCode : Fmt → Nat
  | .int8 | .int8bs | .mxint8 => 0x7F
  | .uint8 | .uint8bs => 0xFF
  | .int4 | .int4bs => 0x7
  | .uint4 | .uint4bs => 0xF
  | .e4m3 => 0x7E | .e5m2 => 0x7B | .e2m3 => 0x1F | .e3m2 => 0x1F | .e2m1 => 0x7
  | .fp16 => 0x7BFF | .bf16 => 0x7F7F | .fp32 => 0x7F7FFFFF
  | .gf64 | .wp256 => 0

/-- The code of positive infinity where the format has one (R71). -/
def infCode : Fmt → Option Nat
  | .e5m2 => some 0x7C | .fp16 => some 0x7C00 | .bf16 => some 0x7F80 | .fp32 => some 0x7F800000
  | _ => none

/-- The canonical NaN of a scalar floating-point format, and zero for the integer formats (R75, R88). -/
def nanCode : Fmt → Nat
  | .fp16 => 0x7E00 | .bf16 => 0x7FC0 | .fp32 => 0x7FC00000
  | _ => 0

/-- The class of a value (R79). -/
inductive Cls where
  | finite | posInf | negInf | nan
deriving DecidableEq, Repr

/-- The code of a class in WP256 and in a narrow element (R96, R151). -/
def clsCode : Cls → Nat
  | .finite => 0 | .posInf => 1 | .negInf => 2 | .nan => 3

/-- The class of a two-bit code. -/
def clsOf : Nat → Cls
  | 0 => .finite | 1 => .posInf | 2 => .negInf | _ => .nan

/-- The join of two classes (R106). -/
def clsJoin : Cls → Cls → Cls
  | .finite, c => c
  | c, .finite => c
  | .posInf, .posInf => .posInf
  | .negInf, .negInf => .negInf
  | _, _ => .nan

/-- A decoded value: class, and for class FINITE the exact value m × 2^e (R79). -/
structure Dec where
  cls : Cls := .finite
  m : Int := 0
  e : Int := 0
deriving DecidableEq, Repr

/-- NaN codes of the floating-point formats (R71). -/
def isNanCode (f : Fmt) (ef mf : Nat) : Bool :=
  match f with
  | .e4m3 => ef == 15 && mf == 7
  | .e5m2 => ef == 31 && mf != 0
  | .fp16 => ef == 31 && mf != 0
  | .bf16 | .fp32 => ef == 255 && mf != 0
  | _ => false

/-- Infinity codes of the floating-point formats (R71). -/
def isInfCode (f : Fmt) (ef mf : Nat) : Bool :=
  match f with
  | .e5m2 | .fp16 => ef == 31 && mf == 0
  | .bf16 | .fp32 => ef == 255 && mf == 0
  | _ => false

/-- A floating-point or integer element with scale exponent xs (R79, after the scale code is read). -/
def decodeElem (f : Fmt) (c : Nat) (xs : Int) : Dec :=
  if isIntFmt f then
    { m := if isUnsignedFmt f then Int.ofNat c else sext c (fmtWidth f), e := xs - Int.ofNat (fracBits f) }
  else
    let s := nfld c (fmtWidth f - 1) 1
    let ef := nfld c (mBits f) (eBits f)
    let mf := nfld c 0 (mBits f)
    if isNanCode f ef mf then { cls := .nan }
    else if isInfCode f ef mf then (if s = 1 then { cls := .negInf } else { cls := .posInf })
    else
      let mag : Int := if ef = 0 then Int.ofNat mf else Int.ofNat (2 ^ mBits f + mf)
      let e : Int := (if ef = 0 then 1 else Int.ofNat ef) - biasOf f - Int.ofNat (mBits f)
      { m := if s = 1 then -mag else mag, e := e + xs }

/-- decode of R79: format, element code and scale code. -/
def decodeFmt (f : Fmt) (c sc : Nat) : Dec :=
  if isBlockFmt f then
    if sc = 0xFF then { cls := .nan } else decodeElem f c (Int.ofNat sc - 127)
  else decodeElem f c 0

/-- A rounding of S × 2^E onto steps of 2^g: to nearest with ties to even (R80), or with a stochastic word
(round_at of R142). -/
def roundAt (s e g : Int) (sr : Option Nat) : Int :=
  if g ≤ e then shl s (e - g).toNat
  else
    let n := (g - e).toNat
    let q := floorShr s n
    let rem := s - shl q n
    match sr with
    | some r => if Int.ofNat (2 ^ 32) ≤ floorShr (shl rem 32) n + Int.ofNat r then q + 1 else q
    | none =>
      let h : Int := Int.ofNat (2 ^ (n - 1))
      if h < rem ∨ (rem = h ∧ q % 2 = 1) then q + 1 else q

/-- rne_to_grid of R80. -/
def rneToGrid (m e g : Int) : Int := roundAt m e g none

/-- The grid of a floating-point target for a nonzero value m × 2^e under scale exponent x (fp_grid of R80). -/
def fpGrid (f : Fmt) (m e x : Int) : Int :=
  let k := flog m + e - x
  let k := if k < 1 - biasOf f then 1 - biasOf f else k
  k - Int.ofNat (mBits f) + x

/-- The grid of any target (grid_for of R146, fp_grid of R80; a scalar integer format uses 0). -/
def gridFor (f : Fmt) (m e x : Int) : Int :=
  if isIntFmt f then (if isBlockFmt f then x - Int.ofNat (fracBits f) else 0) else fpGrid f m e x

/-- a × 2^ea < b × 2^eb, exactly. -/
def scaledLt (a ea b eb : Int) : Bool :=
  if eb ≤ ea then decide (shl a (ea - eb).toNat < b) else decide (a < shl b (eb - ea).toNat)

/-- The rounded magnitude exceeds the maximum finite value times 2^x (R83, R87). -/
def exceedsMax (f : Fmt) (t g x : Int) : Bool :=
  let mx := decodeElem f (maxCode f) x
  scaledLt mx.m mx.e (Int.ofNat t.natAbs) g

/-- The code written for a saturating element (R83, R87); INFINITY where the policy bit is set. For minus infinity R88 gives
an integer format the maximum finite value of that sign; an unsigned format has none, and the model writes 0
(DESIGN CHOICE; log 104). -/
def satCode (f : Fmt) (neg infPol : Bool) : Nat :=
  if isUnsignedFmt f then (if neg then 0 else maxCode f)
  else if isIntFmt f then (if neg then 2 ^ fmtWidth f - maxCode f else maxCode f)
  else
    let mag := match infCode f with
      | some i => if infPol then i else maxCode f
      | none => maxCode f
    if neg then mag + 2 ^ (fmtWidth f - 1) else mag

/-- The code of the rounded value t × 2^g under scale exponent x; zero is positive zero (R74). -/
def encodeElem (f : Fmt) (t g x : Int) : Nat :=
  if t = 0 then 0
  else if isIntFmt f then lowBits t (fmtWidth f)
  else
    let lg := Nat.log2 t.natAbs
    let k := Int.ofNat lg + g - x
    let mb := mBits f
    let sgn := if t < 0 then 2 ^ (fmtWidth f - 1) else 0
    if k < 1 - biasOf f then
      sgn + (shl (Int.ofNat t.natAbs) (g - x - (1 - biasOf f - Int.ofNat mb)).toNat).toNat
    else
      let mant := if mb ≤ lg then t.natAbs >>> (lg - mb) else t.natAbs <<< (mb - lg)
      sgn + (k + biasOf f).toNat * 2 ^ mb + (mant - 2 ^ mb)

/-- The census classes of R90. -/
inductive CenCls where
  | nonfinite | sat | vanished | underflow | zero | none
deriving DecidableEq, Repr

/-- The element's conversion under scale exponent x: code and class (the body of to_block, R83; R87 at x = 0). -/
def roundElem (f : Fmt) (v : Dec) (x : Int) (infPol : Bool) (small : CenCls) (sr : Option Nat) : Nat × CenCls :=
  if v.m = 0 then (0, .zero)
  else
    let g := gridFor f v.m v.e x
    let t := roundAt v.m v.e g sr
    if exceedsMax f t g x || (isUnsignedFmt f && decide (t < 0)) then (satCode f (decide (t < 0)) infPol, .sat)
    else if t = 0 then (0, small)
    else (encodeElem f t g x, .none)

/-- Conversion to a scalar format (R87, R88) with an optional stochastic word. -/
def toScalar (f : Fmt) (infPol : Bool) (sr : Option Nat) (v : Dec) : Nat × CenCls :=
  match v.cls with
  | .nan => (nanCode f, .nonfinite)
  | .posInf => (satCode f false true, .nonfinite)
  | .negInf => (satCode f true true, .nonfinite)
  | .finite => roundElem f v 0 infPol .underflow sr

/-- The result of to_block. -/
structure BlockOut where
  scale : Nat
  codes : List Nat
  classes : List CenCls
deriving DecidableEq, Repr

/-- The largest binade of the nonzero elements (R81). -/
def blockTop : List Dec → Option Int
  | [] => none
  | v :: r =>
    let t := blockTop r
    if v.m = 0 then t
    else
      let k := flog v.m + v.e
      match t with
      | none => some k
      | some j => some (if j < k then k else j)

/-- to_block of R81 to R85 over a list of elements, each with its own optional stochastic word. -/
def toBlock (f : Fmt) (infPol : Bool) (xs : List (Dec × Option Nat)) : BlockOut :=
  if xs.any (fun p => p.1.cls != Cls.finite) then
    { scale := 0xFF, codes := xs.map (fun _ => 0), classes := xs.map (fun _ => .nonfinite) }
  else
    match blockTop (xs.map (fun p => p.1)) with
    | none => { scale := 0, codes := xs.map (fun _ => 0), classes := xs.map (fun _ => .zero) }
    | some top =>
      let x0 := top - emaxElem f
      let x := if x0 < -127 then -127 else if 127 < x0 then 127 else x0
      let small := if x = x0 then CenCls.vanished else CenCls.underflow
      let out := xs.map (fun p => roundElem f p.1 x infPol small p.2)
      { scale := (x + 127).toNat, codes := out.map (fun p => p.1), classes := out.map (fun p => p.2) }

/-- Conversion of a finite or non-finite value to GF64 under bucket exponent eb (R93): the integer, its class. -/
def toGf64 (v : Dec) (eb : Int) : Int × CenCls :=
  match v.cls with
  | .finite =>
    if v.m = 0 then (0, .zero)
    else
      let hi : Int := Int.ofNat (2 ^ 63) - 1
      let lo : Int := -Int.ofNat (2 ^ 63)
      if eb + 63 < v.e then (if v.m < 0 then (lo, .sat) else (hi, .sat))
      else
        let t := rneToGrid v.m v.e eb
        if t < lo then (lo, .sat) else if hi < t then (hi, .sat)
        else if t = 0 then (0, .underflow) else (t, .none)
  | _ => (0, .nonfinite)

/-- The bytes of n codes (R68, R76, R77). The spare nibble of an odd number of 4-bit codes in a scalar row is written as
zero, which the manual does not state (R216, R657; DESIGN CHOICE; log 106). -/
def packCodes (w : Nat) (codes : List Nat) : List Byte :=
  let v := codes.foldr (fun c acc => c + acc * 2 ^ w) 0
  leBytes (cdiv (w * codes.length) 8) v

/-- n codes of w bits from packed bytes (R68, R76, R77). -/
def unpackCodes (w n : Nat) (l : List Byte) : List Nat :=
  let v := ofLe l
  (List.range n).map (fun i => nfld v (w * i) w)

/-- Bytes of a block's 32 elements (R76). -/
def blockBytes (f : Fmt) : Nat := 4 * fmtWidth f

/-- A WP256 element (R96). -/
structure Wide where
  cls : Cls := .finite
  v : BitVec 256 := 0
  base : Int := 0
  inexact : Bool := false
deriving DecidableEq, Repr

/-- Forty bytes of a WP256 element; a class other than FINITE has V and BASE zero (R96, R97). -/
def wideBytes (w : Wide) : List Byte :=
  let fin := w.cls == Cls.finite
  let tail := 0x10 * 2 ^ 56 + b2n w.inexact * 2 ^ 20 + clsCode w.cls * 2 ^ 18 +
    (if fin then lowBits w.base 16 else 0)
  leBytes 32 (if fin then w.v.toNat else 0) ++ leBytes 8 tail

/-- Read forty bytes; none when malformed (R98). -/
def wideOf (l : List Byte) : Option Wide :=
  let v := ofLe (l.take 32)
  let t := ofLe (l.drop 32)
  let base := sext (nfld t 0 16) 16
  let cls := clsOf (nfld t 18 2)
  if nfld t 56 8 ≠ 0x10 ∨ nfld t 21 35 ≠ 0 ∨ nfld t 16 2 ≠ 0 ∨ base < -640 ∨ 511 < base ∨
      (cls ≠ Cls.finite ∧ (v ≠ 0 ∨ base ≠ 0)) then none
  else some { cls := cls, v := BitVec.ofNat 256 v, base := base, inexact := nfld t 20 1 == 1 }

/-- One round of Philox-4x32 (R141). -/
def philoxRound (c : Word32 × Word32 × Word32 × Word32) (k0 k1 : Word32) : Word32 × Word32 × Word32 × Word32 :=
  let p0 := 0xD2511F53 * c.1.toNat
  let p1 := 0xCD9E8D57 * c.2.2.1.toNat
  (BitVec.ofNat 32 (p1 / 2 ^ 32) ^^^ c.2.1 ^^^ k0, BitVec.ofNat 32 p1,
   BitVec.ofNat 32 (p0 / 2 ^ 32) ^^^ c.2.2.2 ^^^ k1, BitVec.ofNat 32 p0)

/-- Rounds of Philox with the key raised between rounds. -/
def philoxRounds : Nat → (Word32 × Word32 × Word32 × Word32) → Word32 → Word32 → Word32 × Word32 × Word32 × Word32
  | 0, c, _, _ => c
  | n + 1, c, k0, k1 => philoxRounds n (philoxRound c k0 k1) (k0 + 0x9E3779B9#32) (k1 + 0xBB67AE85#32)

/-- Philox-4x32-10 (R141). -/
def philox (c0 c1 c2 c3 k0 k1 : Word32) : Word32 × Word32 × Word32 × Word32 :=
  philoxRounds 10 (c0, c1, c2, c3) k0 k1

end Sys2Proof.Machine
end

