-- ==== Sys2Proof/Machine/Fp32.lean ====
section
/-! DEFINITION. IEEE 754 binary32 arithmetic of R292 and of the vector engine (R211): every operation rounds once to
nearest with ties to even, honours subnormals and signed zeros, and writes the canonical NaN. -/

namespace Sys2Proof.Machine

/-- The canonical NaN (R75). -/
def f32Nan : Word32 := 0x7FC00000

/-- A signed infinity. -/
def f32Inf (neg : Bool) : Word32 := if neg then 0xFF800000 else 0x7F800000

/-- A signed zero. -/
def f32Zero (neg : Bool) : Word32 := if neg then 0x80000000 else 0

/-- The sign bit. -/
def f32Neg (a : Word32) : Bool := a.msb

/-- The exact value. -/
def f32Dec (a : Word32) : Dec := decodeFmt .fp32 a.toNat 0

/-- The rounded code of m × 2^e, m not zero; an overflow gives an infinity, an underflow a signed zero. -/
def f32Round (m e : Int) : Word32 :=
  let g := fpGrid .fp32 m e 0
  let t := rneToGrid m e g
  if t = 0 then f32Zero (decide (m < 0))
  else if exceedsMax .fp32 t g 0 then f32Inf (decide (m < 0))
  else BitVec.ofNat 32 (encodeElem .fp32 t g 0)

/-- m × 2^e rounded, with the sign of an exact zero given. R292 states the signs of zeros for update arithmetic; for the F32
instructions of the vector engine R211 states none, and the model takes the same (DESIGN CHOICE; log 102). -/
def f32Of (m e : Int) (zneg : Bool) : Word32 := if m = 0 then f32Zero zneg else f32Round m e

/-- The exact sum of two scaled integers. -/
def decSum (a b : Dec) : Dec :=
  if a.e ≤ b.e then { m := a.m + shl b.m (b.e - a.e).toNat, e := a.e }
  else { m := shl a.m (a.e - b.e).toNat + b.m, e := b.e }

/-- fadd of R292. -/
def f32Add (a b : Word32) : Word32 :=
  let x := f32Dec a
  let y := f32Dec b
  match clsJoin x.cls y.cls with
  | .nan => f32Nan
  | .posInf => f32Inf false
  | .negInf => f32Inf true
  | .finite =>
    let s := decSum x y
    f32Of s.m s.e (f32Neg a && f32Neg b)

/-- Sign inversion; a NaN becomes the canonical NaN (R75, R298). -/
def f32Negate (a : Word32) : Word32 := if (f32Dec a).cls = Cls.nan then f32Nan else a ^^^ 0x80000000

/-- fsub of R292. -/
def f32Sub (a b : Word32) : Word32 := f32Add a (f32Negate b)

/-- An operand is a zero of either sign. -/
def decIsZero (x : Dec) : Bool := x.cls == Cls.finite && x.m == 0

/-- fmul of R292. -/
def f32Mul (a b : Word32) : Word32 :=
  let x := f32Dec a
  let y := f32Dec b
  let neg := f32Neg a != f32Neg b
  if x.cls = Cls.nan ∨ y.cls = Cls.nan then f32Nan
  else if x.cls ≠ Cls.finite ∨ y.cls ≠ Cls.finite then
    if decIsZero x || decIsZero y then f32Nan else f32Inf neg
  else f32Of (x.m * y.m) (x.e + y.e) neg

/-- A quotient or root rounded once: q with one sticky bit below it. -/
def f32Sticky (neg : Bool) (q : Nat) (sticky : Bool) (e : Int) : Word32 :=
  let m : Int := Int.ofNat (2 * q + b2n sticky)
  f32Of (if neg then -m else m) (e - 1) neg

/-- fdiv of R292. -/
def f32Div (a b : Word32) : Word32 :=
  let x := f32Dec a
  let y := f32Dec b
  let neg := f32Neg a != f32Neg b
  if x.cls = Cls.nan ∨ y.cls = Cls.nan then f32Nan
  else if x.cls ≠ Cls.finite then (if y.cls ≠ Cls.finite then f32Nan else f32Inf neg)
  else if y.cls ≠ Cls.finite then f32Zero neg
  else if y.m = 0 then (if x.m = 0 then f32Nan else f32Inf neg)
  else if x.m = 0 then f32Zero neg
  else
    let n := x.m.natAbs * 2 ^ 60
    let d := y.m.natAbs
    f32Sticky neg (n / d) (n % d != 0) (x.e - y.e - 60)

/-- fsqrt of R292. -/
def f32Sqrt (a : Word32) : Word32 :=
  let x := f32Dec a
  match x.cls with
  | .nan | .negInf => f32Nan
  | .posInf => f32Inf false
  | .finite =>
    if x.m = 0 then a
    else if x.m < 0 then f32Nan
    else
      let k := if x.e % 2 = 0 then 60 else 61
      let n := x.m.natAbs * 2 ^ k
      let q := isqrt n
      f32Sticky false q (q * q != n) ((x.e - Int.ofNat k) / 2)

/-- a × b + c with one rounding (VFMA of R210). -/
def f32Fma (a b c : Word32) : Word32 :=
  let x := f32Dec a
  let y := f32Dec b
  let z := f32Dec c
  let pneg := f32Neg a != f32Neg b
  if x.cls = Cls.nan ∨ y.cls = Cls.nan ∨ z.cls = Cls.nan then f32Nan
  else if x.cls ≠ Cls.finite ∨ y.cls ≠ Cls.finite then
    if decIsZero x || decIsZero y then f32Nan
    else if z.cls = Cls.finite ∨ f32Neg c = pneg then f32Inf pneg else f32Nan
  else if z.cls ≠ Cls.finite then c
  else
    let p : Dec := { m := x.m * y.m, e := x.e + y.e }
    let s := decSum p z
    f32Of s.m s.e (pneg && f32Neg c)

/-- scale2 of R292: x × 2^k rounded once. -/
def f32Scale (a : Word32) (k : Int) : Word32 :=
  let x := f32Dec a
  match x.cls with
  | .nan => f32Nan
  | .finite => f32Of x.m (x.e + k) (f32Neg a)
  | _ => a

/-- fsign of R292. -/
def f32Sign (a : Word32) : Word32 :=
  let x := f32Dec a
  match x.cls with
  | .nan => f32Nan
  | .posInf => 0x3F800000
  | .negInf => 0xBF800000
  | .finite => if x.m = 0 then 0 else if x.m < 0 then 0xBF800000 else 0x3F800000

/-- Sign clearing; a NaN becomes the canonical NaN. -/
def f32Abs (a : Word32) : Word32 := if (f32Dec a).cls = Cls.nan then f32Nan else a &&& 0x7FFFFFFF

/-- a < b by exact value, for two codes that are no NaN; zeros of either sign are equal. -/
def f32Lt (a b : Word32) : Bool :=
  let x := f32Dec a
  let y := f32Dec b
  match x.cls, y.cls with
  | .nan, _ => false
  | _, .nan => false
  | .finite, .finite => scaledLt x.m x.e y.m y.e
  | .negInf, .negInf => false
  | .negInf, _ => true
  | _, .negInf => false
  | .posInf, _ => false
  | _, .posInf => true

/-- The code is a NaN. -/
def f32IsNan (a : Word32) : Bool := (f32Dec a).cls == Cls.nan

/-- The code is finite. -/
def f32IsFinite (a : Word32) : Bool := (f32Dec a).cls == Cls.finite

/-- Equal by exact value. -/
def f32Eq (a b : Word32) : Bool := !f32IsNan a && !f32IsNan b && !f32Lt a b && !f32Lt b a

end Sys2Proof.Machine
end

