-- ==== Sys2Proof/Machine/Beam.lean ====
section
/-! DEFINITION. Exact accumulation in the beam (R105 to R142, R146): products, groups, terms, elements, and the
numeric part of the readout. -/

namespace Sys2Proof.Machine

/-- The product of two decoded operands (R105). -/
def product (a b : Dec) : Dec :=
  if a.cls = Cls.nan ∨ b.cls = Cls.nan then { cls := .nan }
  else if a.cls ≠ Cls.finite ∨ b.cls ≠ Cls.finite then
    if (a.cls = Cls.finite ∧ a.m = 0) ∨ (b.cls = Cls.finite ∧ b.m = 0) then { cls := .nan }
    else
      let na := a.cls == Cls.negInf || (a.cls == Cls.finite && decide (a.m < 0))
      let nb := b.cls == Cls.negInf || (b.cls == Cls.finite && decide (b.m < 0))
      if na == nb then { cls := .posInf } else { cls := .negInf }
  else { m := a.m * b.m, e := a.e + b.e }

/-- One term of a beam element (R112, R113). -/
structure Term where
  cls : Cls := .finite
  t : Int := 0
  inexact : Bool := false
deriving DecidableEq, Repr

/-- floor(G × 2^e / 2^B) and whether a nonzero bit was dropped (R112). -/
def floorToGrid (g e b : Int) : Int × Bool :=
  if b ≤ e then (shl g (e - b).toNat, false)
  else
    let n := (b - e).toNat
    let t := floorShr g n
    (t, shl t n != g)

/-- The join of a list of classes (R106). -/
def clsJoinAll (l : List Dec) : Cls := l.foldl (fun c d => clsJoin c d.cls) .finite

/-- The least exponent of a list of decoded values. -/
def minExp : List Dec → Int
  | [] => 0
  | [d] => d.e
  | d :: r => let m := minExp r; if d.e < m then d.e else m

/-- The exact sum of finite values on the grid of the least exponent (R109). -/
def sumOn (emin : Int) (l : List Dec) : Int := l.foldl (fun s d => s + shl d.m (d.e - emin).toNat) 0

/-- The term of one group of products at base b (R109, R112). -/
def groupTerm (ps : List Dec) (b : Int) : Term :=
  let c := clsJoinAll ps
  if c ≠ Cls.finite then { cls := c }
  else
    let emin := minExp ps
    let r := floorToGrid (sumOn emin ps) emin b
    { t := r.1, inexact := r.2 }

/-- The term of a preload value (R117). -/
def preloadTerm (v : Dec) (b : Int) : Term :=
  if v.cls ≠ Cls.finite then { cls := v.cls }
  else
    let r := floorToGrid v.m v.e b
    { t := r.1, inexact := r.2 }

/-- One beam element: class, 256-bit content with its 32 carry bits, inexact mark, and whether a term lay outside
the 256-bit range (R100, R114, R118). -/
structure BeamElem where
  cls : Cls := .finite
  sum : BitVec 288 := 0
  inexact : Bool := false
  ovf : Bool := false
deriving DecidableEq, Repr

/-- A term lies outside −2^255 to 2^255 − 1 (R118). -/
def outOf256 (t : Int) : Bool := decide (t < -Int.ofNat (2 ^ 255)) || decide (Int.ofNat (2 ^ 255) ≤ t)

/-- Add one term to an element (R113, R118). -/
def addTerm (el : BeamElem) (t : Term) : BeamElem :=
  { cls := clsJoin el.cls t.cls, sum := el.sum + BitVec.ofInt 288 t.t,
    inexact := el.inexact || t.inexact, ovf := el.ovf || outOf256 t.t }

/-- The overflow condition of an element when the ending command evaluates it (R118). -/
def elemOverflows (el : BeamElem) : Bool := el.cls == Cls.finite && (el.ovf || outOf256 el.sum.toInt)

/-- The 256-bit content that the debug view and WP256 show (R104, R126). -/
def elemContent (el : BeamElem) : BitVec 256 := el.sum.setWidth 256

/-- The clamp of R134 on an exact finite value. -/
def clampExact (v : Dec) (clamp : Option (Dec × Dec)) : Dec :=
  match clamp with
  | none => v
  | some (lo, hi) =>
    if v.cls ≠ Cls.finite then v
    else if scaledLt v.m v.e lo.m lo.e then lo
    else if scaledLt hi.m hi.e v.m v.e then hi
    else v

/-- The exact value of an element after scale and clamp (R133, R134). -/
def epilogueValue (cls : Cls) (m e s : Int) (clamp : Option (Dec × Dec)) : Dec :=
  if cls ≠ Cls.finite then { cls := cls } else clampExact { m := m, e := e + s } clamp

/-- The stochastic word of an element: linear index, tensor identifier, step and seeds (R139). -/
def srWord (lin : Nat) (tid : Nat) (step : Nat) (seedLo seedHi : Word32) : Nat :=
  (philox (BitVec.ofNat 32 lin) (BitVec.ofNat 32 (lin / 2 ^ 32)) (BitVec.ofNat 32 tid) (BitVec.ofNat 32 step)
    seedLo seedHi).1.toNat

end Sys2Proof.Machine
end

