-- ==== Sys2Proof/Config.lean ====
section
/-! DEFINITION. What the manual leaves open. Each constant is opaque: nothing in Lean can evaluate it or prove
a value of it, so a claim about the model holds whatever the hardware does there. Each has a log entry. -/

namespace Sys2Proof.Config

/-- A fresh free value for each index of the model's own counter (log 1). -/
opaque freeWord : Nat → Word64

/-- The byte at an address whose content a STEP_ABORT left unspecified, by the abort's free index (R399; log 20). -/
opaque freeByte : Nat → Nat → Byte

/-- The 64-bit digest of operand bytes in a replay log; R122 names it and gives no function (log 10). -/
opaque operandDigest : List Byte → Word64

/-- Whether a firmware signature verifies under the key of the given index (R583); the keys are not in the manual (log 11). -/
opaque signatureValid : Nat → List Byte → List Byte → Bool

/-- The 384-byte signature of an attestation report by the identity key (R608, R610; log 12). -/
opaque reportSignature : List Byte → List Byte

/-- The DER encoding of the identity public key (R608, R610; log 12). -/
opaque identityKey : List Byte

/-- The device certificate, a record in MRAM of at most 2,048 bytes (R608; log 12). -/
opaque deviceCertificate : List Byte

/-- The boot ROM whose digest boot measures (R588; log 12). -/
opaque romImage : List Byte

/-- A vector index of 2^31 or more, whose sign R210 does not state (log 13). -/
opaque laneIndex : Word32 → Int

/-- Whether VMIN (false) or VMAX (true) of two zeros of unlike sign is the negative one, which R210 and R211 do not state
(log 14). -/
opaque vecZeroNegative : Bool → Word32 → Word32 → Bool

/-- The next instruction index after a jump or a fall to an index outside the program memory (R206, R210; log 15). -/
opaque vecIndex : Int → Nat

/-- The twin-link port that carries a packet, chosen by the device among the ports that are UP (R322; log 16). -/
opaque twinPort : Nat → Nat → Nat

/-- Whether type codes 0x01 and 0x02 of VCVT name the formats INT8 and UINT8 rather than the types U32 and F32 (R99,
R209; log 17). -/
opaque convertNamesFormat : Bool

/-- The factory image of a type: header and body of a firmware image (R592; log 18). -/
opaque factoryImage : Nat → List Byte

/-- The version of the records of a type that a staged firmware image, given by header and body, keeps (R605, R606; log 116). -/
opaque recordVersion : List Byte → Nat → Byte

/-- The boot ROM version (R588, R618; log 12). -/
opaque romVersion : BitVec 16

/-- The service creel flags of a CREEL_STATUS frame, whose bit places R422 does not give, from FULL and OVERRUN
(log 21). -/
opaque serviceFlags : Bool → Bool → Word64

/-- The SMB_ADDR1 and SMB_ADDR0 straps, which the integrator ties (R647; log 22). -/
opaque smbStraps : BitVec 2

end Sys2Proof.Config
end

