-- ==== Sys2Proof/Machine/Guarded.lean ====
section
/-! DEFINITION. Guarded accumulation (R149 to R159, R171): narrow values, their normalization, alignment and
addition, group values and the fold of lanes. -/

namespace Sys2Proof.Machine

/-- A narrow value: class, 48-bit significand A, exponent X, inexact mark (R151). -/
structure Narrow where
  cls : Cls := .finite
  a : Int := 0
  x : Int := 0
  inx : Bool := false
deriving DecidableEq, Repr

/-- Tile shape and lane count of a shape code (R149). -/
def shapeOf : Nat → Option (Nat × Nat × Nat)
  | 0 => some (64, 64, 1)
  | 1 => some (32, 64, 2)
  | 2 => some (64, 32, 2)
  | 3 => some (16, 64, 4)
  | 4 => some (32, 32, 4)
  | 5 => some (64, 16, 4)
  | 6 => some (8, 64, 8)
  | 7 => some (16, 32, 8)
  | 8 => some (32, 16, 8)
  | 9 => some (64, 8, 8)
  | _ => none

/-- normalize of R153: significand, exponent, whether bits were dropped. -/
def normalizeNarrow (s g : Int) : Int × Int × Bool :=
  if s = 0 then (0, 0, false)
  else
    let k := Nat.log2 s.natAbs
    let x := g + Int.ofNat k - 46
    if k ≤ 46 then (shl s (46 - k), x, false)
    else
      let a := floorShr s (k - 46)
      (a, x, shl a (k - 46) != s)

/-- align of R154. -/
def alignNarrow (m e g : Int) : Int × Bool := floorToGrid m e g

/-- The top of a list of values: the largest floor_log2 plus exponent of the nonzero ones. -/
def topOf (l : List Dec) : Option Int := blockTop l

/-- The group value of R155. -/
def groupNarrow (ps : List Dec) : Narrow :=
  let c := clsJoinAll ps
  if c ≠ Cls.finite then { cls := c }
  else
    match topOf ps with
    | none => {}
    | some t =>
      let al := ps.map (fun p => alignNarrow p.m p.e (t - 50))
      let s := al.foldl (fun acc p => acc + p.1) 0
      let d := al.any (fun p => p.2)
      let r := normalizeNarrow s (t - 50)
      { a := r.1, x := r.2.1, inx := r.2.2 || d }

/-- The narrow addition of R156. -/
def narrowAdd (x y : Narrow) : Narrow :=
  let c := clsJoin x.cls y.cls
  let inx := x.inx || y.inx
  if c ≠ Cls.finite then { cls := c, inx := inx }
  else if x.a = 0 then { a := y.a, x := y.x, inx := inx }
  else if y.a = 0 then { a := x.a, x := x.x, inx := inx }
  else
    let tx := flog x.a + x.x
    let ty := flog y.a + y.x
    let top := if tx < ty then ty else tx
    let p := alignNarrow x.a x.x (top - 50)
    let q := alignNarrow y.a y.x (top - 50)
    let r := normalizeNarrow (p.1 + q.1) (top - 50)
    { a := r.1, x := r.2.1, inx := inx || p.2 || q.2 || r.2.2 }

/-- The preload value of lane 0 (R157). -/
def preloadNarrow (v : Dec) : Narrow :=
  if v.cls ≠ Cls.finite then { cls := v.cls }
  else
    let r := normalizeNarrow v.m v.e
    { a := r.1, x := r.2.1, inx := r.2.2 }

/-- One level of the fold: neighbours add (R159). -/
def foldPairs : List Narrow → List Narrow
  | x :: y :: r => narrowAdd x y :: foldPairs r
  | l => l

/-- The fold of 1, 2, 4 or 8 lanes into one value (R159). -/
def foldLanes (l : List Narrow) : Narrow := (foldPairs (foldPairs (foldPairs l))).headD {}

/-- The 8 bytes of a narrow element in the debug view (R151). -/
def narrowWord (n : Narrow) : Nat :=
  clsCode n.cls * 2 ^ 62 + b2n n.inx * 2 ^ 61 + lowBits n.x 12 * 2 ^ 48 + lowBits n.a 48

end Sys2Proof.Machine
end

