-- ==== Sys2Proof/Machine/Map.lean ====
section
/-! DEFINITION. Sparse data by a natural-number key, in one canonical form: keys strictly rising, and no entry
equal to what an unlisted key reads as. Equal maps are equal lists. -/

namespace Sys2Proof.Machine

/-- Sparse data: what an unlisted key reads as is the caller's default. -/
abbrev SMap (α : Type) := List (Nat × α)

/-- The entry of a key, or the default. -/
def mapGet {α : Type} (d : α) : SMap α → Nat → α
  | [], _ => d
  | (k, v) :: r, x => if x = k then v else mapGet d r x

/-- The entry of a key, where it is listed. -/
def mapFind {α : Type} : SMap α → Nat → Option α
  | [], _ => none
  | (k, v) :: r, x => if x = k then some v else mapFind r x

/-- Insert or replace one entry, keys kept rising. -/
def mapPut {α : Type} : SMap α → Nat → α → SMap α
  | [], x, v => [(x, v)]
  | (k, u) :: r, x, v =>
    if x < k then (x, v) :: (k, u) :: r
    else if x = k then (x, v) :: r
    else (k, u) :: mapPut r x v

/-- Remove one entry. -/
def mapDel {α : Type} (m : SMap α) (x : Nat) : SMap α := m.filter (fun p => p.1 != x)

/-- Write one entry; writing the default removes it. -/
def mapSet {α : Type} [DecidableEq α] (d : α) (m : SMap α) (x : Nat) (v : α) : SMap α :=
  if v = d then mapDel m x else mapPut m x v

/-- Change one entry by a function. -/
def mapMod {α : Type} [DecidableEq α] (d : α) (m : SMap α) (x : Nat) (f : α → α) : SMap α :=
  mapSet d m x (f (mapGet d m x))

/-- Every key of the map is above the bound and keys rise strictly. -/
def mapAbove {α : Type} : Nat → SMap α → Bool
  | _, [] => true
  | b, (k, _) :: r => Nat.blt b k && mapAbove k r

/-- Keys rise strictly. -/
def mapRising {α : Type} : SMap α → Bool
  | [] => true
  | (k, _) :: r => mapAbove k r

/-- No entry equals the default. -/
def mapNoDefault {α : Type} [DecidableEq α] (d : α) (m : SMap α) : Bool := m.all (fun p => decide (p.2 ≠ d))

/-- The canonical form. -/
def mapWf {α : Type} [DecidableEq α] (d : α) (m : SMap α) : Bool := mapRising m && mapNoDefault d m

/-- Membership and change of a set of numbers, kept as a rising list. -/
def setHas (s : List Nat) (x : Nat) : Bool := s.elem x

/-- Add a number to a rising list. -/
def setAdd : List Nat → Nat → List Nat
  | [], x => [x]
  | k :: r, x => if x < k then x :: k :: r else if x = k then k :: r else k :: setAdd r x

/-- Remove a number. -/
def setDel (s : List Nat) (x : Nat) : List Nat := s.filter (fun k => k != x)

end Sys2Proof.Machine
end

