-- ==== Sys2Proof/Machine/State.lean ====
section
/-! DEFINITION. The state of the block: everything the manual gives it, as plain data. INVENTORY.md lists each piece
with its rule and its value at reset. -/

namespace Sys2Proof.Machine

/-- The status codes of R457. -/
inductive Status where
  | ok | tileReplayed | bucketTwinTaken | bucketResent | bucketNonfinite | updNonfinite | lockBroken
  | headerCrc | packetFraming | versionMismatch | opcodeReserved | reservedNonzero | encodingReserved
  | paramLength | paramRange | addrRange | formatPair | portScope | regUnknown | lockHeld | lockNotOwner
  | accBusy | accNotOpen | accFailed | accLane | accMode | accTermLimit | remoteUnreachable
  | microEmpty | microInvalid | stateMap | routePeer | routeBusy | routeEmpty | bucketTagUsed
  | bucketTableFull | collBusy | stepMismatch | stepSealed | stepState | undoUnavailable | twinUnset
  | twinLink | weaveBusy | shadowMode | unitBusy | fuseSequence | debugClosed | traceBusy | ckptState
  | hsTakeover | memUncorrectable | wideMalformed | baseMismatch | replayOperandChanged | accOverflow
  | vecFault | retrainFailed | stateFaceWrite | indexRange | bucketOverflow | linkDown | weaveFailed
  | unitResetFailed | ckptCancelled | stepAborted | prepareDirty | bucketMismatch | bucketTwinDiff
  | unitFailed | thermalTrip
deriving DecidableEq, Repr

/-- The numeric value of a status (R457). -/
def statusCode : Status → Nat
  | .ok => 0x0000 | .tileReplayed => 0x0001 | .bucketTwinTaken => 0x0002 | .bucketResent => 0x0003
  | .bucketNonfinite => 0x0004 | .updNonfinite => 0x0005 | .lockBroken => 0x0006
  | .headerCrc => 0x0100 | .packetFraming => 0x0101 | .versionMismatch => 0x0102 | .opcodeReserved => 0x0103
  | .reservedNonzero => 0x0104 | .encodingReserved => 0x0105 | .paramLength => 0x0106 | .paramRange => 0x0107
  | .addrRange => 0x0108 | .formatPair => 0x0109 | .portScope => 0x010A | .regUnknown => 0x010B
  | .lockHeld => 0x010C | .lockNotOwner => 0x010D | .accBusy => 0x0110 | .accNotOpen => 0x0111
  | .accFailed => 0x0112 | .accLane => 0x0113 | .accMode => 0x0114 | .accTermLimit => 0x0115
  | .remoteUnreachable => 0x0118 | .microEmpty => 0x0120 | .microInvalid => 0x0121 | .stateMap => 0x0122
  | .routePeer => 0x0128 | .routeBusy => 0x0129 | .routeEmpty => 0x012A | .bucketTagUsed => 0x012B
  | .bucketTableFull => 0x012C | .collBusy => 0x012D | .stepMismatch => 0x0130 | .stepSealed => 0x0131
  | .stepState => 0x0132 | .undoUnavailable => 0x0133 | .twinUnset => 0x0134 | .twinLink => 0x0135
  | .weaveBusy => 0x0136 | .shadowMode => 0x0137 | .unitBusy => 0x0140 | .fuseSequence => 0x0141
  | .debugClosed => 0x0142 | .traceBusy => 0x0143 | .ckptState => 0x0144
  | .hsTakeover => 0x0200 | .memUncorrectable => 0x0201 | .wideMalformed => 0x0202 | .baseMismatch => 0x0203
  | .replayOperandChanged => 0x0204 | .accOverflow => 0x0205 | .vecFault => 0x0206 | .retrainFailed => 0x0207
  | .stateFaceWrite => 0x0208 | .indexRange => 0x0209 | .bucketOverflow => 0x020A | .linkDown => 0x020B
  | .weaveFailed => 0x020C | .unitResetFailed => 0x020D | .ckptCancelled => 0x020E
  | .stepAborted => 0x0300 | .prepareDirty => 0x0301 | .bucketMismatch => 0x0302 | .bucketTwinDiff => 0x0303
  | .unitFailed => 0x0400 | .thermalTrip => 0x0401

/-- A stamp: pick, subpick and saturation flag (R483). -/
structure Stamp where
  pick : Nat := 0
  sub : Nat := 0
  sat : Bool := false
deriving DecidableEq, Repr

/-- How far a command has come: read and forwarded, taken up by its unit, or finished with its status and results
and waiting for its turn to complete (R446, R498). -/
inductive Phase where
  | forwarded
  | running
  | done (st : Status) (res : List Word64)
deriving DecidableEq, Repr

/-- One readout's or update's contribution to a census slot, added when its command completes (R307). -/
structure CensusDelta where
  slot : Nat
  die : Nat
  elements : Nat
  zero : Nat
  nonfinite : Nat
  sat : Nat
  vanished : Nat
  underflow : Nat
  exps : List Int
deriving DecidableEq, Repr

/-- A readout's contribution to a watch slot (R568, R569). -/
structure WatchDelta where
  tid : Nat
  die : Nat
  elements : Nat
  zero : Nat
  nonfinite : Nat
  exps : List Int
  digest : Word64
deriving DecidableEq, Repr

/-- A bucket record (R358, R367): kind 0 BKT_REDUCE, 1 BKT_GATHER; flags as the record's FLAGS byte. -/
structure BucketRec where
  tag : Nat
  kind : Nat
  exp : Int := 0
  resends : Nat := 0
  flags : BitVec 8 := 0
  dSent : Word64 := 0
  dRecv : Word64 := 0
  step : Nat := 0
  taken : Nat := 0
deriving DecidableEq, Repr

/-- A command read and not completed (R445, R449, R498): its packet, the creel, lane and creel words it came from, how
far it is, the cover of a FENCE (R503), whether it has arrived at its unit and waits there (R36), whether it is a shadow
command (R408), whether STEP_PREPARE found it standing (R379), whether a STEP_ABORT or ABORT_PENDING ended it (R402), the bytes it wrote through back ranges (R278), whether it met a poisoned granule with a
partial write (R228), the ending command that an ACC_DISCARD waits for (R201), the ranges (face, back, length) whose copies
it keeps swapped since a STATE_SET freed their entry (R282), and what it adds when it completes (R307, R358, R568). -/
structure Cmd where
  id : Nat
  op : Nat
  pkt : Packet
  creel : Nat
  lane : Nat
  words : Nat := 1
  phase : Phase := .forwarded
  cover : List Nat := []
  coverLanes : SMap Nat := []
  coverCount : Nat := 0
  delivered : Bool := false
  shadow : Bool := false
  covered : Bool := false
  exempt : Bool := false
  partialPoison : Bool := false
  behind : Option Nat := none
  wrote : SMap Byte := []
  kept : List (Nat × Nat × Nat) := []
  census : List CensusDelta := []
  watch : List WatchDelta := []
  record : Option BucketRec := none
deriving DecidableEq, Repr

/-- One lane of a creel: creel words with their end marks, oldest first; flags; stall timer; the completion stamp of
the lane's last completed command (R438 to R447, R473, R474, R498). -/
structure Lane where
  queue : List (BitVec 512 × Bool) := []
  overrun : Bool := false
  stalled : Bool := false
  stallTime : BitVec 32 := 0x3E8
  timerStart : Nat := 0
  last : Stamp := {}
deriving DecidableEq, Repr

/-- A frame sent: port and header fields; its CRC is a function of them (R421). -/
structure TxFrame where
  port : Port
  typ : Nat
  seq : Nat
  ack : Nat
  payload : List Byte
deriving DecidableEq, Repr

/-- A reply or notice held for sending (R450, R455). -/
structure HeldItem where
  isNotice : Bool
  bytes : List Byte
  tb : Nat
deriving DecidableEq, Repr

/-- The state of a session (R469). -/
inductive SessState where
  | none | open | lapsed
deriving DecidableEq, Repr

/-- A session of the treadle ports or of the service port (R420 to R430, R597). forced: the SESSION_OPEN that ends it;
deferred: further opens that wait for that one; closing: it ends by SESSION_CLOSE; discarded: packets it lost. -/
structure Session where
  state : SessState := .none
  id : Word64 := 0
  version : Nat := 0
  port : Port := .ta
  rxSeq : Nat := 0
  txSeq : Nat := 0
  unacked : List TxFrame := []
  held : List HeldItem := []
  lastRx : Nat := 0
  forced : Option (Word64 × Port) := none
  closing : Bool := false
  discarded : Nat := 0
  deferred : List (Word64 × Port) := []
  wire : List TxFrame := []
deriving DecidableEq, Repr

/-- The state of a lock (R463, R467). -/
inductive LockState where
  | free | held | broken
deriving DecidableEq, Repr

/-- A lock (R463, R467, R468). -/
structure Lock where
  state : LockState := .free
  owner : Nat := 0
  cause : Nat := 0
  expires : Nat := 0
deriving DecidableEq, Repr

/-- A scheduled advance of the pick count (R479 to R481, R491). -/
structure Advance where
  target : Nat
  apply : Nat
  arrival : Nat
  pin : Bool := false
  load : Bool := false
deriving DecidableEq, Repr

/-- An applied advance whose echo is due (R494). -/
structure Echo where
  pick : Nat
  pin : Bool
  jump : Bool
  load : Bool
  arrival : Nat
  apply : Nat
deriving DecidableEq, Repr

/-- Time base, pick count and what schedules its advances (R475 to R497). -/
structure TimeSt where
  timeBase : Nat := 0
  pick : Nat := 0
  pickTb : Nat := 0
  sched : List Advance := []
  source : BitVec 2 := 0
  applyDelay : BitVec 12 := 0x190
  echoEvery : BitVec 32 := 0
  pinTarget : Nat := 1
  lastEdge : Option Nat := none
  lastApply : Option Nat := none
  bad : Nat := 0
  pinMismatch : Nat := 0
  stale : Nat := 0
  missed : Nat := 0
  staleTotal : Nat := 0
  echoes : List Echo := []
deriving DecidableEq, Repr

/-- Creels: session settings, drop counts, modes, lanes (key 8 × creel + lane, the service creel being creel 64),
the creel served last at each lane level, and the time of the last CREEL_STATUS (R438 to R474). -/
structure CreelSt where
  timeoutMs : BitVec 16 := 0x3E8
  flushUs : BitVec 8 := 1
  incomplete : Nat := 0
  badFrame : Nat := 0
  standbyPort : Nat := 0
  noSession : Nat := 0
  mode : List Nat := []
  lanes : SMap Lane := []
  rr : SMap Nat := []
  statusDue : Bool := false
  lastStatus : Nat := 0
  lastTa : Nat := 0
  lastTb : Nat := 0
  lastSvc : Nat := 0
deriving DecidableEq, Repr

/-- Commands read and not completed; the command that holds the reading of every creel (R392, R504); the HS_HANDOVER in
progress, with the time base of its acceptance (R603). -/
structure CmdSt where
  cmds : List Cmd := []
  nextId : Nat := 0
  commitWait : Option Nat := none
  handover : Option (Nat × Nat) := none
deriving DecidableEq, Repr

/-- The standby headstock's state (R58). -/
inductive Standby where
  | absent | booting | ready | reset
deriving DecidableEq, Repr

/-- The headstock pair (R47 to R54, R58). -/
structure HsSt where
  active : Nat := 0
  standby : Standby := .booting
  takeovers : Nat := 0
  takeoverEvent : Bool := false
  activeFaulted : Bool := false
  silent : Bool := false
deriving DecidableEq, Repr

/-- Memory registers of one loom die and its stack (R229, R264 to R267). -/
structure MemDie where
  corr : Nat := 0
  uncorr : Nat := 0
  errValid : Bool := false
  errOverrun : Bool := false
  errGranule : Nat := 0
  errSource : Nat := 0
  scrubEn : Bool := true
  scrubPeriod : BitVec 16 := 0xC
  scrubNext : Nat := 0
  defaultKib : BitVec 16 := 0x100
  runaheadEn : Bool := true
deriving DecidableEq, Repr

/-- A write that has reached its channel and is not complete: its granule and the holders still to acknowledge a kill
(R231, R240). -/
structure PendingWrite where
  granule : Nat
  kills : List Nat
deriving DecidableEq, Repr

/-- A channel in retraining (R253, R254). -/
structure Retrain where
  cmd : Nat
  stack : Nat
  channel : Nat
  start : Nat
deriving DecidableEq, Repr

/-- A MEM_COPY to another device that waits for that device's reports: writes not yet reported, and the status it ends
with unless a write is refused (R228, R261). -/
structure RemoteCopy where
  cmd : Nat
  device : Nat
  port : Nat
  left : Nat := 1
  st : Status := .ok
deriving DecidableEq, Repr

/-- Memory: bytes of bonded DRAM and shuttle stores by address, poisoned granules of bonded DRAM (granule number) and
marked 8-byte words of shuttle stores (word number), registers, writes and retraining (R221 to R267, R507, R656).
unspec: ranges (first, length, free index) whose content a STEP_ABORT left unspecified: a byte there that nothing has
written since is a free value (R399). -/
structure MemSt where
  cells : SMap Byte := []
  unspec : List (Nat × Nat × Nat) := []
  poison : List Nat := []
  badWords : List Nat := []
  dies : SMap MemDie := []
  writes : List PendingWrite := []
  retrain : Option Retrain := none
  remote : List RemoteCopy := []
deriving DecidableEq, Repr

/-- One requester waiting at a resource: index, base priority, age, the time it began to wait, beats still due
(R248 to R250). -/
structure Requester where
  index : Nat
  base : Nat
  age : Nat := 0
  since : Nat
  beats : Nat := 1
deriving DecidableEq, Repr

/-- An arbiter: requesters waiting, the grant in progress with its frozen priority, and an idle beat after a
withdrawal (R249, R250). -/
structure Arbiter where
  waiting : List Requester := []
  grant : Option (Requester × Nat) := none
  idle : Bool := false
deriving DecidableEq, Repr

/-- A request slot in use: the thread and the physical granules of its request (R244). -/
structure Slot where
  thread : Nat
  granules : List Nat
deriving DecidableEq, Repr

/-- An engine's threads and request slots: the current thread, the slots in use, the threads whose request is not issued
(R213, R244 to R246). -/
structure Engine where
  current : Nat := 0
  slots : List Slot := []
  unissued : List Nat := []
deriving DecidableEq, Repr

/-- A run-ahead copy of a granule, whether its data has arrived (R238 to R243). -/
structure Copy where
  granule : Nat
  poisoned : Bool := false
  arrived : Bool := false
deriving DecidableEq, Repr

/-- A shuttle's yarn engine: the running YARN_LOAD, the units it has consumed, the lane key of its latest load, and the
run-ahead copies it holds, by physical granule (R238, R239). -/
structure YarnSt where
  cmd : Option Nat := none
  pos : Nat := 0
  lane : Nat := 0
  copies : List Copy := []
deriving DecidableEq, Repr

/-- Where an accumulation stands: closed, open, or with its ending command accepted (R101, R201). -/
inductive TileStatus where
  | closed
  | opened
  | ending (cmd : Nat)
deriving DecidableEq, Repr

/-- An entry of the replay log: the preload or one ACC_MATMUL, its parameters, and the digest of its operand bytes
(R122). -/
structure LogEntry where
  isPreload : Bool
  params : List Word64
  digest : Word64
deriving DecidableEq, Repr

/-- An exact accumulation (R101, R111, R114, R119, R122, R130, R131). inexact and nonfinite: a term since ACC_BEGIN dropped
bits, or made an element's class other than FINITE; only ACC_BEGIN clears them (R130). -/
structure ExactTile where
  status : TileStatus := .closed
  failed : Bool := false
  step : Nat := 0
  m : Nat := 0
  n : Nat := 0
  base : Int := 0
  replays : Nat := 0
  terms : Nat := 0
  groups : Nat := 0
  kSum : Nat := 0
  log : List LogEntry := []
  entries : Nat := 0
  noReplay : Bool := false
  ovf : Bool := false
  inexact : Bool := false
  nonfinite : Bool := false
  top : Option Int := none
  elems : List BeamElem := []
deriving DecidableEq, Repr

/-- A guarded accumulation on a narrow tile; slot k = l × M × N + N × i + j holds lane l of element (i, j)
(R147 to R165). -/
structure NarrowTile where
  status : TileStatus := .closed
  failed : Bool := false
  step : Nat := 0
  shape : Nat := 0
  creel : Nat := 0
  lane : Nat := 0
  terms : Nat := 0
  groups : Nat := 0
  kSum : Nat := 0
  marked : Bool := false
  nonfinite : Bool := false
  slots : List Narrow := []
deriving DecidableEq, Repr

/-- A tile position (R100, R148, R170). -/
structure TilePos where
  guarded : Bool := false
  exact : ExactTile := {}
  narrow : List NarrowTile := [{}, {}, {}, {}]
deriving DecidableEq, Repr

/-- Accumulator files (key 8 × shuttle + tile position) and the registers of R143 and R144. -/
structure AccSt where
  tiles : SMap TilePos := []
  srThreshold : Word32 := 0x10000
  srSeedLo : Word32 := 0
  srSeedHi : Word32 := 0
deriving DecidableEq, Repr

/-- The type last written into a vector register (R209). -/
inductive VTy where
  | i32 | u32 | f32
deriving DecidableEq, Repr

/-- A vector register: 64 lanes, the type last written, and a class and an inexact mark for each group of 8 lanes
(R209, R212). -/
structure VReg where
  lanes : List Word32 := List.replicate 64 0
  ty : VTy := .i32
  wide : List (Cls × Bool) := List.replicate 8 (Cls.finite, false)
deriving DecidableEq, Repr

/-- Whether a thread can run. -/
inductive ThreadStatus where
  | ready | atBarrier | ended
deriving DecidableEq, Repr

/-- A hardware thread of a vector run (R207, R209). -/
structure VThread where
  v : List VReg := List.replicate 16 {}
  s : List Word64 := List.replicate 16 0
  m : List Word64 := List.replicate 4 0
  pc : Nat := 0
  status : ThreadStatus := .ready
  count : Nat := 0
deriving DecidableEq, Repr

/-- A running VEC_RUN on a shuttle. -/
structure VecRun where
  cmd : Option Nat := none
  limit : Nat := 0
  threads : List VThread := []
deriving DecidableEq, Repr

/-- Program memories (key 2048 × shuttle + index) and runs by shuttle (R206, R207). -/
structure VecSt where
  prog : SMap Word64 := []
  runs : SMap VecRun := []
deriving DecidableEq, Repr

/-- A microprogram update in progress on a die: the command, the element, the registers, the position, and the counts
of R291 (R298). -/
structure MicroRun where
  cmd : Option Nat := none
  elem : Nat := 0
  pos : Nat := 0
  f : List Word32 := List.replicate 32 0
  ls : BitVec 8 := 0
  nonfinite : Nat := 0
  sat : Nat := 0
  zero : Nat := 0
  nonfin : Nat := 0
  underflow : Nat := 0
  exps : List Int := []
  writing : Bool := false
deriving DecidableEq, Repr

/-- Update registers and microprograms (R297, R298, R302, R314). -/
structure UpdSt where
  lossScale : BitVec 8 := 0
  slots : SMap (List Word32) := []
  runs : SMap MicroRun := []
deriving DecidableEq, Repr

/-- The state of a state-map entry (R274). -/
inductive EntryState where
  | free | loading | active
deriving DecidableEq, Repr

/-- An entry of the state map (R274). -/
structure Entry where
  state : EntryState := .free
  face : Nat := 0
  back : Nat := 0
  length : Nat := 0
  kind : Nat := 0
  sel : Bool := false
  backWritten : Bool := false
  digest : Word64 := 0
deriving DecidableEq, Repr

/-- The state map (R274, R315). view: ranges (face, back, length) whose copies the command at work in this step still sees
swapped, since it began before a STATE_SET freed their entry; empty between steps (R282). -/
structure MapSt where
  entries : SMap Entry := []
  flips : Nat := 0
  view : List (Nat × Nat × Nat) := []
deriving DecidableEq, Repr

/-- One die's part of a census slot (R306, R309). -/
structure CensusPart where
  elements : Nat := 0
  zero : Nat := 0
  nonfinite : Nat := 0
  sat : Nat := 0
  vanished : Nat := 0
  underflow : Nat := 0
  emax : Int := 0
  emin : Int := 0
  expValid : Bool := false
  bins : SMap Nat := []
deriving DecidableEq, Repr

/-- A census slot's settings (R306, R312). -/
structure CensusCtl where
  histLo : Int := 0
  alert : Bool := false
deriving DecidableEq, Repr

/-- The census: parts by 1024 × die + slot, settings by slot. -/
structure CensusSt where
  parts : SMap CensusPart := []
  ctl : SMap CensusCtl := []
deriving DecidableEq, Repr

/-- A packet in a port's retry buffer: its link sequence number, the packet, and how often the peer has refused it (R319,
R320). -/
structure Unacked where
  seq : Nat
  msg : WarpMsg
  refused : Nat := 0
deriving DecidableEq, Repr

/-- A warp port (R319 to R323, R370, R371). retry: packets sent and not acknowledged; undelivered: packets queued while
the port is not UP; wasUp: it has been UP or in FAULT since it last entered TRAINING (R580). -/
structure PortSt where
  state : Nat := 0
  peerDevice : Nat := 0
  peerPort : Nat := 0
  peerValid : Bool := false
  peerTwin : Option (Nat × Nat) := none
  lanesOk : BitVec 8 := 0
  wasUp : Bool := false
  faultEvent : Bool := false
  badHdr : Nat := 0
  retries : Nat := 0
  corrCw : Nat := 0
  txSeq : Nat := 0
  rxSeq : Nat := 0
  retry : List Unacked := []
  undelivered : List WarpMsg := []
  answers : List (Nat × Bool) := []
  out : List WarpMsg := []
  nextLane : Nat := 0
  lastEq : Nat := 0
deriving DecidableEq, Repr

/-- A warp link die in reset: its LINK_RESET, the die, and the time of the reset (R368). -/
structure LinkResetSt where
  cmd : Nat
  die : Nat
  start : Nat
deriving DecidableEq, Repr

/-- Warp ports and link die reset. -/
structure LinkSt where
  ports : SMap PortSt := []
  reset : Option LinkResetSt := none
deriving DecidableEq, Repr

/-- A loaded route (R325, R363): member list (device A, device B), strands (out port, in port). -/
structure Route where
  loaded : Bool := false
  p : Nat := 0
  selfPos : Nat := 0
  sideB : Bool := false
  split : Bool := false
  members : List (Nat × Nat) := []
  strands : List (Nat × Nat) := []
deriving DecidableEq, Repr

/-- A bucket command of the open step (R335 to R353). handled: packets dealt with in this generation, by shard and
first element, with the FLAGS of the result; ownHalf and twinHalf: half-sums of mode SPLIT not yet joined, by first
element; joined: the packets of the own shard that both have entered; asked: packets asked of the twin; used: those
whose copy was used and whose original has not arrived; refusedCopy: those the twin cannot supply; finished: the
command has its status; failed: with no result. -/
structure Bucket where
  cmd : Nat
  cmdTag : Nat := 0
  tag : Nat
  gather : Bool := false
  shadow : Bool := false
  step : Nat := 0
  route : Nat := 0
  count : Nat := 0
  esize : Nat := 8
  src : Nat := 0
  stage : Nat := 0
  relay : Nat := 0
  dst : Nat := 0
  fp32 : Bool := true
  die : Nat := 0
  slot : Nat := 0
  exp : Int := 0
  gen : Nat := 0
  converted : Bool := false
  ownFlags : BitVec 8 := 0
  shardFlags : BitVec 8 := 0
  handled : List (Nat × Nat × BitVec 8) := []
  ownHalf : List (Nat × List Nat × BitVec 8) := []
  twinHalf : List (Nat × List Nat × BitVec 8) := []
  joined : List Nat := []
  asked : List (Nat × Nat) := []
  used : List (Nat × Nat) := []
  refusedCopy : List (Nat × Nat) := []
  window : Option Nat := none
  latePicks : Nat := 0
  taken : Nat := 0
  resends : Nat := 0
  sat : Nat := 0
  finished : Bool := false
  failed : Bool := false
deriving DecidableEq, Repr

/-- The fields of a bucket header (R331). -/
structure BucketHdr where
  flags : BitVec 8
  tag : Nat
  step : Nat
  exp : Int
  gen : Nat
  route : Nat
  strand : Nat
  shard : Nat
  srcPos : Nat
  first : Nat
  elems : Nat
deriving DecidableEq, Repr

/-- A packet held under flow control: the port, the header, the payload, and the pick of its arrival (R338, R347). -/
structure HeldPartial where
  port : Nat
  hdr : BucketHdr
  payload : List Byte
  pick : Nat
deriving DecidableEq, Repr

/-- Collectives: COLL registers, forwarding table, routes, buckets, holding buffers, packets that stand at stalled ports,
copy requests of the twin not yet answered, tags and records (R323 to R375). -/
structure CollSt where
  selfDev : BitVec 10 := 0
  selfValid : Bool := false
  latePicks : Word32 := 0x3E8
  keyLo : Word32 := 0
  keyHi : Word32 := 0
  twinDiff : Nat := 0
  lateCompared : Nat := 0
  twinTaken : Nat := 0
  resends : Nat := 0
  fwd : SMap Nat := []
  routes : SMap Route := []
  buckets : List Bucket := []
  holding : List HeldPartial := []
  stalled : List HeldPartial := []
  requests : List BucketHdr := []
  tags : List Nat := []
  shadowTags : List Nat := []
  recsOpen : List BucketRec := []
  recsLast : List BucketRec := []
  recsShadow : List BucketRec := []
deriving DecidableEq, Repr

/-- The step state (R381). -/
inductive StepState where
  | idle | opened | sealed | prepared
deriving DecidableEq, Repr

/-- The mode named by TWIN_SET (R405). -/
inductive TwinMode where
  | none | mirror | split
deriving DecidableEq, Repr

/-- A prepare in progress: its command and, once taken, its digests (R386). -/
structure Prep where
  cmd : Nat
  digested : Bool := false
  sd : Word64 := 0
  cd : Word64 := 0
  st : Word64 := 0
deriving DecidableEq, Repr

/-- A weave in progress (R410 to R412): sender or receiver, its command, bytes moved, the entries, and the content digests
that stand. At the receiver: whether the announcement of the entries has come, packets that came before it, content bytes
received and digests announced by entry. -/
structure Weave where
  cmd : Nat
  sender : Bool
  last : Nat := 0
  entries : List Nat := []
  digests : List (Nat × Word64) := []
  moved : Nat := 0
  started : Bool := false
  early : List WarpMsg := []
  got : SMap Nat := []
  announced : List (Nat × Word64) := []
deriving DecidableEq, Repr

/-- A checkpoint stream in progress (R526, R528): its command, direction, port, entry, offset and length, LAST_COMMIT at
its start, the device number then, the bytes moved and the digest of what moved. -/
structure Ckpt where
  cmd : Nat
  inward : Bool
  port : Nat
  entry : Nat
  offset : Nat
  length : Nat
  step : Nat
  device : Nat
  moved : Nat := 0
  digest : Word64 := 0
deriving DecidableEq, Repr

/-- Steps and twins (R376 to R417). twinMsgs: prepare messages of the twin held for steps not yet compared (R388). -/
structure StepSt where
  state : StepState := .idle
  lastCommit : Nat := 0
  dirty : BitVec 8 := 0
  undoValid : Bool := false
  abortPending : Bool := false
  shadow : Bool := false
  sealLanes : SMap Nat := []
  prep : Option Prep := none
  twinMsgs : List PrepareMsg := []
  twinValid : Bool := false
  twinMode : TwinMode := .none
  twinDev : BitVec 10 := 0
  agreed : Bool := false
  weave : Option Weave := none
  ckpts : List Ckpt := []
deriving DecidableEq, Repr

/-- One counter sample source: the counts of R544 and R545, and the time base at which they were last read. -/
structure Counters where
  busy : Nat := 0
  stall : Nat := 0
  elapsed : Nat := 0
  used : Nat := 0
  late : Nat := 0
  wasted : Nat := 0
  killed : Nat := 0
  since : Nat := 0
deriving DecidableEq, Repr

/-- A sample that an advance made due, its counters read, its record not yet written (R549, R550): pick, apply time, skipped
samples, sequence number, address and bytes of its slot, values; fresh while its set has not been started again. -/
structure CtrDue where
  pick : Nat
  tb : Nat
  skipped : Nat
  seq : Nat
  addr : Nat
  size : Nat
  vals : List Nat
  fresh : Bool := true
deriving DecidableEq, Repr

/-- A CTR_READ in progress (R553): its command, set, sample time, destination and selections, and the pick and values of
its sample once taken. -/
structure CtrRead where
  cmd : Nat
  set : Nat
  tb : Nat
  dst : Nat
  sels : List Word64
  taken : Option (Nat × List Nat) := none
deriving DecidableEq, Repr

/-- A counter set being sampled (R549 to R554): samples taken and sequence number of the last record written since START;
due: samples whose records are not yet written. -/
structure CtrSet where
  started : Bool := false
  running : Bool := false
  sels : List Word64 := []
  interval : Nat := 0
  ring : Nat := 0
  ringLog2 : Nat := 0
  taken : Nat := 0
  seq : Nat := 0
  due : List CtrDue := []
deriving DecidableEq, Repr

/-- A trace unit: its local buffer of 32-byte records with their POST marks, the run of dropped records (count, first
pick), the indices and losses, and the POST records already drained (R555 to R567). -/
structure TraceUnit where
  buf : List (List Byte × Bool) := []
  gap : Option (Nat × Nat) := none
  wp : Nat := 0
  rp : Nat := 0
  drainedPost : Nat := 0
  bufDropped : Nat := 0
  postDropped : Nat := 0
deriving DecidableEq, Repr

/-- The state of the trace (R560 to R565). -/
inductive TraceState where
  | stopped | running | triggered | done
deriving DecidableEq, Repr

/-- The trace configuration and trigger (R560 to R565). stopping: the TRACE_CONFIG STOP whose drains are not complete. -/
structure TraceSt where
  state : TraceState := .stopped
  trigger : Bool := false
  units : Nat := 0
  types : Nat := 0
  post : Nat := 0
  base : Nat := 0
  regionLog2 : Nat := 16
  trigMask : Nat := 0
  cause : Nat := 0
  user : Nat := 0
  t : Option Stamp := none
  stopping : Option Nat := none
deriving DecidableEq, Repr

/-- A watch slot's settings (R568 to R571). -/
structure WatchSlot where
  armed : Bool := false
  stats : Bool := false
  digest : Bool := false
  tid : Nat := 0
  step : Nat := 0
deriving DecidableEq, Repr

/-- One die's part of a watch slot (R569). -/
structure WatchPart where
  readouts : Nat := 0
  elements : Nat := 0
  zero : Nat := 0
  nonfinite : Nat := 0
  digest : Word64 := 0
  emax : Int := 0
  emin : Int := 0
  expValid : Bool := false
deriving DecidableEq, Repr

/-- Observation: counters by source (key 65536 × class + instance), sources that have held work since their counters were
read, counter sets, CTR_READ commands in progress, trace, watch slots and their parts (key 16 × die + slot). -/
structure ObsSt where
  ctr : SMap Counters := []
  worked : List Nat := []
  sets : SMap CtrSet := []
  reads : List CtrRead := []
  trace : TraceSt := {}
  units : SMap TraceUnit := []
  watch : SMap WatchSlot := []
  wparts : SMap WatchPart := []
deriving DecidableEq, Repr

/-- A mend in progress on a die: logical shuttle within the die, failed position, spare position (R518). -/
structure Mend where
  slot : Nat
  failed : Nat
  spare : Nat
deriving DecidableEq, Repr

/-- The burler of one die (R510 to R518, R535): shuttle under rotation test, rounds, failures, delays, out-of-turn
tests scheduled (positions), the tile position a slice holds (shuttle, tile), the shuttle whose test is in progress,
and the mend in progress. -/
structure BurlerDie where
  testing : Nat := 0
  rounds : Nat := 0
  fails : Nat := 0
  delayed : Nat := 0
  outOfTurn : List Nat := []
  holds : Option (Nat × Nat) := none
  mend : Option Mend := none
deriving DecidableEq, Repr

/-- The burler (R530, R534 to R537); cleanPicks by position, one more than the pick of the last clean test. -/
structure BurlerSt where
  fraction : BitVec 3 := 2
  failValid : Bool := false
  failOverrun : Bool := false
  failShuttle : Nat := 0
  failPart : Nat := 0
  failPosition : Nat := 0
  failClean : Nat := 0
  dies : SMap BurlerDie := []
  cleanPicks : SMap Nat := []
deriving DecidableEq, Repr

/-- An entry of the step-digest log (R522). -/
structure StepLog where
  outcome : Nat
  dirty : BitVec 8
  twinDirty : BitVec 8 := 0
  seq : Nat
  step : Nat
  mode : Nat
  sd : Word64
  cd : Word64
  st : Word64
  twinDigest : Word64 := 0
  preparePick : Nat
  endPick : Nat := 0
deriving DecidableEq, Repr

/-- A record of the event recorder (R572). -/
structure EventRec where
  severity : Nat
  code : Nat
  seq : Nat
  hours : Nat
  pcycle : Nat
  source : Nat
  rep : Nat := 0
  lastHours : Nat
  data : Nat
deriving DecidableEq, Repr

/-- Life counters (R578, R580). -/
structure LifeSt where
  hours : Nat := 0
  pcycles : Nat := 0
  unclean : Nat := 0
  takeovers : Nat := 0
  burlerFails : Nat := 0
  thermalTrips : Nat := 0
  eccCorr : SMap Nat := []
  eccUncorr : SMap Nat := []
  retrains : SMap Nat := []
  faults : SMap Nat := []
  bins : SMap Nat := []
deriving DecidableEq, Repr

/-- A firmware slot (R592): valid, the factory's image or the bytes of header and body received. -/
structure ImageSlot where
  valid : Bool := false
  factory : Bool := false
  bytes : List Byte := []
deriving DecidableEq, Repr

/-- The slots of an image type: A, B, the current slot, whether the alternate holds a pending image (R592, R593). -/
structure TypeImages where
  slotA : ImageSlot := { valid := true, factory := true }
  slotB : ImageSlot := {}
  current : Nat := 0
  waiting : Bool := false
deriving DecidableEq, Repr

/-- The records that the MRAM of a headstock keeps over PERST_N and loss of power, and that R49 mirrors: the mending map, the
step-digest log, the event recorder, the life counters, and the images of types 2 to 5 (R41, R49, R521, R572 to R580, R581,
R605). slots: mending map by 16 × reed + slot, 0 for the slot's own position, 1 + q for position q, 99 for a lost slot;
recVersion: version of the records by type. -/
structure MramSt where
  slots : SMap Nat := []
  mends : SMap Nat := []
  steplog : List StepLog := []
  logseq : Nat := 0
  evr : List EventRec := []
  evrSeq : Nat := 0
  evrChg : Nat := 0
  life : LifeSt := {}
  images : SMap TypeImages := []
  recVersion : SMap Nat := []
deriving DecidableEq, Repr

/-- What the MRAM of one headstock die keeps for itself: its HEADSTOCK images, its fault latch with whether the standby was
READY, the clean-shutdown marker (R574, R581, R592, R625). -/
structure HeadMram where
  images : TypeImages := {}
  latch : Option Bool := none
  clean : Bool := false
deriving DecidableEq, Repr

/-- The last boot of a headstock: HEADSTOCK slot, marker found, fallbacks, recovery (R586, R590, R618). -/
structure HsBoot where
  slot : Nat := 0
  clean : Bool := false
  fallback : BitVec 5 := 0
  recovery : Bool := false
deriving DecidableEq, Repr

/-- A unit reset in progress (R600): its command, the standby or a die, its start, and whether it runs its former
image after a first attempt. -/
structure UnitReset where
  cmd : Nat
  standby : Bool
  die : Nat
  start : Nat
  began : Nat
  second : Bool := false
deriving DecidableEq, Repr

/-- The image transfer (R598, R619). -/
structure Transfer where
  active : Bool := false
  typ : Nat := 0
  header : List Byte := []
  data : List Byte := []
  received : Nat := 0
  result : Nat := 0
deriving DecidableEq, Repr

/-- Firmware, measurement, attestation and the debug fuse (R586 to R620). meas: key 8 × headstock + register, 32 bytes;
log: headstock and event bytes, oldest first; logged and lost by headstock; boots: the last boot of each headstock;
onPending: units that run their type's pending image, key 8192 × type + unit; owed: headstocks whose activation the active headstock has not recorded;
heldInReset: command processors held in reset. -/
structure SecSt where
  meas : SMap (List Byte) := []
  log : List (Nat × List Byte) := []
  logged : SMap Nat := []
  lost : SMap Nat := []
  boots : SMap HsBoot := []
  armed : Bool := false
  armCreel : Nat := 0
  armTb : Nat := 0
  code : Nat := 0
  transfer : Transfer := {}
  reportSeq : Nat := 0
  onPending : List Nat := []
  owed : List Nat := []
  resets : List UnitReset := []
  heldInReset : List Nat := []
deriving DecidableEq, Repr

/-- Where boot stands (R586, R590, R591). -/
inductive BootPhase where
  | held | stage1 | ready | recovery | failed
deriving DecidableEq, Repr

/-- The latest sample of a loom die (R636, R652). -/
structure ThermDie where
  dram : BitVec 16 := 0x8000
  logic : BitVec 16 := 0x8000
  stretch : Nat := 0
  currentLimit : Bool := false
  tripped : Bool := false
deriving DecidableEq, Repr

/-- Power, reset, heat and shutdown (R586, R625 to R653). other: hottest sensor of link die 18 + L or headstock 26 + h;
bins: histogram samples not yet stored in MRAM (R579). -/
structure PowerSt where
  phase : BootPhase := .held
  stopped : Bool := false
  dramThrottle : BitVec 8 := 0x5A
  logicThrottle : BitVec 8 := 0x64
  therm : SMap ThermDie := []
  other : SMap (BitVec 16) := []
  vcore : SMap Nat := []
  bins : SMap Nat := []
  sdSource : BitVec 2 := 0
  sdDone : Bool := false
  pwrdnAck : Bool := false
  thermTrip : Bool := false
  smbAlert : Bool := false
  perstLow : Bool := true
  vaux : Bool := true
  firstRise : Bool := true
  lastSample : SMap Nat := []
  lastLife : Nat := 0
  lastHour : Nat := 0
deriving DecidableEq, Repr

/-- The last answers of the SMBus target and of the test access port (R612, R648). -/
structure PinSt where
  smbOut : List Byte := []
  tapOut : List Byte := []
deriving DecidableEq, Repr

/-- State that only moves one way over the life of the part: fuse elements blown (R612), revoked keys (R585), SVN
floors by image type (R584), positions failed and failed at the factory, key 17 × reed + position (R520, R531). -/
structure Perm where
  elements : Nat := 0
  keyRevoked : BitVec 4 := 0
  floors : SMap Nat := []
  failed : List Nat := []
  factory : List Nat := []
deriving DecidableEq, Repr

/-- Everything else. nv holds the records in the MRAM of the active headstock; copy those of the other headstock while it is
not READY, and none while it is READY and its MRAM holds the same (R49); own what each headstock's MRAM holds for itself.
free is the model's own counter of free values (log 1), no part of the hardware. -/
structure Sys where
  t : TimeSt := {}
  hs : HsSt := {}
  pwr : PowerSt := {}
  pin : PinSt := {}
  trd : Session := {}
  svc : Session := { port := .service }
  cr : CreelSt := {}
  cm : CmdSt := {}
  lck : SMap Lock := []
  mem : MemSt := {}
  arb : SMap Arbiter := []
  eng : SMap Engine := []
  yarn : SMap YarnSt := []
  acc : AccSt := {}
  vec : VecSt := {}
  upd : UpdSt := {}
  smap : MapSt := {}
  cen : CensusSt := {}
  lnk : LinkSt := {}
  coll : CollSt := {}
  stp : StepSt := {}
  bur : BurlerSt := {}
  nv : MramSt := {}
  copy : Option MramSt := none
  own : SMap HeadMram := []
  sec : SecSt := {}
  obs : ObsSt := {}
  free : Nat := 0
deriving DecidableEq, Repr

/-- The block: commands waiting, first in first out, the one-way state, and everything else. -/
structure State where
  pending : List Sys2Proof.Instr := []
  perm : Perm := {}
  sys : Sys := {}
deriving DecidableEq, Repr

/-- Why the model stops where the manual names no effect. -/
inductive Fault where
  /-- Raised by DRAM_READ and DRAM_WRITE for a granule outside bonded DRAM, an address that R221 says does not exist.
  Safe: the model stops where no hardware event of the kind can occur. -/
  | noSuchAddress
deriving DecidableEq, Repr

/-- Why the model refuses a command. -/
inductive Refusal where
  /-- Raised by an arm of exec for a command without a meaning. Safe: nothing is claimed of it. -/
  | notModelled (mnemonic : String)
  /-- Raised by TEST_ACCESS_PORT for a debug instruction whose effect R612 does not give. Safe: the model stops. -/
  | tapInstruction
deriving DecidableEq, Repr

/-- The block right after reset: held in PERST_N, every register at its reset value, memory with nothing listed. -/
def State.reset : State := {}

end Sys2Proof.Machine
end

