-- ==== Sys2Proof/Machine/Ops.lean ====
section
/-! DEFINITION. Shared operations on the state: time and stamps, frames sent, notices, the event recorder and the
trace (R421, R453 to R455, R483 to R487, R555 to R575). -/

namespace Sys2Proof.Machine

open Sys2Proof

/-- A meaning that changes neither the queue nor the one-way state. -/
def onSys (s : State) (f : Perm → Sys → Sys) : Host.Outcome State Fault Refusal :=
  .next { s with sys := f s.perm s.sys }

/-- A meaning that may also move the one-way state. -/
def onAll (s : State) (f : Perm → Sys → Perm × Sys) : Host.Outcome State Fault Refusal :=
  .next { s with perm := (f s.perm s.sys).1, sys := (f s.perm s.sys).2 }

/-- Usdon firmware has finished boot and the device is neither silent nor back in reset (R54, R586). -/
def isUp (y : Sys) : Bool := y.pwr.phase == .ready && !y.hs.silent

/-- Loom die thermal state. -/
def thermAt (y : Sys) (d : Nat) : ThermDie := mapGet {} y.pwr.therm d

/-- The clocks of a loom die, of a link die (18 + L) or of a headstock (26 + h) have stopped (R638). -/
def dieStopped (y : Sys) (d : Nat) : Bool :=
  if d < 18 then (thermAt y d).tripped
  else if d < 26 then mapFind y.pwr.other d == some 0x8000
  else if d - 26 = y.hs.active then y.hs.silent || y.hs.activeFaulted else y.hs.standby == .absent

/-- A free value and the state with the model's counter raised (log 1). -/
def freshWord (y : Sys) : Word64 × Sys := (Sys2Proof.Config.freeWord y.free, { y with free := y.free + 1 })

/-- The pick count that holds now and the time base of the advance to it: an event at the time base of an advance takes the
new pick, also where the advance has not been applied yet (R484). -/
def pickHeld (t : TimeSt) : Nat × Nat :=
  (t.sched.takeWhile (fun a => decide (a.apply ≤ t.timeBase))).foldl (fun _ a => (a.target, a.apply)) (t.pick, t.pickTb)

/-- The stamp of an event now (R483, R484, R486). -/
def stampNow (y : Sys) : Stamp :=
  let h := pickHeld y.t
  let d := y.t.timeBase - h.2
  if d < 2 ^ 24 then { pick := h.1, sub := d } else { pick := h.1, sub := 2 ^ 24 - 1, sat := true }

/-- The pick of an event now (R484). -/
def pickNow (y : Sys) : Nat := (pickHeld y.t).1

/-- Comparison of stamps: pick first, then subpick (R487). -/
def stampLt (a b : Stamp) : Bool := decide (a.pick < b.pick) || (a.pick == b.pick && decide (a.sub < b.sub))

/-- The creel encoding of R432: 64 stands for the service creel. -/
def creelEnc (c : Nat) : Nat := if c = 64 then 0x80 else c

/-- The session that owns a creel: true for the service session. -/
def sessOf (y : Sys) (svc : Bool) : Session := if svc then y.svc else y.trd

/-- Replace a session. -/
def setSess (y : Sys) (svc : Bool) (s : Session) : Sys := if svc then { y with svc := s } else { y with trd := s }

/-- The time base of the last frame sent on a port (R424). -/
def lastTx (y : Sys) : Port → Nat
  | .ta => y.cr.lastTa
  | .tb => y.cr.lastTb
  | .service => y.cr.lastSvc

/-- Note that a frame leaves on a port (R424). -/
def noteTx (p : Port) (y : Sys) : Sys :=
  match p with
  | .ta => { y with cr := { y.cr with lastTa := y.t.timeBase } }
  | .tb => { y with cr := { y.cr with lastTb := y.t.timeBase } }
  | .service => { y with cr := { y.cr with lastSvc := y.t.timeBase } }

/-- Send a frame with SEQ 0 on a port (R420). -/
def sendPlain (svc : Bool) (p : Port) (typ : Nat) (payload : List Byte) (y : Sys) : Sys :=
  let ss := sessOf y svc
  noteTx p (setSess y svc { ss with wire := ss.wire ++ [{ port := p, typ := typ, seq := 0, ack := ss.rxSeq, payload := payload }] })

/-- Send a sequenced frame on the session's port and keep it until it is acknowledged (R420). -/
def sendSeq (svc : Bool) (typ : Nat) (payload : List Byte) (y : Sys) : Sys :=
  let ss := sessOf y svc
  let f : TxFrame := { port := ss.port, typ := typ, seq := ss.txSeq + 1, ack := ss.rxSeq, payload := payload }
  noteTx ss.port (setSess y svc { ss with txSeq := ss.txSeq + 1, wire := ss.wire ++ [f], unacked := ss.unacked ++ [f] })

/-- Hold a reply of a creel of a session; without a session, or while the session is being forced out, the reply is
discarded (R427, R430, R450). -/
def holdReply (svc : Bool) (bytes : List Byte) (y : Sys) : Sys :=
  let ss := sessOf y svc
  if ss.state = SessState.none ∨ ss.forced ≠ Option.none then y
  else setSess y svc { ss with held := ss.held ++ [{ isNotice := false, bytes := bytes, tb := y.t.timeBase }] }

/-- The 16-byte header and payload of a frame as bytes, CRC included (R421). -/
def frameBytes (f : TxFrame) : List Byte :=
  let h := leBytes 1 f.typ ++ leBytes 1 0 ++ leBytes 2 f.payload.length ++ leBytes 4 f.seq ++ leBytes 4 f.ack
  h ++ leBytes 4 (crc32c (h ++ f.payload)) ++ f.payload

/-! ### Trace (R555 to R563) -/

/-- Trace unit u is enabled. -/
def unitOn (y : Sys) (u : Nat) : Bool := y.obs.trace.units.testBit u

/-- The end of the post-trigger window, in picks (R562). -/
def windowEnd (tr : TraceSt) : Nat := match tr.t with
  | none => 0
  | some s => s.pick + tr.post

/-- A record stamped s lies at or after T (R562). -/
def isPost (tr : TraceSt) (s : Stamp) : Bool := match tr.t with
  | none => false
  | some t => !stampLt s t

/-- Records stamped s are kept: the trace runs, or the post-trigger window has not ended (R562). -/
def tracing (tr : TraceSt) (s : Stamp) : Bool :=
  tr.stopping.isNone && (match tr.state with
  | .running => true
  | .triggered => decide (s.pick < windowEnd tr)
  | _ => false)

/-- The 32 bytes of a trace record (R555). -/
def traceBytes (typ : Nat) (post : Bool) (unit : Nat) (s : Stamp) (code tag status creel lane arg : Nat) : List Byte :=
  leBytes 1 typ ++ leBytes 1 (b2n s.sat + 2 * b2n post) ++ leBytes 2 unit ++ leBytes 3 s.sub ++ leBytes 1 0 ++
  leBytes 6 s.pick ++ leBytes 2 code ++ leBytes 4 tag ++ leBytes 2 status ++ leBytes 1 creel ++ leBytes 1 lane ++
  leBytes 8 arg

/-- Records that a local buffer holds: 16 KiB of 32 bytes. -/
def traceCap : Nat := 512

/-- Write the GAP record of a run of dropped records once two records fit (R557). -/
def writeGap (tr : TraceSt) (u : Nat) (s : Stamp) (x : TraceUnit) : TraceUnit :=
  match x.gap with
  | none => x
  | some (n, p) =>
    if x.buf.length + 2 ≤ traceCap then
      if tracing tr s then
        let arg := satAt (umax 32) n + (p % 2 ^ 32) * 2 ^ 32
        { x with gap := none, buf := x.buf ++ [(traceBytes 6 (isPost tr s) u s 0 0 0 0 0 arg, isPost tr s)] }
      else { x with gap := none }
    else x

/-- Put one record into a unit's buffer, or drop and count it (R557). -/
def pushRecord (tr : TraceSt) (u : Nat) (s : Stamp) (bytes : List Byte) (x : TraceUnit) : TraceUnit :=
  let x := writeGap tr u s x
  if x.gap.isSome || decide (traceCap ≤ x.buf.length) then
    let run := match x.gap with | none => (1, s.pick) | some (n, p) => (n + 1, p)
    { x with gap := some run, bufDropped := satAt (umax 24) (x.bufDropped + 1) }
  else { x with buf := x.buf ++ [(bytes, isPost tr s)] }

/-- Record an event in a trace unit, where the unit and the type are enabled (R556, R560). -/
def traceRec (u typ : Nat) (s : Stamp) (code tag status creel lane arg : Nat) (y : Sys) : Sys :=
  let tr := y.obs.trace
  if tracing tr s && unitOn y u && (decide (5 < typ) || tr.types.testBit (typ - 1)) then
    let b := traceBytes typ (isPost tr s) u s code tag status creel lane arg
    { y with obs := { y.obs with units := mapMod {} y.obs.units u (pushRecord tr u s b) } }
  else y

/-! ### Notices (R453 to R455) -/

/-- The 32 bytes of a notice (R453). -/
def noticeBytes (version kind source tag arg step : Nat) (s : Stamp) : List Byte :=
  leBytes 1 version ++ leBytes 1 kind ++ leBytes 2 source ++ leBytes 4 tag ++ leBytes 4 arg ++
  leBytes 1 (b2n s.sat) ++ leBytes 1 0 ++ leBytes 6 step ++ leBytes 6 s.pick ++ leBytes 3 s.sub ++ leBytes 3 0

/-- Raise a notice: held in the treadle session's stream in its place, lost without one; recorded in trace unit 26
(R454, R455, R556). -/
def notice (kind source tag arg step : Nat) (y : Sys) : Sys :=
  let s := stampNow y
  let y := traceRec 26 3 s kind tag 0 0 0 (arg % 2 ^ 32 + (source % 2 ^ 16) * 2 ^ 32) y
  if y.trd.state = SessState.none ∨ y.trd.forced ≠ Option.none then y
  else
    let b := noticeBytes y.trd.version kind source tag arg step s
    { y with trd := { y.trd with held := y.trd.held ++ [{ isNotice := true, bytes := b, tb := y.t.timeBase }] } }

/-- The stamp of a trace record, from its bytes (R555). -/
def recStamp (b : List Byte) : Stamp := { pick := ofLe ((b.drop 8).take 6), sub := ofLe ((b.drop 4).take 3) }

/-- Records of a local buffer stamped at or after T carry POST (R562). -/
def markPost (tr : TraceSt) (x : TraceUnit) : TraceUnit :=
  { x with buf := x.buf.map (fun r =>
      if r.2 || !isPost tr (recStamp r.1) then r else (lmod r.1 1 (fun f => f ||| 2), true)) }

/-- Units from a list write a TRIGGER record stamped T (R561). -/
def writeTriggers (s : Stamp) (cause user : Nat) : List Nat → Sys → Sys
  | [], y => y
  | u :: r, y => writeTriggers s cause user r (traceRec u 7 s 0 0 0 0 0 (cause + user * 256) y)

/-- A trigger event of the trace: the first of an enabled cause sets T (R561). -/
def traceFire (cause user unit : Nat) (s : Stamp) (y : Sys) : Sys :=
  let tr := y.obs.trace
  if tr.state = TraceState.running ∧ tr.stopping = none ∧ tr.trigger = true ∧ tr.trigMask.testBit (cause - 1) = true then
    let tr := { tr with state := .triggered, t := some s, cause := cause, user := user }
    let y := { y with obs := { y.obs with trace := tr, units := y.obs.units.map (fun p => (p.1, markPost tr p.2)) } }
    let y := writeTriggers s cause user (List.range 27) y
    notice 0x0B unit 0 (cause + user * 256) 0 y
  else y

/-! ### Event recorder (R572 to R575) -/

/-- Records the recorder keeps. -/
def evrCap : Nat := 32768

/-- Record an event: a repeat of the newest record, or a new record (R575). -/
def recordEvent (severity code source data : Nat) (y : Sys) : Sys :=
  let nv := y.nv
  let chg := (nv.evrChg + 1) % 2 ^ 32
  let fresh : EventRec := {
    severity := severity, code := code, seq := nv.evrSeq + 1, hours := nv.life.hours,
    pcycle := nv.life.pcycles, source := source, lastHours := nv.life.hours, data := data }
  let kept := (nv.evr ++ [fresh]).drop (nv.evr.length + 1 - evrCap)
  let add : MramSt := { nv with evr := kept, evrSeq := nv.evrSeq + 1, evrChg := chg }
  match nv.evr.getLast? with
  | none => { y with nv := add }
  | some r =>
    if r.code = code ∧ r.source = source ∧ r.data = data ∧ r.rep < 0xFFFF then
      let again := { r with rep := r.rep + 1, lastHours := nv.life.hours }
      { y with nv := { nv with evr := nv.evr.dropLast ++ [again], evrChg := chg } }
    else { y with nv := add }

/-- The 32 bytes of an event record (R572). -/
def eventBytes (r : EventRec) : List Byte :=
  leBytes 1 0x10 ++ leBytes 1 r.severity ++ leBytes 2 r.code ++ leBytes 4 r.seq ++ leBytes 4 r.hours ++
  leBytes 4 r.pcycle ++ leBytes 2 r.source ++ leBytes 2 r.rep ++ leBytes 4 r.lastHours ++ leBytes 8 r.data

/-- Change the life counters, each of 4 bytes saturating at its bound (R580). -/
def onLife (f : LifeSt → LifeSt) (y : Sys) : Sys := { y with nv := { y.nv with life := f y.nv.life } }

/-- One more, saturating at 32 bits (R580). -/
def inc32 (v : Nat) : Nat := satAt (umax 32) (v + 1)

/-! ### Locks (R463 to R468) -/

/-- Apply the expiry of one lock at the present pick (R465). -/
def expireLock (pick : Nat) (l : Lock) : Lock :=
  if l.state = LockState.held ∧ l.expires ≤ pick then { l with state := .broken, cause := 1 } else l

/-- A held lock's lease has ended. -/
def lockDue (pick : Nat) (l : Lock) : Bool := l.state == LockState.held && decide (l.expires ≤ pick)

/-- Expire the lock with number k, with its notice and event (R465, R573). -/
def expireOne (k : Nat) (y : Sys) : Sys :=
  let l := mapGet {} y.lck k
  if lockDue (pickNow y) l then
    let y := { y with lck := mapSet {} y.lck k (expireLock (pickNow y) l) }
    recordEvent 0 0x0061 k (1 + creelEnc l.owner * 256) (notice 8 k 0 (creelEnc l.owner) 0 y)
  else y

/-- Expire every lock due, in rising order (R466, R489). -/
def expireLocks (y : Sys) : Sys := (List.range 64).foldl (fun y k => expireOne k y) y

/-- Break every held lock of the treadle creels, or of the service creel (R427, R429, R430, R465). -/
def breakLocks (svc : Bool) (cause : Nat) (y : Sys) : Sys :=
  (List.range 64).foldl (fun y k =>
    let l := mapGet {} y.lck k
    if l.state = LockState.held ∧ (l.owner == 64) = svc then
      recordEvent 0 0x0061 k (cause + creelEnc l.owner * 256)
        { y with lck := mapSet {} y.lck k { l with state := .broken, cause := cause } }
    else y) y

end Sys2Proof.Machine
end

