-- ==== Sys2Proof/Machine/Mem.lean ====
section
/-! DEFINITION. Memory: the address map, translation by the state map, poison, reads and writes, run-ahead kills and
the digest of writes through back ranges (R177, R221 to R231, R240, R274 to R278, R355, R507). -/

namespace Sys2Proof.Machine

open Sys2Proof

/-- Bytes of one stack (R38). -/
def stackBytes : Nat := 0x3000000000

/-- First address above bonded DRAM (R221). -/
def dramEnd : Nat := 0x36000000000

/-- First address of the shuttle stores (R221). -/
def storeBase : Nat := 0x40000000000

/-- First address of the accumulator files (R104, R221). -/
def fileBase : Nat := 0x60000000000

/-- Stack of a bonded DRAM address (R38). -/
def stackOf (a : Nat) : Nat := a / stackBytes

/-- The range [a, a + n) lies in bonded DRAM; an empty one names an address of it (R221, R222). -/
def inDram (a n : Nat) : Bool := decide (a + n ≤ dramEnd) && decide (a < dramEnd)

/-- An address of the accumulator files (R104, R221). -/
def inFiles (a : Nat) : Bool :=
  decide (fileBase ≤ a) && decide (a < fileBase + 0x1200000000) && decide ((a - fileBase) % 0x100000000 < 0x8000000)

/-- A command reads an accumulator-file address in one of the ranges, and the debug view is closed (R613). -/
def fileClosed (p : Perm) (l : List (Nat × Nat)) : Bool :=
  decide (2 ≤ p.elements) && l.any (fun r => inFiles r.1 || inFiles (r.1 + (r.2 - 1)))

/-- First byte of the store of a logical shuttle (R43). -/
def storeOf (n : Nat) : Nat := storeBase + (n / 128) * 0x100000000 + (n % 128) * 0x400000

/-- The range [a, a + n) lies in the store of logical shuttle k (R43, R177). -/
def inStore (k a n : Nat) : Bool := decide (storeOf k ≤ a) && decide (a + n ≤ storeOf k + 0x400000)

/-- The logical shuttle whose store holds address a (R43). -/
def storeShuttle (a : Nat) : Option Nat :=
  if a < storeBase then none
  else
    let d := (a - storeBase) / 0x100000000
    let o := (a - storeBase) % 0x100000000
    if d < 18 ∧ o < 0x20000000 then some (128 * d + o / 0x400000) else none

/-- The range [a, a + n) lies in the store of one logical shuttle (R43, R221). -/
def inSomeStore (a n : Nat) : Bool :=
  match storeShuttle a with
  | none => false
  | some k => inStore k a n

/-- Two ranges overlap. -/
def overlap (a n b m : Nat) : Bool := decide (a < b + m) && decide (b < a + n)

/-- Entry e of the state map (R274). -/
def entryAt (y : Sys) (e : Nat) : Entry := mapGet {} y.smap.entries e

/-- Where an entry takes an address (R275): the other copy when SEL is 1. -/
def entryTakes (e : Entry) (a : Nat) : Option Nat :=
  if e.state = EntryState.free then none
  else if e.face ≤ a ∧ a < e.face + e.length then some (if e.sel then e.back + (a - e.face) else a)
  else if e.back ≤ a ∧ a < e.back + e.length then some (if e.sel then e.face + (a - e.back) else a)
  else none

/-- Translation by a list of entries (R275). -/
def translateIn : SMap Entry → Nat → Nat
  | [], a => a
  | (_, e) :: r, a => match entryTakes e a with
    | some b => b
    | none => translateIn r a

/-- Translation by ranges whose copies stay swapped (R282). -/
def translateKept : List (Nat × Nat × Nat) → Nat → Option Nat
  | [], _ => none
  | (f, b, n) :: r, a =>
    if f ≤ a ∧ a < f + n then some (b + (a - f)) else if b ≤ a ∧ a < b + n then some (f + (a - b)) else translateKept r a

/-- Translation of an address by the state map, or as the command at work began with it (R275, R282). -/
def translateAddr (y : Sys) (a : Nat) : Nat := (translateKept y.smap.view a).getD (translateIn y.smap.entries a)

/-- The state as a running command sees it: with the translation that it began with (R282). -/
def viewed (c : Cmd) (y : Sys) : Sys := { y with smap := { y.smap with view := c.kept } }

/-- The state between steps: no command is at work. -/
def unview (y : Sys) : Sys := { y with smap := { y.smap with view := [] } }

/-- Every running command keeps the translation of an ACTIVE entry with SEL 1 that a STATE_SET frees (R282). -/
def keepView (e : Entry) (y : Sys) : Sys :=
  if e.sel then
    { y with cm := { y.cm with cmds := y.cm.cmds.map (fun c =>
        if c.phase = .running then { c with kept := (e.face, e.back, e.length) :: c.kept } else c) } }
  else y

/-- The range of unspecified content that holds a physical address (R399). -/
def unspecAt (m : MemSt) (a : Nat) : Option (Nat × Nat × Nat) :=
  m.unspec.find? (fun r => decide (r.1 ≤ a) && decide (a < r.1 + r.2.1))

/-- What an address that memory does not list reads as: zero, as boot wrote it, or a free value where an abort left the
content unspecified (R399, R656, log 20). -/
def unlisted (m : MemSt) (a : Nat) : Byte := match unspecAt m a with
  | none => 0
  | some r => Sys2Proof.Config.freeByte r.2.2 a

/-- The byte at a physical address. -/
def cellAt (m : MemSt) (a : Nat) : Byte := match mapFind m.cells a with
  | some b => b
  | none => unlisted m a

/-- One byte as a requester reads it (R275, R656). -/
def readByte (y : Sys) (a : Nat) : Byte := cellAt y.mem (translateAddr y a)

/-- Bytes from consecutive addresses. -/
def readBytes (y : Sys) (a : Nat) : Nat → List Byte
  | 0 => []
  | n + 1 => readByte y a :: readBytes y (a + 1) n

/-- A little-endian number from memory (R8). -/
def readNat (y : Sys) (a n : Nat) : Nat := ofLe (readBytes y a n)

/-- A number out of a list, the least. -/
def leastOf : List Nat → Option Nat
  | [] => none
  | a :: r => match leastOf r with
    | none => some a
    | some b => some (Nat.min a b)

/-- The first poisoned granule that a read of [a, a + n) meets, as its requester names it (R227, R228). The
translation is its own inverse. -/
def poisonIn (y : Sys) (a n : Nat) : Option Nat :=
  leastOf ((y.mem.poison.map (fun g => translateAddr y (g * 64) / 64)).filter
    (fun g => decide (g * 64 < a + n) && decide (a < g * 64 + 64)))

/-- A read of [a, a + n) meets a marked word of a shuttle store (R507). -/
def badWordIn (y : Sys) (a n : Nat) : Bool :=
  y.mem.badWords.any (fun w => decide (w * 8 < a + n) && decide (a < w * 8 + 8))

/-- Stack, channel, bank, row and byte within the row of a byte of bonded DRAM (R224). -/
def locate (a : Nat) : Nat × Nat × Nat × Nat × Nat :=
  let s := stackOf a
  let o := a - s * stackBytes
  let c := Nat.xor (nfld o 8 8) (nfld o 16 8)
  let co := nfld o 16 22 * 256 + nfld o 0 8
  (s, c, Nat.xor (nfld co 11 5) (nfld co 16 5), nfld co 16 14, nfld co 0 11)

/-- The bank group of a physical granule: its stack, channel and bits 4 to 2 of its bank (R224). -/
def bankGroup (g : Nat) : Nat × Nat × Nat :=
  let l := locate (g * 64)
  (l.1, l.2.1, l.2.2.1 / 4)

/-- The channel of a physical granule retrains (R254). -/
def retraining (y : Sys) (g : Nat) : Bool :=
  match y.mem.retrain with
  | none => false
  | some r =>
    let l := locate (g * 64)
    l.1 == r.stack && l.2.1 == r.channel

/-- Some access to [a, a + n) goes to a retraining channel, where it waits (R254). -/
def rangeHeld (y : Sys) (a n : Nat) : Bool :=
  y.mem.retrain.isSome && (List.range (cdiv (a % 64 + n) 64)).any (fun k => retraining y (translateAddr y ((a / 64 + k) * 64) / 64))

/-- Some access to a list of ranges waits for a retraining channel (R254). -/
def anyHeld (y : Sys) (l : List (Nat × Nat)) : Bool := l.any (fun r => rangeHeld y r.1 r.2)

/-- A die's memory registers. -/
def onDie (d : Nat) (f : MemDie → MemDie) (y : Sys) : Sys :=
  { y with mem := { y.mem with dies := mapMod {} y.mem.dies d f } }

/-- Record an uncorrectable granule in MEM.ERR_ADDR (R265). -/
def noteErr (off source : Nat) (m : MemDie) : MemDie :=
  if m.errValid then { m with errOverrun := true }
  else { m with errValid := true, errGranule := off, errSource := source }

/-- Count an uncorrectable granule of a stack (R227, R264, R580). -/
def countUncorr (stack : Nat) (y : Sys) : Sys :=
  onLife (fun l => { l with eccUncorr := mapMod 0 l.eccUncorr stack (fun v => (v + 1) % 2 ^ 64) })
    (onDie stack (fun m => { m with uncorr := satAt (umax 16) (m.uncorr + 1) }) y)

/-- Count a corrected granule of a stack (R226, R264, R580). -/
def countCorr (stack : Nat) (y : Sys) : Sys :=
  onLife (fun l => { l with eccCorr := mapMod 0 l.eccCorr stack (fun v => (v + 1) % 2 ^ 64) })
    (onDie stack (fun m => { m with corr := satAt (umax 32) (m.corr + 1) }) y)

/-- A read or partial write of physical granule g that finds it uncorrectable: counted, recorded and kept as an event
(R227, R265, R573). -/
def reportGranule (g source : Nat) (y : Sys) : Sys :=
  let st := stackOf (g * 64)
  let off := (g * 64 - st * stackBytes) / 64
  recordEvent 2 0x0010 st (off + source * 2 ^ 40) (onDie st (noteErr off source) (countUncorr st y))

/-- A consuming read meets the poisoned granule that its requester names g (R228, R275). -/
def reportPoison (g source : Nat) (y : Sys) : Sys := reportGranule (translateAddr y (g * 64) / 64) source y

/-- The command with an identity (R445). -/
def findCmd (y : Sys) (id : Nat) : Option Cmd := y.cm.cmds.find? (fun c => c.id == id)

/-- Change the command with an identity. -/
def modCmd (id : Nat) (f : Cmd → Cmd) (y : Sys) : Sys :=
  { y with cm := { y.cm with cmds := y.cm.cmds.map (fun c => if c.id = id then f c else c) } }

/-- Counters of a source (R547). -/
def ctrKey (cls inst : Nat) : Nat := 65536 * cls + inst

/-- Change the counters of a source, modulo 2^64 (R544 to R546). -/
def onCtr (cls inst : Nat) (f : Counters → Counters) (y : Sys) : Sys :=
  { y with obs := { y.obs with ctr := mapMod {} y.obs.ctr (ctrKey cls inst) f } }

/-- Add to a counter, modulo 2^64. -/
def wrap64 (v : Nat) : Nat := v % 2 ^ 64

/-- Drop the copies that shuttle n holds and that satisfy a test; killed tells whether a kill drops them
(R240, R242, R243, R281). -/
def dropCopies (n : Nat) (test : Copy → Bool) (killed : Bool) (y : Sys) : Sys :=
  let st := mapGet {} y.yarn n
  let k := (st.copies.filter test).length
  if k = 0 then y
  else
    let keep := st.copies.filter (fun c => !test c)
    let y := { y with yarn := mapSet {} y.yarn n { st with copies := keep } }
    onCtr 4 n (fun c => { c with wasted := wrap64 (c.wasted + k), killed := if killed then wrap64 (c.killed + k) else c.killed }) y

/-- Drop such copies of every shuttle. -/
def dropAllCopies (test : Copy → Bool) (killed : Bool) (y : Sys) : Sys :=
  (y.yarn.map (fun p => p.1)).foldl (fun y n => dropCopies n test killed y) y

/-- The entry whose back range holds an address, with the offset, for ACTIVE entries (R278). -/
def backOf : SMap Entry → Nat → Option (Nat × Nat)
  | [], _ => none
  | (k, e) :: r, a =>
    if e.state = EntryState.active ∧ e.back ≤ a ∧ a < e.back + e.length then some (k, a - e.back) else backOf r a

/-- Note a write through a back range: BACK_WRITTEN, UNDO_VALID, and the bytes for the digest; a command that waits for its
unit writes none (R278, R396). -/
def noteBack (id : Option Nat) (a : Nat) (bs : List Byte) (y : Sys) : Sys :=
  match backOf y.smap.entries a with
  | none => y
  | some (k, o) =>
    let mark := fun (p : Nat × Entry) => if p.1 = k then (p.1, { p.2 with backWritten := true }) else p
    let y := { y with smap := { y.smap with entries := y.smap.entries.map mark }, stp := { y.stp with undoValid := false } }
    match id with
    | none => y
    | some i =>
      let note := fun (m : SMap Byte) => (bs.zipIdx).foldl (fun m p => mapPut m (k * 2 ^ 40 + o + p.2) p.1) m
      modCmd i (fun c => if c.phase = .forwarded then c else { c with wrote := note c.wrote }) y

/-- Store one byte at a physical address: listed where it differs from zero or the unlisted content is a free value. -/
def putCell (m : MemSt) (a : Nat) (b : Byte) : MemSt :=
  if (unspecAt m a).isSome then { m with cells := mapPut m.cells a b } else { m with cells := mapSet 0 m.cells a b }

/-- Store bytes at physical addresses. -/
def putCells (m : MemSt) (a : Nat) : List Byte → MemSt
  | [] => m
  | b :: r => putCells (putCell m a b) (a + 1) r

/-- The content of a physical range becomes unspecified, under a free index (R399). -/
def forget (a n idx : Nat) (m : MemSt) : MemSt :=
  { m with cells := m.cells.filter (fun p => decide (p.1 < a) || decide (a + n ≤ p.1)),
           unspec := (a, n, idx) :: m.unspec.filter (fun r => !(r.1 == a && r.2.1 == n)) }

/-- Write one piece within a granule of bonded DRAM, or within an 8-byte word of a shuttle store (R227, R228, R240,
R278, R507). -/
def writePiece (id : Option Nat) (a : Nat) (bs : List Byte) (y : Sys) : Sys :=
  let t := translateAddr y a
  let whole := if t < dramEnd then bs.length == 64 else bs.length == 8
  let hit := if t < dramEnd then setHas y.mem.poison (t / 64) else setHas y.mem.badWords (t / 8)
  if hit && !whole then
    let y := match id with | none => y | some i => modCmd i (fun c => { c with partialPoison := true }) y
    if t < dramEnd then reportGranule (t / 64) 6 y else y
  else
    let mem := putCells y.mem t bs
    let mem := if t < dramEnd then { mem with poison := setDel mem.poison (t / 64) }
      else { mem with badWords := setDel mem.badWords (t / 8) }
    noteBack id a bs (dropAllCopies (fun c => c.granule == t / 64) true { y with mem := mem })

/-- Bytes of the piece that starts at a: to the end of its granule, or of its store word. -/
def pieceLen (a : Nat) : Nat := if a < dramEnd then 64 - a % 64 else 8 - a % 8

/-- Write pieces one after another. -/
def writePieces (id : Option Nat) : Nat → Nat → List Byte → Sys → Sys
  | 0, _, _, y => y
  | fuel + 1, a, bs, y =>
    if bs = [] then y
    else writePieces id fuel (a + pieceLen a) (bs.drop (pieceLen a)) (writePiece id a (bs.take (pieceLen a)) y)

/-- Write bytes at an address on behalf of a command (R230, R275, R278). -/
def writeBytes (id : Option Nat) (a : Nat) (bs : List Byte) (y : Sys) : Sys := writePieces id bs.length a bs y

/-- The range overlaps the face range of an ACTIVE entry, or, for a step-free or shadow command, its back range
(R277, R378, R408). -/
def protectedHit (y : Sys) (backToo : Bool) (a n : Nat) : Bool :=
  y.smap.entries.any (fun p => p.2.state == EntryState.active &&
    (overlap a n p.2.face p.2.length || (backToo && overlap a n p.2.back p.2.length)))

/-- The range overlaps a range of a non-FREE entry (R542). -/
def mapHit (y : Sys) (a n : Nat) : Bool :=
  y.smap.entries.any (fun p => p.2.state != EntryState.free &&
    (overlap a n p.2.face p.2.length || overlap a n p.2.back p.2.length))

/-- fmix of R355. -/
def fmix (x : Word64) : Word64 :=
  let x := x ^^^ (x >>> 33)
  let x := x * 0xFF51AFD7ED558CCD
  let x := x ^^^ (x >>> 33)
  let x := x * 0xC4CEB9FE1A85EC53
  x ^^^ (x >>> 33)

/-- mix of R355. -/
def mix (k : Word64) (tag idx val : Nat) : Word64 :=
  fmix (fmix (k ^^^ BitVec.ofNat 64 (tag * 2 ^ 48) ^^^ BitVec.ofNat 64 idx) + BitVec.ofNat 64 val * 0x9E3779B97F4A7C15)

/-- The digest key (R355). -/
def digestKey (y : Sys) : Word64 := BitVec.ofNat 64 (y.coll.keyHi.toNat * 2 ^ 32 + y.coll.keyLo.toNat)

/-- The 4-byte words of the bytes a command wrote, with zero in each byte it did not write (R278). -/
def wroteWords (w : SMap Byte) : SMap Nat :=
  w.foldl (fun m p => mapPut m (p.1 / 4) (mapGet 0 m (p.1 / 4) + p.2.toNat * 2 ^ (8 * (p.1 % 4)))) []

/-- Add a command's digest terms to the entries it wrote; one that has become FREE keeps its zero digest (R278, R282). -/
def addDigests (w : SMap Byte) (y : Sys) : Sys :=
  let k := digestKey y
  let add := fun (m : SMap Entry) (p : Nat × Nat) =>
    let e := p.1 / 2 ^ 38
    mapMod {} m e (fun x => if x.state = .free then x else { x with digest := x.digest + mix k e (p.1 % 2 ^ 38) p.2 })
  { y with smap := { y.smap with entries := (wroteWords w).foldl add y.smap.entries } }

end Sys2Proof.Machine
end

