-- ==== Sys2Proof/Machine/Flags.lean ====
section
/-! DEFINITION. What a command's status and step do: classes of status, dirty bits, and the outcome of the step rules
(R376 to R379, R389, R402, R451). -/

namespace Sys2Proof.Machine

open Sys2Proof

/-- Refused with no effect (R451). -/
def isRefusal (s : Status) : Bool := decide (0x0100 ≤ statusCode s ∧ statusCode s < 0x0200)

/-- Failed and contained (R451). -/
def isContained (s : Status) : Bool := decide (0x0200 ≤ statusCode s ∧ statusCode s < 0x0300)

/-- Step-fatal (R451). -/
def isStepFatal (s : Status) : Bool := decide (0x0300 ≤ statusCode s ∧ statusCode s < 0x0400)

/-- Device-fatal (R451). -/
def isDeviceFatal (s : Status) : Bool := decide (0x0400 ≤ statusCode s)

/-- OK or completed with notice (R451). -/
def isSuccess (s : Status) : Bool := decide (statusCode s < 0x0100)

/-- A step is open (R381). -/
def stepOpen (y : Sys) : Bool := y.stp.state != .idle

/-- The open step, or the step to open next: LAST_COMMIT + 1. -/
def openStep (y : Sys) : Nat := y.stp.lastCommit + 1

/-- The command of a packet is bound to the open step. -/
def boundToOpen (y : Sys) (pk : Packet) : Bool := stepOpen y && pk.step.toNat == openStep y

/-- Set a dirty bit (R389). -/
def setDirty (i : Nat) (y : Sys) : Sys := { y with stp := { y.stp with dirty := y.stp.dirty ||| BitVec.ofNat 8 (2 ^ i) } }

/-- The dirty bits that a completion with a status sets (R389, R402). -/
def dirtyOf (exempt : Bool) (st : Status) : BitVec 8 :=
  if isStepFatal st && !exempt then 1
  else if st = Status.updNonfinite ∨ st = Status.bucketNonfinite then 2
  else 0

/-- The implemented opcodes (R456). -/
def opcodes : List Nat :=
  [0x0000, 0x0001, 0x0010, 0x0011, 0x0100, 0x0101, 0x0110, 0x0111, 0x0120, 0x0200, 0x0201, 0x0202, 0x0203, 0x0204, 0x0205] ++
  [0x0300, 0x0301, 0x0310, 0x0311, 0x0312, 0x0400, 0x0401, 0x0410, 0x0411, 0x0420, 0x0430, 0x0500, 0x0501, 0x0510, 0x0511] ++
  [0x0512, 0x0520, 0x0521, 0x0530, 0x0531, 0x0600, 0x0601, 0x0602, 0x0603, 0x0604, 0x0610, 0x0611, 0x0612, 0x0620, 0x0621] ++
  [0x0700, 0x0701, 0x0710, 0x0711, 0x0712, 0x0800, 0x0810, 0x0811, 0x0820, 0x0821, 0x0830, 0x0900, 0x0901, 0x0910, 0x0911] ++
  [0x0920, 0x0930, 0x0931, 0x0940, 0x0941, 0x0942, 0x0943]

/-- The opcode is implemented (R25, R456). -/
def isOpcode (op : Nat) : Bool := opcodes.elem op

/-- Opcodes of the ranges that may be bound: 0x0100 to 0x05FF (R377). -/
def mayBind (op : Nat) : Bool := isOpcode op && decide (0x0100 ≤ op ∧ op < 0x0600)

/-- Opcodes of bucket commands and UPD_RUN, which must be bound (R377). -/
def mustBind (op : Nat) : Bool := op == 0x0410 || op == 0x0411 || op == 0x0500

/-- The step commands that act on the step their header names (R377). -/
def namesStep (op : Nat) : Bool := decide (0x0600 ≤ op ∧ op ≤ 0x0604) || op == 0x0611 || op == 0x0612

/-- This device sends a weave (R412). -/
def weaveSender (y : Sys) : Bool := match y.stp.weave with
  | none => false
  | some w => w.sender

/-- The outcome of the step rules for a command (R377, R379). -/
inductive StepOutcome where
  | runs
  | shadow
  | aborted
  | waits
  | refused (st : Status)
deriving DecidableEq, Repr

/-- The table of R379 for a bound command that names step n; covered: it stood in a creel when STEP_PREPARE was
accepted. -/
def boundOutcome (y : Sys) (n : Nat) (covered : Bool) : StepOutcome :=
  let c := y.stp.lastCommit
  match y.stp.state with
  | .idle =>
    if n = c + 1 then (if y.stp.abortPending then .aborted else .waits) else .refused .stepMismatch
  | .opened => if n = c + 1 then .runs else if n = c + 2 then .waits else .refused .stepMismatch
  | _ =>
    if n = c + 1 then
      (if covered then .runs else if y.stp.shadow then .shadow else .refused .stepSealed)
    else if n = c + 2 then .waits else .refused .stepMismatch

/-- The step rules of R377 and R379 for an opcode and the step its header names. -/
def stepOutcome (y : Sys) (op n : Nat) (covered : Bool) : StepOutcome :=
  if mayBind op then
    (if n = 0 then (if mustBind op then .refused .stepMismatch else .runs) else boundOutcome y n covered)
  else if namesStep op then (if n = 0 then .refused .stepMismatch else .runs)
  else if n = 0 then .runs else .refused .stepMismatch

/-- Opcodes that the service creel may carry (R436). -/
def serviceOpcode (op : Nat) : Bool := decide (op < 0x0100) || decide (0x0700 ≤ op ∧ op < 0x0A00)

/-- The header checks of R436 that come before the step checks. -/
def headerCheck (op creel lane : Nat) (pk : Packet) : Option Status :=
  if pk.creel.toNat ≠ creelEnc creel ∨ pk.lane.toNat ≠ lane then some .paramRange
  else if creel = 64 ∧ serviceOpcode op = false then some .portScope
  else if flag pk.flags 0 = false ∧ pk.release ≠ 0 then some .paramRange
  else none

end Sys2Proof.Machine
end

