-- ==== Sys2Proof/Machine/Cmds.lean ====
section
/-! DEFINITION. Commands from packet to result: lanes and packets, readiness, the checks of R29 and R436, taking a
command up, and finishing it (R29, R432 to R446, R490, R498, R503, R591). -/

namespace Sys2Proof.Machine

open Sys2Proof

/-- Key of lane l of creel c; the service creel is creel 64 (R438). -/
def laneKey (c l : Nat) : Nat := 8 * c + l

/-- A lane. -/
def laneAt (y : Sys) (k : Nat) : Lane := mapGet {} y.cr.lanes k

/-- Replace a lane. -/
def setLane (k : Nat) (l : Lane) (y : Sys) : Sys := { y with cr := { y.cr with lanes := mapSet {} y.cr.lanes k l } }

/-- Free creel words of a lane (R438). -/
def freeWords (l : Lane) : Nat := 512 - l.queue.length

/-- Whole packets waiting: the end marks in the lane (R439, R474). -/
def packetsIn (l : Lane) : Nat := (l.queue.filter (fun w => w.2)).length

/-- The first packet of a lane: up to its end mark, at most n words (R435). -/
def headWords : Nat → List (BitVec 512 × Bool) → List (BitVec 512)
  | 0, _ => []
  | _, [] => []
  | n + 1, (w, e) :: r => if e then [w] else w :: headWords n r

/-- The packets of a lane as the device delineates them (R435). -/
def packetsOf : Nat → List (BitVec 512 × Bool) → List (List (BitVec 512))
  | 0, _ => []
  | n + 1, q => if q = [] then [] else headWords 32 q :: packetsOf n (q.drop (headWords 32 q).length)

/-- The packets that stand in a lane. -/
def standing (l : Lane) : List (List (BitVec 512)) := packetsOf l.queue.length l.queue

/-- Bytes of creel words (R8). -/
def wordsBytes (ws : List (BitVec 512)) : List Byte := (ws.map (fun w => leBytes 64 w.toNat)).flatten

/-- A field of n bytes at an offset of a record (R8). -/
def at8 (b : List Byte) (o n : Nat) : Nat := ofLe ((b.drop o).take n)

/-- 8-byte words of a byte list (R9). -/
def words8 : Nat → List Byte → List Word64
  | 0, _ => []
  | n + 1, b => BitVec.ofNat 64 (ofLe (b.take 8)) :: words8 n (b.drop 8)

/-- Parameter words a header announces (R432). -/
def plenOf (b : List Byte) : Nat := at8 b 22 2

/-- Creel words of a packet with n parameter words (R433). -/
def packetWords (n : Nat) : Nat := cdiv (32 + 8 * n) 64

/-- The packet that the bytes hold (R432). -/
def packetOf (b : List Byte) : Packet := {
  version := BitVec.ofNat 8 (at8 b 0 1), flags := BitVec.ofNat 8 (at8 b 1 1), tag := BitVec.ofNat 32 (at8 b 4 4),
  release := BitVec.ofNat 48 (at8 b 8 6), creel := BitVec.ofNat 8 (at8 b 14 1), lane := BitVec.ofNat 8 (at8 b 15 1),
  step := BitVec.ofNat 48 (at8 b 16 6), rsvd := BitVec.ofNat 32 (at8 b 24 4),
  params := words8 (plenOf b) (b.drop 32) }

/-- The packet breaks the framing rule of R435. -/
def badFraming (ws : List (BitVec 512)) : Bool :=
  decide (252 < plenOf (wordsBytes ws)) || ws.length != packetWords (plenOf (wordsBytes ws))

/-- The header CRC holds (R432, R434). -/
def crcHolds (b : List Byte) : Bool := at8 b 28 4 == crc32c (b.take 28 ++ (b.drop 32).take (8 * plenOf b))

/-- The creel that a header names, as an index; 64 for the service creel (R432). -/
def creelOf (pk : Packet) : Nat := if flag pk.creel 7 then 64 else fld pk.creel 0 6

/-- The lane from which such a packet is read (R432, R438). -/
def laneOf (pk : Packet) : Nat := if flag pk.creel 7 then 0 else fld pk.lane 0 3

/-- A FENCE of the lane still waits for its cover (R503). -/
def fenceHolds (y : Sys) (creel lane : Nat) : Bool :=
  y.cm.cmds.any (fun c => c.op == 1 && c.creel == creel && c.lane == lane && c.phase == .running)

/-- A command read from the lane waits for its unit to accept it (R446). -/
def laneForwarded (y : Sys) (creel lane : Nat) : Bool :=
  y.cm.cmds.any (fun c => c.creel == creel && c.lane == lane && c.phase == .forwarded)

/-- The device reads the creel: the block is up, not stopped or shutting down, no commit or handover holds the creels, and
the creel's session neither lapsed nor ends (R392, R427, R429, R430, R451, R504, R591, R603, R625). -/
def readsCreel (y : Sys) (creel : Nat) : Bool :=
  (y.pwr.phase == .ready || (y.pwr.phase == .recovery && creel == 64)) && !y.hs.silent && !y.hs.activeFaulted && !y.pwr.stopped &&
  y.pwr.sdSource == 0 && y.cm.commitWait == none && y.cm.handover == none &&
  (let ss := sessOf y (creel == 64)
   ss.state != .lapsed && ss.forced == none && !ss.closing)

/-- The release pick of a packet has been reached (R490). -/
def released (y : Sys) (pk : Packet) : Bool := !flag pk.flags 0 || decide (pk.release.toNat ≤ y.t.pick)

/-- The lanes a FENCE covers other than its own, as lane keys (R502, R503). -/
def fenceLanes (w own : Nat) : List Nat :=
  let creel := if nfld w 7 1 = 1 then 64 else nfld w 0 6
  let lanesOf := fun c => if c = 64 then [laneKey 64 0] else (List.range 8).map (fun l => laneKey c l)
  let all := match nfld w 16 2 with
    | 0 => ((List.range 65).map lanesOf).flatten
    | 1 => lanesOf creel
    | 2 => (lanesOf creel).filter (fun k => nfld w (8 + k % 8) 1 == 1)
    | _ => []
  all.filter (fun k => k != own)

/-- Fix the cover of a FENCE as it is read (R503). -/
def fixCover (y : Sys) (own : Nat) (c : Cmd) : Cmd :=
  let w := (c.pkt.params.headD 0).toNat
  let ls := fenceLanes w own
  let read := y.cm.cmds.filter (fun d => laneKey d.creel d.lane == own || ls.elem (laneKey d.creel d.lane))
  let stand := ls.foldl (fun m k => mapSet 0 m k (standing (laneAt y k)).length) []
  let n := stand.foldl (fun s p => s + p.2) 0
  { c with cover := read.map (fun d => d.id), coverLanes := stand, coverCount := read.length + n }

/-- Take a packet read from a lane into the list of commands; sealed marks a packet that stood in its creel when
STEP_PREPARE was accepted (R379, R503). -/
def newCmd (op creel lane words : Nat) (sealed : Bool) (pk : Packet) (y : Sys) : Sys :=
  let c : Cmd := { id := y.cm.nextId, op := op, pkt := pk, creel := creel, lane := lane, words := words, covered := sealed }
  let c := if op = 1 then fixCover y (laneKey creel lane) c else c
  { y with cm := { y.cm with cmds := y.cm.cmds ++ [c], nextId := y.cm.nextId + 1 } }

/-- The command's work has finished. -/
def isDone (c : Cmd) : Bool := match c.phase with
  | .done _ _ => true
  | _ => false

/-- A command finishes its work, once: its status and results are fixed, and the terms of its writes through back ranges
enter the digests; a partial write into a poisoned granule fails it, with no results (R228, R278, R389, R449, R498). -/
def finish (id : Nat) (st : Status) (res : List Word64) (y : Sys) : Sys :=
  match (findCmd y id).filter (fun c => !isDone c) with
  | none => y
  | some c =>
    let st' := if c.partialPoison && isSuccess st then .memUncorrectable else st
    let y := addDigests c.wrote y
    let y := if c.wrote ≠ [] ∧ isSuccess st' = false ∧ boundToOpen y c.pkt = true then setDirty 2 y else y
    modCmd id (fun c => { c with phase := .done st' (if st' = st then res else []), wrote := [] }) y

/-- A step-fatal or device-fatal status takes the place of a lesser one with which a command's work has finished, as long as
the command has not completed (R352, R360, R398, R638). -/
def overrule (id : Nat) (st : Status) (y : Sys) : Sys :=
  modCmd id (fun c => match c.phase with
    | .done s _ => if isDeviceFatal s || (isStepFatal s && !isDeviceFatal st) then c else { c with phase := .done st [] }
    | _ => c) y

/-- The command's unit accepted it, and it has not completed (R398, R638). -/
def isAccepted (c : Cmd) : Bool := match c.phase with
  | .forwarded => false
  | .running => true
  | .done st _ => !isRefusal st && !c.exempt

/-- Bits of parameter words that fields use: (lowest bit, width) pairs (R23, R174). -/
def bits (fs : List (Nat × Nat)) : Nat := fs.foldl (fun m f => m + (2 ^ f.2 - 1) * 2 ^ f.1) 0

/-- A whole word is a field. -/
def allBits : Nat := 2 ^ 64 - 1

/-- A reserved field of the parameter words carried is not zero (R24, R29). -/
def badReserved : List Nat → List Word64 → Bool
  | m :: ms, w :: ws => nfld w.toNat 0 64 &&& (2 ^ 64 - 1 - m) != 0 || badReserved ms ws
  | _, _ => false

/-- A reserved field of the header is not zero (R24, R432). -/
def badHeader (pk : Packet) : Bool :=
  fld pk.flags 1 7 != 0 || flag pk.creel 6 || fld pk.lane 3 5 != 0 || pk.rsvd != 0

/-- Parameter word i, zero where the packet lacks it. -/
def pw (pk : Packet) (i : Nat) : Nat := (pk.params.getD i 0).toNat

/-- A field of a parameter word. -/
def pf (pk : Packet) (i lo len : Nat) : Nat := nfld (pw pk i) lo len

/-- The packet carries word i and its field holds none of the codes listed (R25, R29). -/
def badCode (pk : Packet) (i lo len : Nat) (ok : List Nat) : Bool :=
  decide (i < pk.params.length) && !ok.elem (pf pk i lo len)

/-- The die or headstock whose trace unit records a command: units 0 to 17 for the command processor of a die, 26 for
Usdon firmware, which also refuses a packet that names no die of the device (R555, R556). -/
def traceUnitOf (op : Nat) (pk : Packet) : Nat :=
  let die :=
    if decide (0x0200 ≤ op ∧ op ≤ 0x0205) || op == 0x0110 || op == 0x0111 || op == 0x0301 then pf pk 0 32 12 / 128
    else if op = 0x0100 ∨ op = 0x0101 ∨ op = 0x0500 ∨ op = 0x0510 ∨ op = 0x0511 ∨ op = 0x0512 then pf pk 0 32 5
    else if op = 0x0300 then pf pk 0 32 5
    else if op = 0x0120 then pf pk 0 40 5
    else if decide (0x0310 ≤ op ∧ op ≤ 0x0312) then
      (if pf pk 0 56 2 = 0 then pf pk 0 32 12 / 128 else pf pk 0 48 5)
    else 26
  if die < 18 then die else 26

/-- Commands executed in recovery (R591). -/
def recoveryOk (op : Nat) (pk : Packet) : Bool := op == 0x0800 || op == 0x0821 || (op == 0x0820 && pf pk 0 0 1 == 1)

/-- What the general checks say of a command at its unit: checks 4, 5 and the start of check 6 of R29, in order. -/
inductive Verdict where
  | go (shadow : Bool)
  | wait
  | refuse (st : Status)
  | abort
deriving DecidableEq, Repr

/-- Checks 4 and 5 of R29, the header checks, the step checks and PARAM_LENGTH (R29, R173, R377, R379, R436, R591). -/
def verdict (y : Sys) (op : Nat) (layout : List Nat) (badEnum : Bool) (c : Cmd) : Verdict :=
  let pk := c.pkt
  let so := stepOutcome y op pk.step.toNat c.covered
  if so = .waits then .wait
  else if badHeader pk || badReserved layout pk.params then .refuse .reservedNonzero
  else if badEnum then .refuse .encodingReserved
  else match headerCheck op c.creel c.lane pk with
    | some st => .refuse st
    | none =>
      match so with
      | .refused st => .refuse st
      | .aborted => .abort
      | .waits => .wait
      | o =>
        if y.pwr.phase = .recovery ∧ recoveryOk op pk = false then .refuse .unitBusy
        else if pk.params.length ≠ layout.length then .refuse .paramLength
        else .go (o == .shadow)

/-- The unit that executes a command stands still: a command processor in reset, or of a die whose clocks have stopped
(R445, R600, R638). -/
def unitHeld (y : Sys) (op : Nat) (pk : Packet) : Bool :=
  let u := traceUnitOf op pk
  y.sec.heldInReset.elem u || (decide (u < 18) && dieStopped y u)

/-- Every command that the headstock forwarded to the same die before this one has arrived there (R36). -/
def inOrder (y : Sys) (op : Nat) (pk : Packet) (id : Nat) : Bool :=
  let u := traceUnitOf op pk
  u == 26 || y.cm.cmds.all (fun d =>
    decide (id ≤ d.id) || d.phase != .forwarded || d.delivered || traceUnitOf d.op d.pkt != u)

/-- CKPT_STREAM CANCEL, which is executed whether or not a commit or undo waits (R528). -/
def cancelsStream (op : Nat) (pk : Packet) : Bool := op == 0x0943 && pf pk 0 56 2 == 2

/-- A bucket command in progress: 64 of them have room on the device (R361). -/
def bucketBusy (y : Sys) (c : Cmd) : Bool :=
  (c.op == 0x0410 || c.op == 0x0411) && (c.phase == .forwarded || y.coll.buckets.any (fun b => b.cmd == c.id && !b.finished))

/-- The executing unit can take one more command of an opcode from the creels (R361, R445, R600). -/
def unitRoom (y : Sys) (op : Nat) (pk : Packet) : Bool :=
  !unitHeld y op pk && ((op != 0x0410 && op != 0x0411) || decide ((y.cm.cmds.filter (bucketBusy y)).length < 64))

/-- A forwarded command can meet its unit: Usdon firmware runs; or a die that holds it, which goes on through a fault of the
active headstock, or a handover (R36, R52, R392, R504, R528, R591, R603). -/
def unitMeets (y : Sys) (c : Cmd) : Bool :=
  (isUp y || y.pwr.phase == .recovery) && !y.hs.silent && (!y.hs.activeFaulted || traceUnitOf c.op c.pkt != 26) &&
  (y.cm.handover == none || traceUnitOf c.op c.pkt != 26) &&
  (y.cm.commitWait == none || cancelsStream c.op c.pkt) && inOrder y c.op c.pkt c.id && !unitHeld y c.op c.pkt

/-- A command waiting for its unit: one that the device read and forwarded, or the packet presented as its creel lane
would deliver it, where the device would read that lane now (R36, R445, R446). -/
def atUnit (op : Nat) (pk : Packet) (y : Sys) : Option (Sys × Cmd) :=
  match y.cm.cmds.find? (fun c => c.op == op && c.pkt == pk && c.phase == .forwarded) with
  | some c => if unitMeets y c then some (y, c) else none
  | none =>
    let creel := creelOf pk
    let lane := laneOf pk
    if readsCreel y creel && released y pk && !fenceHolds y creel lane && !laneForwarded y creel lane &&
        inOrder y op pk y.cm.nextId && unitRoom y op pk then
      let z := newCmd op creel lane (packetWords pk.params.length) false pk y
      z.cm.cmds.getLast?.map (fun c => (z, c))
    else none

/-- Accept a command: its phase, its shadow mark and the ACCEPT record (R379, R408, R445, R556). -/
def accept (c : Cmd) (shadow : Bool) (y : Sys) : Sys :=
  let u := traceUnitOf c.op c.pkt
  let y := modCmd c.id (fun d => { d with phase := .running, shadow := shadow }) y
  traceRec u 1 (stampNow y) c.op c.pkt.tag.toNat 0 (creelEnc c.creel) c.lane c.pkt.step.toNat y

/-- A command that has arrived at its unit and waits there (R36). -/
def deliver (id : Nat) (y : Sys) : Sys := modCmd id (fun c => { c with delivered := true }) y

/-- A command meets its unit: it waits, is refused, is aborted, or is accepted; an accepted command is the second
answer. -/
def meetUnit (op : Nat) (layout : List Nat) (badEnum : Packet → Bool) (ready : Cmd → Sys → Bool)
    (check : Cmd → Sys → Option (Status × List Word64)) (pk : Packet) (y : Sys) : Sys × Option Cmd :=
  match atUnit op pk y with
  | none => (y, none)
  | some (z, c) =>
    if pk.version ≠ 0x10 then (finish c.id .versionMismatch [] z, none)
    else match verdict z op layout (badEnum pk) c with
      | .wait => (deliver c.id y, none)
      | .refuse st => (finish c.id st [] z, none)
      | .abort => (modCmd c.id (fun d => { d with exempt := true }) (finish c.id .stepAborted [] z), none)
      | .go sh =>
        let c := { c with shadow := sh }
        if ready c z then
          match check c z with
          | some (st, res) => (finish c.id st res z, none)
          | none => (accept c sh z, some c)
        else (deliver c.id y, none)

/-- A command meets its unit, and an accepted command takes effect. -/
def execCommand (op : Nat) (layout : List Nat) (badEnum : Packet → Bool) (ready : Cmd → Sys → Bool)
    (check : Cmd → Sys → Option (Status × List Word64)) (effect : Cmd → Sys → Sys) (pk : Packet) (y : Sys) : Sys :=
  match meetUnit op layout badEnum ready check pk y with
  | (z, some c) => effect c z
  | (z, none) => z

/-- A unit that can always take the command up. -/
def always (_ : Cmd) (_ : Sys) : Bool := true

/-- A command with no checks of its own. -/
def noCheck (_ : Cmd) (_ : Sys) : Option (Status × List Word64) := none

/-- The first failing check of a list: each gives its status when it fails (R29, R175). -/
def firstFail : List (Bool × Status) → Option (Status × List Word64)
  | [] => none
  | (b, st) :: r => if b then some (st, []) else firstFail r

/-- The command treats back ranges as face ranges: step-free or in a shadow (R378, R408). -/
def backIsFace (c : Cmd) : Bool := c.pkt.step == 0 || c.shadow

end Sys2Proof.Machine
end

