-- ==== Sys2Proof/Machine/Operands.lean ====
section
/-! DEFINITION. Operand forms: shuttles, addresses and alignment, planes and pitches, yarn descriptors, and what an
uncorrectable store error does (R41, R65, R175 to R178, R189, R233 to R236, R507, R518, R519, R657). -/

namespace Sys2Proof.Machine

open Sys2Proof

/-- Where slot n stands in the mending map: none for a lost slot, else a position of its reed (R41, R519). -/
def positionOf (y : Sys) (n : Nat) : Option Nat :=
  match mapGet 0 y.nv.slots n with
  | 0 => some (n % 16)
  | v => if v = 99 then none else some (v - 1)

/-- A shuttle number that a command may not name: beyond 0x8FF, or a slot that lost its position (R176, R519). -/
def badShuttle (y : Sys) (n : Nat) : Bool := decide (0x8FF < n) || (positionOf y n).isNone

/-- The burler state of a die. -/
def burDie (y : Sys) (d : Nat) : BurlerDie := mapGet {} y.bur.dies d

/-- The first slot of a die from k on that has a position, in the rotation (R511). -/
def nextSlot (y : Sys) (d k : Nat) : Nat :=
  (((List.range 128).map (fun i => (k + i) % 128)).find? (fun j => (positionOf y (128 * d + j)).isSome)).getD (k % 128)

/-- A mend of logical shuttle n is in progress (R518). -/
def mending (y : Sys) (n : Nat) : Bool :=
  match (burDie y (n / 128)).mend with
  | none => false
  | some m => m.slot == n % 128

/-- The start of a plane is 64-byte aligned (R178). -/
def aligned64 (a : Nat) : Bool := a % 64 == 0

/-- A range of the store of shuttle k or of bonded DRAM (R177). -/
def inStoreOrDram (k a n : Nat) : Bool := inDram a n || inStore k a n

/-- A range of bonded DRAM or of some shuttle store (R221, R260). -/
def inDramOrStore (a n : Nat) : Bool := inDram a n || inSomeStore a n

/-- Bytes of one row of n elements (R76, R96, R657). -/
def rowBytes (f : Fmt) (n : Nat) : Nat :=
  if isBlockFmt f then cdiv n 32 * blockBytes f else cdiv (n * fmtWidth f) 8

/-- Bytes of one scale row of n elements (R657). -/
def scaleRowBytes (f : Fmt) (n : Nat) : Nat := if isBlockFmt f then cdiv n 32 else 0

/-- Bytes spanned by rows at a pitch. -/
def spanBytes (rows pitch row : Nat) : Nat := (rows - 1) * pitch + row

/-- A pitch that holds neither zero nor at least the bytes of one row (R657). -/
def shortPitch (pitch row : Nat) : Bool := decide (pitch ≠ 0) && decide (pitch < row)

/-- Codes of the formats, 0x00 apart (R63). -/
def fmtCodes : List Nat :=
  [0x01, 0x02, 0x03, 0x04, 0x05, 0x06, 0x07, 0x08, 0x10, 0x11, 0x12, 0x13, 0x14, 0x15, 0x20, 0x21, 0x22, 0x30, 0x31]

/-- Scalar elements of a row from memory, n of them (R68, R77). -/
def rowScalars (y : Sys) (f : Fmt) (a n : Nat) : List Dec :=
  (unpackCodes (fmtWidth f) n (readBytes y a (rowBytes f n))).map (fun c => decodeFmt f c 0)

/-- Elements of a row in a block format, n of them, with the scales at s (R68, R76, R78). -/
def rowBlocks (y : Sys) (f : Fmt) (a s n : Nat) : List Dec :=
  let blk := fun b =>
    let sc := (readByte y (s + b)).toNat
    (unpackCodes (fmtWidth f) 32 (readBytes y (a + b * blockBytes f) (blockBytes f))).map (fun c => decodeFmt f c sc)
  (((List.range (cdiv n 32)).map blk).flatten).take n

/-- Elements of a row in any format (R180, R181). -/
def rowElems (y : Sys) (f : Fmt) (a s n : Nat) : List Dec :=
  if isBlockFmt f then rowBlocks y f a s n else rowScalars y f a n

/-- Mark the open tiles of one tile position failed (R189). -/
def failPos (p : TilePos) : TilePos :=
  let ex := if p.exact.status = .closed then p.exact else { p.exact with failed := true }
  { p with exact := ex, narrow := p.narrow.map (fun t => if t.status = .closed then t else { t with failed := true }) }

/-- Mark every open tile of a logical shuttle failed (R189, R507, R515). -/
def failTiles (n : Nat) (y : Sys) : Sys :=
  let tiles := (List.range 8).foldl (fun m t => mapMod {} m (8 * n + t) failPos) y.acc.tiles
  { y with acc := { y.acc with tiles := tiles } }

/-- Schedule the position behind a logical shuttle for an out-of-turn test; positions are numbered 17 × reed + q
(R507, R512). -/
def scheduleTest (n : Nat) (y : Sys) : Sys :=
  match positionOf y n with
  | none => y
  | some q =>
    let pos := 17 * (n / 16) + q
    let add := fun (b : BurlerDie) => if pos ∈ b.outOfTurn then b else { b with outOfTurn := b.outOfTurn ++ [pos] }
    { y with bur := { y.bur with dies := mapMod {} y.bur.dies (n / 128) add } }

/-- An uncorrectable error in the store or file of logical shuttle n (R507). -/
def storeError (n : Nat) (y : Sys) : Sys := scheduleTest n (failTiles n y)

/-- A command consumes [a, a + n): nothing to report, or the state after the report of the poison it met; source is
the code of R265 (R228, R507). -/
def consume (source a n : Nat) (y : Sys) : Option Sys :=
  if a < dramEnd then
    match poisonIn y a n with
    | none => none
    | some g => some (reportPoison g source y)
  else if badWordIn y a n then
    match storeShuttle a with
    | none => some y
    | some k => some (storeError k y)
  else none

/-- The same over several ranges, in order. -/
def consumeAll (source : Nat) (y : Sys) : List (Nat × Nat) → Option Sys
  | [] => none
  | (a, n) :: r => match consume source a n y with
    | some z => some z
    | none => consumeAll source y r

/-! ### Yarn descriptors (R233 to R236) -/

/-- The layout of a descriptor's six words (R233). -/
def descLayout : List Nat := [bits [(56, 8), (48, 8), (32, 2), (0, 32)], allBits, allBits, allBits, allBits, allBits]

/-- A descriptor: its format, run bytes, planes, and counts and strides of its dimensions (R233). -/
structure Desc where
  fmt : Option Fmt
  run : Nat
  base : Nat
  scale : Nat
  counts : List Nat
  strides : List Int
deriving DecidableEq, Repr

/-- The descriptor in words i to i + 5 (R233, R235). -/
def descOf (pk : Packet) (i : Nat) : Desc :=
  let dims := pf pk i 32 2
  { fmt := fmtOf (pf pk i 48 8), run := pf pk i 0 32, base := pw pk (i + 1), scale := pw pk (i + 2),
    counts := (List.range 3).map (fun k => if k < dims then pf pk (i + 3 + k) 40 24 else 1),
    strides := (List.range 3).map (fun k => if k < dims then sext (pf pk (i + 3 + k) 0 40) 40 else 0) }

/-- Block bytes of the descriptor's format, zero without block scales (R236). -/
def descBlock (d : Desc) : Nat := match d.fmt with
  | some f => if isBlockFmt f then blockBytes f else 0
  | none => 0

/-- The field rules of R234 and R236 fail. -/
def badDescFields (pk : Packet) (i : Nat) : Bool :=
  let d := descOf pk i
  let bb := descBlock d
  let dims := pf pk i 32 2
  d.run % 64 != 0 || decide (d.run < 64) || decide (2 ^ 24 < d.run) || (bb != 0 && d.run % bb != 0) ||
  (List.range 3).any (fun k =>
    if k < dims then d.counts.getD k 0 == 0 || (d.strides.getD k 0) % 64 != 0 ||
        (bb != 0 && (d.strides.getD k 0) % Int.ofNat bb != 0)
    else pw pk (i + 3 + k) != 0) ||
  (if bb = 0 then d.scale != 0 else d.scale == 0 || d.scale % 64 != 0)

/-- Number of runs. -/
def descRuns (d : Desc) : Nat := d.counts.foldl (fun a b => a * b) 1

/-- Bytes of the element stream (R234). -/
def descBytes (d : Desc) : Nat := descRuns d * d.run

/-- Scale bytes of the stream (R236). -/
def descScales (d : Desc) : Nat := if descBlock d = 0 then 0 else descBytes d / descBlock d

/-- The least and the greatest offset of a run. -/
def descReach (d : Desc) : Int × Int :=
  (d.counts.zip d.strides).foldl (fun r p =>
    let e := Int.ofNat (p.1 - 1) * p.2
    if e < 0 then (r.1 + e, r.2) else (r.1, r.2 + e)) (0, 0)

/-- The runs leave bonded DRAM, exceed 4 MiB, or the base is not aligned (R178, R234). -/
def badDescAddr (d : Desc) : Bool :=
  let r := descReach d
  let bb := Int.ofNat (descBlock d)
  decide (0x400000 < descBytes d) || !aligned64 d.base ||
  decide (Int.ofNat d.base + r.1 < 0) || decide (Int.ofNat dramEnd < Int.ofNat d.base + r.2 + Int.ofNat d.run) ||
  (bb != 0 && (decide (Int.ofNat d.scale + r.1 / bb < 0) ||
    decide (Int.ofNat dramEnd < Int.ofNat d.scale + (r.2 + Int.ofNat d.run) / bb)))

/-- The first run of a descriptor and of its scales. -/
def descFirst (d : Desc) : List (Nat × Nat) :=
  (d.base, d.run) :: if descBlock d = 0 then [] else [(d.scale, d.run / descBlock d)]

/-- The offset of run r, dimension 1 fastest (R235). -/
def runOffset (d : Desc) (r : Nat) : Int :=
  let c1 := d.counts.getD 0 1
  let c2 := d.counts.getD 1 1
  Int.ofNat (r % c1) * d.strides.getD 0 0 + Int.ofNat (r / c1 % c2) * d.strides.getD 1 0 +
    Int.ofNat (r / c1 / c2) * d.strides.getD 2 0

/-- The address of byte i of the element stream (R235). -/
def streamAddr (d : Desc) (i : Nat) : Nat :=
  (Int.ofNat d.base + runOffset d (i / d.run)).toNat + i % d.run

/-- The address of scale byte i of the stream (R236). -/
def scaleAddr (d : Desc) (i : Nat) : Nat :=
  let per := d.run / descBlock d
  (Int.ofNat d.scale + runOffset d (i / per) / Int.ofNat (descBlock d)).toNat + i % per

end Sys2Proof.Machine
end

