-- ==== Sys2Proof/Machine/Warp.lean ====
section
/-! DEFINITION. Sending over warp ports: ports, the retry buffer, the forwarding table and the twin link
(R46, R319 to R324, R406). -/

namespace Sys2Proof.Machine

open Sys2Proof

/-- A warp port. -/
def portAt (y : Sys) (w : Nat) : PortSt := mapGet {} y.lnk.ports w

/-- Change a warp port. -/
def onPort (w : Nat) (f : PortSt → PortSt) (y : Sys) : Sys :=
  { y with lnk := { y.lnk with ports := mapMod {} y.lnk.ports w f } }

/-- The port is UP (R320). -/
def portUp (y : Sys) (w : Nat) : Bool := (portAt y w).state == 2

/-- A packet of another device can arrive at a port: it is UP, and no packet stands there under flow control (R319, R338). -/
def portTakes (y : Sys) (w : Nat) : Bool := portUp y w && !y.coll.stalled.any (fun p => p.port == w)

/-- Send a packet through a port that is UP, keeping it until the peer acknowledges it; at any other port it stays queued
and is not delivered (R319, R321). -/
def sendWarp (w : Nat) (m : WarpMsg) (y : Sys) : Sys :=
  if portUp y w then
    onPort w (fun p => { p with txSeq := p.txSeq + 1, retry := p.retry ++ [{ seq := p.txSeq + 1, msg := m }], out := p.out ++ [m] }) y
  else onPort w (fun p => { p with undelivered := p.undelivered ++ [m] }) y

/-- The value of LINK.PORT_STATE (R370). -/
def portStateReg (y : Sys) (w : Nat) : Nat :=
  let p := portAt y w
  0x10 * 2 ^ 56 + p.peerDevice * 2 ^ 40 + p.peerPort * 2 ^ 32 + p.lanesOk.toNat * 2 ^ 24 + b2n p.peerValid * 2 ^ 17 +
  b2n (w == 7 || w == 31 || w == 39 || w == 63) * 2 ^ 16 + b2n p.faultEvent * 2 ^ 8 + p.state

/-- The twin-link ports (R46). -/
def twinPorts : List Nat := [7, 31, 39, 63]

/-- The twin-link ports that are UP (R322). -/
def upTwin (y : Sys) : List Nat := twinPorts.filter (portUp y)

/-- The twin-link port that carries a packet of a bucket tag and shard (R322, log 16). -/
def twinPortFor (y : Sys) (a b : Nat) : Option Nat :=
  let ups := upTwin y
  ups[Config.twinPort a b % ups.length]?

/-- Send over the twin link; while no port of it is UP the packet stays queued (R322). -/
def sendTwin (a b : Nat) (m : WarpMsg) (y : Sys) : Sys :=
  match twinPortFor y a b with
  | none => sendWarp 7 m y
  | some w => sendWarp w m y

/-- The twin link carries traffic: AGREED is 1, MODE is not NONE (R406). -/
def twinOn (y : Sys) : Bool := y.stp.agreed && y.stp.twinMode != .none

/-- The device holds a route to another device (R324). -/
def fwdTo (y : Sys) (dev : Nat) : Nat := mapGet 0xFF y.coll.fwd dev

/-- The port to another device: its entry's port, or a twin-link port under 0xFE (R324). -/
def portTo (y : Sys) (dev : Nat) : Option Nat :=
  let e := fwdTo y dev
  if e < 64 then some e else if e = 0xFE then twinPortFor y dev 0 else none

/-- The device's own number, once written (R323, R372). -/
def ownNumber (y : Sys) (dev : Nat) : Bool := y.coll.selfValid && y.coll.selfDev.toNat == dev

end Sys2Proof.Machine
end

