-- ==== Sys2Proof/Machine/CmdMemory.lean ====
section
/-! DEFINITION. The memory commands: MEM_COPY, MEM_FILL, YARN_LOAD, YARN_STORE and MEM_RETRAIN (R253, R256 to R263). -/

namespace Sys2Proof.Machine

open Sys2Proof

/-- The shuttle that a command names, where its opcode has the field (R176, R214, R257). -/
def shuttleOf (op : Nat) (pk : Packet) : Option Nat :=
  if decide (0x0200 ≤ op ∧ op ≤ 0x0205) || op == 0x0110 || op == 0x0111 || op == 0x0301 then some (pf pk 0 32 12)
  else if decide (0x0310 ≤ op ∧ op ≤ 0x0312) && pf pk 0 56 2 == 0 then some (pf pk 0 32 12)
  else none

/-- An earlier command of the same lane that names the same shuttle still works, other than an ACC_DISCARD, which writes
nothing (R179, R247). In the model a command's reads and writes of a store end with its work. -/
def priorShuttle (y : Sys) (c : Cmd) (n : Nat) : Bool :=
  y.cm.cmds.any (fun d => decide (d.id < c.id) && d.creel == c.creel && d.lane == c.lane && d.phase == .running &&
    d.op != 0x0205 && shuttleOf d.op d.pkt == some n)

/-- The engines of a shuttle that execute one command at a time (R203). -/
inductive ShuttleEngine where
  | tensor | vector | readout
deriving DecidableEq, Repr

/-- The shuttle and the engine that execute a command (R203, R214). -/
def engineOf (op : Nat) (pk : Packet) : Option (Nat × ShuttleEngine) :=
  (shuttleOf op pk).bind (fun n =>
    if op = 0x0201 then some (n, .tensor)
    else if op = 0x0202 ∨ op = 0x0203 then some (n, .readout)
    else if op = 0x0204 ∨ op = 0x0301 ∨ decide (0x0310 ≤ op ∧ op ≤ 0x0312) = true then some (n, .vector)
    else none)

/-- A command that names shuttle n can start: no mend of it is in progress and no earlier command of its lane on that
shuttle still works (R179, R247, R518). -/
def shuttleReady (n : Nat) (c : Cmd) (y : Sys) : Bool := !mending y n && !priorShuttle y c n

/-- A ready command of a higher lane waits for the same engine: the shuttle takes it first (R203). -/
def engineTaken (c : Cmd) (y : Sys) : Bool :=
  (engineOf c.op c.pkt).isSome && y.cm.cmds.any (fun d => d.phase == .forwarded && decide (c.lane < d.lane) &&
    engineOf d.op d.pkt == engineOf c.op c.pkt && stepOutcome y d.op d.pkt.step.toNat d.covered != .waits &&
    !priorShuttle y d ((shuttleOf d.op d.pkt).getD 0))

/-- A granule of the copies that a poisoned MEM_COPY still makes: each other granule is copied or not, as a free value
says (R261, log 1). -/
def copySome (c : Cmd) (src dst : Nat) : Nat → Sys → Sys
  | 0, y => y
  | n + 1, y =>
    let y := copySome c src dst n y
    let a := src + 64 * n
    let r := freshWord y
    if poisonIn y a 64 = none ∧ badWordIn y a 64 = false ∧ r.1.toNat % 2 = 1 then
      writeBytes (some c.id) (dst + 64 * n) (readBytes y a 64) r.2
    else r.2

/-- The same towards another device, with the number of writes sent. -/
def sendSome (c : Cmd) (w self dev src dst : Nat) : Nat → Sys → Nat × Sys
  | 0, y => (0, y)
  | n + 1, y =>
    let q := sendSome c w self dev src dst n y
    let a := src + 64 * n
    let r := freshWord q.2
    if poisonIn q.2 a 64 = none ∧ badWordIn q.2 a 64 = false ∧ r.1.toNat % 2 = 1 then
      (q.1 + 1, sendWarp w (.memWrite self dev c.id (dst + 64 * n) (backIsFace c) (readBytes q.2 a 64)) r.2)
    else (q.1, r.2)

/-- A local copy (R260, R261, R277). -/
def copyLocal (c : Cmd) (src dst n : Nat) (y : Sys) : Sys :=
  if protectedHit y (backIsFace c) dst n then finish c.id .stateFaceWrite [] y
  else match consume 3 src n y with
    | some z => finish c.id .memUncorrectable [] (copySome c src dst (n / 64) z)
    | none => finish c.id .ok [] (writeBytes (some c.id) dst (readBytes y src n) y)

/-- The command waits for the reports of so many writes on another device, and then ends with a status (R228, R261). -/
def awaitReports (c : Cmd) (dev w left : Nat) (st : Status) (y : Sys) : Sys :=
  if left = 0 then finish c.id st [] y
  else { y with mem := { y.mem with remote := y.mem.remote ++ [{ cmd := c.id, device := dev, port := w, left := left, st := st }] } }

/-- A copy to another device: its bytes leave, and the command waits for the reports; over a poisoned source some granules
leave (R228, R261). R321 gives LINK_DOWN for a port in FAULT; the copy ends with it also where the port is DOWN or TRAINING,
or no port of the twin link is UP, as it starts (DESIGN CHOICE; log 53). -/
def copyRemote (c : Cmd) (dev src dst n : Nat) (y : Sys) : Sys :=
  let self := y.coll.selfDev.toNat
  match portTo y dev with
  | none => finish c.id .linkDown [] y
  | some w =>
    if portUp y w = false then finish c.id .linkDown [] y
    else match consume 3 src n y with
      | some z =>
        let q := sendSome c w self dev src dst (n / 64) z
        awaitReports c dev w q.1 .memUncorrectable q.2
      | none => awaitReports c dev w 1 .ok (sendWarp w (.memWrite self dev c.id dst (backIsFace c) (readBytes y src n)) y)

/-- MEM_COPY (R254, R260, R261, R613). R613 gives DEBUG_CLOSED no place among the checks of R175: the model makes it before
the check of addresses, which an address of the accumulator files would fail (DESIGN CHOICE; log 99). -/
def execMemCopy (pk : Packet) (s : State) : Host.Outcome State Fault Refusal :=
  let die := pf pk 0 32 5
  let src := pw pk 1
  let n := pf pk 3 0 40
  let dev := nfld (pw pk 2) 54 10
  let glob := pf pk 0 0 1 == 1
  let dst := if glob then nfld (pw pk 2) 0 54 else pw pk 2
  let away := fun (y : Sys) => glob && !ownNumber y dev
  let check := fun (p : Perm) (c : Cmd) (y : Sys) => firstFail
    [(decide (17 < die), .paramRange),
     (n % 64 != 0 || decide (n < 64) || decide (2 ^ 39 < n), .paramRange),
     (!away y && overlap src n dst n, .paramRange),
     (fileClosed p [(src, n)], .debugClosed),
     (!aligned64 src || !aligned64 dst || !inDramOrStore src n, .addrRange),
     (if away y then !inDram dst n else !inDramOrStore dst n, .addrRange),
     (away y && c.shadow, .shadowMode),
     (away y && fwdTo y dev == 0xFF, .remoteUnreachable)]
  let effect := fun (c : Cmd) (y : Sys) => if away y then copyRemote c dev src dst n y else copyLocal c src dst n y
  let ready := fun (_ : Cmd) (y : Sys) => !anyHeld y ((src, n) :: if away y then [] else [(dst, n)])
  onSys s (fun p y => execCommand 0x0100 [bits [(32, 5), (0, 1)], allBits, allBits, bits [(0, 40)]]
    (fun _ => false) ready (check p) effect pk y)

/-- Repeat an 8-byte pattern over n bytes (R262). -/
def patternBytes (p : Nat) : Nat → List Byte
  | 0 => []
  | k + 1 => leBytes 8 p ++ patternBytes p k

/-- MEM_FILL (R254, R262). -/
def execMemFill (pk : Packet) (s : State) : Host.Outcome State Fault Refusal :=
  let dst := pw pk 1
  let n := pf pk 2 0 40
  let check := fun (_ : Cmd) (_ : Sys) => firstFail
    [(decide (17 < pf pk 0 32 5), .paramRange),
     (n % 64 != 0 || decide (n < 64) || decide (2 ^ 39 < n), .paramRange),
     (!aligned64 dst || !inDramOrStore dst n, .addrRange)]
  let effect := fun (c : Cmd) (y : Sys) =>
    if protectedHit y (backIsFace c) dst n then finish c.id .stateFaceWrite [] y
    else finish c.id .ok [] (writeBytes (some c.id) dst (patternBytes (pw pk 3) (n / 8)) y)
  let ready := fun (_ : Cmd) (y : Sys) => !rangeHeld y dst n
  onSys s (fun _ y => execCommand 0x0101 [bits [(32, 5)], allBits, bits [(0, 40)], allBits]
    (fun _ => false) ready check effect pk y)

/-! ### Yarns -/

/-- A YARN_LOAD: destination planes and output format (R257). -/
structure LoadOp where
  shuttle : Nat
  out : Option Fmt
  conv : Nat
  kib : Nat
  desc : Desc
  dest : Nat
  destScale : Nat
deriving DecidableEq, Repr

/-- The fields of a YARN_LOAD packet (R257). -/
def loadOf (pk : Packet) : LoadOp :=
  { shuttle := pf pk 0 32 12, out := if pf pk 0 24 8 = 0 then none else fmtOf (pf pk 0 24 8), conv := pf pk 0 16 8,
    kib := pf pk 0 0 16, desc := descOf pk 1, dest := pw pk 7, destScale := pw pk 8 }

/-- Bytes of source per block of a quantizing load: 32 elements of FP32 or BF16 (R237). -/
def quantBlock (l : LoadOp) : Nat := match l.desc.fmt with
  | some .fp32 => 128
  | _ => 64

/-- Element bytes that the command writes (R257). -/
def loadElems (l : LoadOp) : Nat := match l.out with
  | some f => descBytes l.desc / quantBlock l * blockBytes f
  | none => descBytes l.desc

/-- Scale bytes that the command writes (R257). -/
def loadScales (l : LoadOp) : Nat := match l.out with
  | some _ => descBytes l.desc / quantBlock l
  | none => descScales l.desc

/-- Steps of consumption: a block when quantizing, else a granule; then the scale bytes of each run. -/
def loadUnits (l : LoadOp) : Nat := match l.out with
  | some _ => descBytes l.desc / quantBlock l
  | none => descBytes l.desc / 64 + (if descScales l.desc = 0 then 0 else descRuns l.desc)

/-- Source bytes that a unit of consumption reads: address and count. -/
def unitSource (l : LoadOp) (i : Nat) : Nat × Nat := match l.out with
  | some _ => (streamAddr l.desc (i * quantBlock l), quantBlock l)
  | none =>
    let g := descBytes l.desc / 64
    if i < g then (streamAddr l.desc (i * 64), 64)
    else
      let per := l.desc.run / descBlock l.desc
      (scaleAddr l.desc ((i - g) * per), per)

/-- What a unit writes into the shuttle store: pairs of address and bytes (R237, R258). -/
def unitWrites (l : LoadOp) (i : Nat) (src : List Byte) : List (Nat × List Byte) := match l.out with
  | some f =>
    let sf := l.desc.fmt.getD .fp32
    let xs := (unpackCodes (fmtWidth sf) 32 src).map (fun c => (decodeFmt sf c 0, (none : Option Nat)))
    let b := toBlock f (l.conv % 4 == 1) xs
    [(l.dest + i * blockBytes f, packCodes (fmtWidth f) b.codes), (l.destScale + i, leBytes 1 b.scale)]
  | none =>
    let g := descBytes l.desc / 64
    if i < g then [(l.dest + i * 64, src)]
    else [(l.destScale + (i - g) * (l.desc.run / descBlock l.desc), src)]

/-- A yarn engine. -/
def yarnAt (y : Sys) (n : Nat) : YarnSt := mapGet {} y.yarn n

/-- Replace a yarn engine. -/
def setYarn (n : Nat) (st : YarnSt) (y : Sys) : Sys := { y with yarn := mapSet {} y.yarn n st }

/-- The granules that the units of a load from i on read, as the engine names them. -/
def loadGranules (l : LoadOp) (i : Nat) : List Nat :=
  ((List.range (loadUnits l)).drop i).flatMap (fun u =>
    let r := unitSource l u
    (List.range (cdiv (r.1 % 64 + r.2) 64)).map (fun k => r.1 / 64 + k))

/-- Up to three YARN_LOADs of the shuttle that stand queued behind the running one in its lane, those of an aborted
step apart (R238, R242). -/
def queuedLoads (y : Sys) (n : Nat) : List LoadOp :=
  let k := (yarnAt y n).lane
  let read := (y.cm.cmds.filter (fun c => laneKey c.creel c.lane == k && c.phase == .forwarded && c.op == 0x0110)).map (fun c => c.pkt)
  let waiting := ((standing (laneAt y k)).map wordsBytes).filter (fun b => at8 b 2 2 == 0x0110 && plenOf b == 9)
  let live := fun (pk : Packet) => !(y.stp.abortPending && !stepOpen y && pk.step.toNat == openStep y)
  ((((read ++ waiting.map packetOf).filter live).map loadOf).filter (fun l => l.shuttle == n)).take 3

/-- The running YARN_LOAD of a shuttle. -/
def runningLoad (y : Sys) (n : Nat) : Option LoadOp := match (yarnAt y n).cmd with
  | none => none
  | some i => (findCmd y i).map (fun c => loadOf c.pkt)

/-- The physical granules that the running load has still to read, and those of the loads queued behind it, in stream
order (R238). -/
def servedGranules (y : Sys) (n : Nat) : List Nat :=
  let own := match runningLoad y n with
    | none => []
    | some l => loadGranules l (yarnAt y n).pos
  (own ++ (queuedLoads y n).flatMap (fun l => loadGranules l 0)).map (fun g => translateAddr y (g * 64) / 64)

/-- The physical granules that run-ahead may read, in stream order, within the depth set for the running command; none
while no YARN_LOAD runs (R238, R267). -/
def aheadGranules (y : Sys) (n : Nat) : List Nat := match runningLoad y n with
  | none => []
  | some l =>
    let kib := if l.kib = 0 then (mapGet {} y.mem.dies (n / 128)).defaultKib.toNat else l.kib
    (servedGranules y n).take (16 * kib)

/-- Cancel the copies that serve no load any more (R242). -/
def trimCopies (n : Nat) (y : Sys) : Sys :=
  if (yarnAt y n).copies = [] then y
  else
    let keep := servedGranules y n
    dropCopies n (fun c => !keep.elem c.granule) false y

/-- The same at every shuttle: a command or a queued load has gone (R242). -/
def trimAll (y : Sys) : Sys := (y.yarn.map (fun p => p.1)).foldl (fun y n => trimCopies n y) y

/-- End the YARN_LOAD of a shuttle: the engine is free, and copies that serve no queued load are cancelled (R242). -/
def endYarn (n : Nat) (y : Sys) : Sys :=
  trimCopies n (setYarn n { yarnAt y n with cmd := none, pos := 0 } y)

/-- YARN_LOAD (R247, R257, R258): checks, and the start of the stream; its writes wait for the lane's earlier commands on the
shuttle (R659). -/
def execYarnLoad (pk : Packet) (s : State) : Host.Outcome State Fault Refusal :=
  let l := loadOf pk
  let quant := l.out.isSome
  let badPair := match l.out with
    | none => false
    | some f => !isBlockFmt f || !(l.desc.fmt == some .fp32 || l.desc.fmt == some .bf16)
  let check := fun (p : Perm) (_ : Cmd) (y : Sys) => firstFail
    [(badShuttle y l.shuttle, .paramRange),
     (badPair, .formatPair),
     (decide (256 < l.kib) || (!quant && l.conv != 0) || badDescFields pk 1 ||
        (quant && l.desc.run % quantBlock l != 0) ||
        (loadScales l == 0 && l.destScale != 0), .paramRange),
     (fileClosed p (descFirst l.desc), .debugClosed),
     (badDescAddr l.desc || !aligned64 l.dest || !aligned64 l.destScale ||
        !inStore l.shuttle l.dest (loadElems l) ||
        (loadScales l != 0 && !inStore l.shuttle l.destScale (loadScales l)), .addrRange)]
  let ready := fun (_ : Cmd) (y : Sys) => !mending y l.shuttle && (yarnAt y l.shuttle).cmd == none
  let effect := fun (c : Cmd) (y : Sys) =>
    setYarn l.shuttle { yarnAt y l.shuttle with cmd := some c.id, pos := 0, lane := laneKey c.creel c.lane } y
  let badEnum := fun (pk : Packet) =>
    badCode pk 0 24 8 (0 :: fmtCodes) || badCode pk 0 16 2 [0, 1] ||
    badCode pk 1 56 8 [0x10] || badCode pk 1 48 8 fmtCodes
  let layout := [bits [(32, 12), (24, 8), (16, 2), (0, 16)]] ++ descLayout ++ [allBits, allBits]
  onSys s (fun p y => trimCopies l.shuttle (execCommand 0x0110 layout badEnum ready (check p) effect pk y))

/-- Write several pieces in order. -/
def writeAll (id : Nat) : List (Nat × List Byte) → Sys → Sys
  | [], y => y
  | (a, b) :: r, y => writeAll id r (writeBytes (some id) a b y)

/-- The runs that a YARN_STORE writes: element runs, and scale runs for a block format (R259). -/
def storeRuns (d : Desc) : List (Nat × Nat) :=
  (List.range (descRuns d)).map (fun r => (streamAddr d (r * d.run), d.run)) ++
  (if descBlock d = 0 then [] else
    (List.range (descRuns d)).map (fun r => (scaleAddr d (r * (d.run / descBlock d)), d.run / descBlock d)))

/-- Cut source bytes into the runs. -/
def cutRuns : List (Nat × Nat) → List Byte → List (Nat × List Byte)
  | [], _ => []
  | (a, n) :: r, b => (a, b.take n) :: cutRuns r (b.drop n)

/-- YARN_STORE (R254, R259): no rule of R659 orders it behind the lane's other commands on the shuttle. -/
def execYarnStore (pk : Packet) (s : State) : Host.Outcome State Fault Refusal :=
  let n := pf pk 0 32 12
  let d := descOf pk 1
  let src := pw pk 7
  let ssrc := pw pk 8
  let check := fun (p : Perm) (_ : Cmd) (y : Sys) => firstFail
    [(badShuttle y n, .paramRange),
     (badDescFields pk 1 || (descBlock d == 0 && ssrc != 0), .paramRange),
     (fileClosed p [(src, descBytes d), (ssrc, descScales d)], .debugClosed),
     (badDescAddr d || !aligned64 src || !aligned64 ssrc || !inStore n src (descBytes d) ||
        (descBlock d != 0 && !inStore n ssrc (descScales d)), .addrRange)]
  let ready := fun (_ : Cmd) (y : Sys) => !mending y n && (yarnAt y n).cmd == none && !anyHeld y (storeRuns d)
  let effect := fun (c : Cmd) (y : Sys) =>
    if (storeRuns d).any (fun r => protectedHit y (backIsFace c) r.1 r.2) then finish c.id .stateFaceWrite [] y
    else match consumeAll 1 y ([(src, descBytes d)] ++ if descBlock d = 0 then [] else [(ssrc, descScales d)]) with
      | some z => finish c.id .memUncorrectable [] z
      | none =>
        let data := readBytes y src (descBytes d) ++ (if descBlock d = 0 then [] else readBytes y ssrc (descScales d))
        finish c.id .ok [] (writeAll c.id (cutRuns (storeRuns d) data) y)
  let badEnum := fun (pk : Packet) => badCode pk 1 56 8 [0x10] || badCode pk 1 48 8 fmtCodes
  onSys s (fun p y => execCommand 0x0111 ([bits [(32, 12)]] ++ descLayout ++ [allBits, allBits])
    badEnum ready (check p) effect pk y)

/-- MEM_RETRAIN (R253, R254, R263). -/
def execMemRetrain (pk : Packet) (s : State) : Host.Outcome State Fault Refusal :=
  let check := fun (_ : Cmd) (_ : Sys) => firstFail [(decide (17 < pf pk 0 40 5), .paramRange)]
  let ready := fun (_ : Cmd) (y : Sys) => y.mem.retrain == none
  let effect := fun (c : Cmd) (y : Sys) =>
    let r : Retrain := { cmd := c.id, stack := pf pk 0 40 5, channel := pf pk 0 0 8, start := y.t.timeBase }
    { y with mem := { y.mem with retrain := some r } }
  onSys s (fun _ y => execCommand 0x0120 [bits [(40, 5), (0, 8)]] (fun _ => false) ready check effect pk y)

end Sys2Proof.Machine
end

