-- ==== Sys2Proof/Machine/Tensor.lean ====
section
/-! DEFINITION. The arithmetic of one tile: preloads, chunks of products, replay and readout
(R100 to R142, R145, R146, R147 to R167, R171, R180, R181, R192 to R194). -/

namespace Sys2Proof.Machine

open Sys2Proof

/-- A tile position of a shuttle (R100, R148). -/
def tileAt (y : Sys) (n t : Nat) : TilePos := mapGet {} y.acc.tiles (8 * n + t)

/-- Replace a tile position. -/
def setTile (n t : Nat) (p : TilePos) (y : Sys) : Sys :=
  { y with acc := { y.acc with tiles := mapSet {} y.acc.tiles (8 * n + t) p } }

/-- A narrow tile of a position (R147). -/
def narrowAt (p : TilePos) (u : Nat) : NarrowTile := p.narrow.getD u {}

/-- Replace a narrow tile. -/
def setNarrow (u : Nat) (x : NarrowTile) (p : TilePos) : TilePos := { p with narrow := p.narrow.set u x }

/-- Word i of a parameter list. -/
def wordOf (ps : List Word64) (i : Nat) : Nat := (ps.getD i 0).toNat

/-- Byte ranges of rows: the first address, the pitch, the number of rows and the bytes of one row. -/
def rowRanges (a pitch rows len : Nat) : List (Nat × Nat) := (List.range rows).map (fun i => (a + i * pitch, len))

/-- The bytes of several ranges, in order. -/
def rangeBytes (y : Sys) (rs : List (Nat × Nat)) : List Byte := rs.flatMap (fun r => readBytes y r.1 r.2)

/-! ### Preload (R116, R117, R157, R183) -/

/-- A preload: mode, format, address, pitch and the tile's shape (R183). -/
structure PreOp where
  mode : Nat
  fmt : Option Fmt
  addr : Nat
  pitch : Nat
  m : Nat
  n : Nat
deriving DecidableEq, Repr

/-- The preload of ACC_BEGIN's parameter words (R183). -/
def preOf (ps : List Word64) : PreOp :=
  { mode := nfld (wordOf ps 0) 4 2, fmt := fmtOf (nfld (wordOf ps 1) 8 8), addr := wordOf ps 2,
    pitch := nfld (wordOf ps 3) 0 32, m := nfld (wordOf ps 1) 24 7, n := nfld (wordOf ps 1) 16 7 }

/-- The bytes that the preload reads (R116). -/
def preRanges (p : PreOp) : List (Nat × Nat) :=
  match p.fmt with
  | none => []
  | some f => match p.mode with
    | 1 => rowRanges p.addr 0 1 (rowBytes f p.n)
    | 2 => rowRanges p.addr p.pitch p.m (rowBytes f p.n)
    | _ => []

/-- The preload values by element, row by row; none under ZERO (R116). -/
def preValues (y : Sys) (p : PreOp) : Option (List Dec) :=
  match p.fmt with
  | none => none
  | some f => match p.mode with
    | 1 => some ((List.range p.m).flatMap (fun _ => rowScalars y f p.addr p.n))
    | 2 => some ((List.range p.m).flatMap (fun i => rowScalars y f (p.addr + i * p.pitch) p.n))
    | _ => none

/-- The terms of the preload at a base, one list for each element (R117). -/
def preTerms (y : Sys) (p : PreOp) (b : Int) : List (List Term) :=
  match preValues y p with
  | none => (List.range (p.m * p.n)).map (fun _ => [])
  | some vs => vs.map (fun v => [preloadTerm v b])

/-! ### Products (R105, R107 to R109, R180, R181, R186) -/

/-- The operands of an ACC_MATMUL (R186). -/
structure MatOp where
  fa : Option Fmt
  fb : Option Fmt
  m : Nat
  n : Nat
  k : Nat
  a : Nat
  aPitch : Nat
  aScale : Nat
  aScalePitch : Nat
  b : Nat
  bPitch : Nat
  bScale : Nat
  bScalePitch : Nat
deriving DecidableEq, Repr

/-- The fields of ACC_MATMUL's parameter words (R186). -/
def matOf (ps : List Word64) : MatOp :=
  let w := wordOf ps
  { fa := fmtOf (nfld (w 1) 56 8), fb := fmtOf (nfld (w 1) 48 8), m := nfld (w 1) 40 7, n := nfld (w 1) 32 7,
    k := nfld (w 1) 0 32, a := w 2, aPitch := nfld (w 3) 32 32, aScalePitch := nfld (w 3) 0 32, aScale := w 4,
    b := w 5, bPitch := nfld (w 6) 32 32, bScalePitch := nfld (w 6) 0 32, bScale := w 7 }

/-- The bytes of the rows of one operand, and of its scale rows: of a row only its first K elements, and not the padding
of its last block (R181). -/
def operandRanges (f : Option Fmt) (a pitch s spitch rows k : Nat) : List (Nat × Nat) :=
  match f with
  | none => []
  | some f => rowRanges a pitch rows (cdiv (k * fmtWidth f) 8) ++
    (if isBlockFmt f then rowRanges s spitch rows (scaleRowBytes f k) else [])

/-- The bytes that an ACC_MATMUL reads, scale planes included (R122, R180). -/
def matRanges (o : MatOp) : List (Nat × Nat) :=
  operandRanges o.fa o.a o.aPitch o.aScale o.aScalePitch o.m o.k ++
  operandRanges o.fb o.b o.bPitch o.bScale o.bScalePitch o.n o.k

/-- The rows of an operand as exact values (R180, R181). -/
def operandRows (y : Sys) (f : Option Fmt) (a pitch s spitch rows k : Nat) : List (List Dec) :=
  match f with
  | none => []
  | some f => (List.range rows).map (fun i => rowElems y f (a + i * pitch) (s + i * spitch) k)

/-- The groups of a reduction of K positions (R107, R108). -/
def groupCount (k : Nat) : Nat := cdiv k 32

/-- The products of one row and one column, group by group; the padding products of R108 are zeros and change no sum. -/
def groupProducts (k : Nat) (r c : List Dec) : List (List Dec) :=
  chunksOf 32 (groupCount k) ((r.zip c).map (fun p => product p.1 p.2))

/-- The groups of products of every element, row by row. -/
def matGroups (y : Sys) (o : MatOp) : List (List (List Dec)) :=
  let rs := operandRows y o.fa o.a o.aPitch o.aScale o.aScalePitch o.m o.k
  let cs := operandRows y o.fb o.b o.bPitch o.bScale o.bScalePitch o.n o.k
  rs.flatMap (fun r => cs.map (fun c => groupProducts o.k r c))

/-- The terms of an ACC_MATMUL at a base, one list for each element (R112). -/
def matTerms (y : Sys) (o : MatOp) (b : Int) : List (List Term) :=
  (matGroups y o).map (fun gs => gs.map (fun g => groupTerm g b))

/-! ### Exact tiles -/

/-- Add a list of terms to each element (R113). -/
def addTerms (els : List BeamElem) (ts : List (List Term)) : List BeamElem :=
  (els.zip ts).map (fun p => p.2.foldl addTerm p.1)

/-- The larger of two exponents, where there are any. -/
def topMax : Option Int → Option Int → Option Int
  | none, b => b
  | a, none => a
  | some a, some b => some (if a < b then b else a)

/-- The largest floor_log2 of a nonzero finite term plus the base (R194). -/
def termTop (b : Int) (ts : List Term) : Option Int :=
  ts.foldl (fun m t => if t.cls = Cls.finite ∧ t.t ≠ 0 then topMax m (some (flog t.t + b)) else m) none

/-- Add terms to an exact tile: elements, the top and the marks (R113, R118, R119, R130). -/
def tileAdd (ts : List (List Term)) (x : ExactTile) : ExactTile :=
  let all := ts.flatten
  { x with elems := addTerms x.elems ts, top := topMax x.top (termTop x.base all),
           ovf := x.ovf || all.any (fun t => outOf256 t.t), inexact := x.inexact || all.any (fun t => t.inexact),
           nonfinite := x.nonfinite || all.any (fun t => t.cls != Cls.finite) }

/-- Add an entry to the replay log (R122, R124). -/
def logAdd (e : LogEntry) (x : ExactTile) : ExactTile :=
  if x.entries < 256 then { x with log := x.log ++ [e], entries := x.entries + 1 } else { x with noReplay := true }

/-- The bytes that a log entry reads. -/
def entryRanges (e : LogEntry) : List (Nat × Nat) :=
  if e.isPreload then preRanges (preOf e.params) else matRanges (matOf e.params)

/-- The terms of a log entry at a base. -/
def entryTerms (y : Sys) (e : LogEntry) (b : Int) : List (List Term) :=
  if e.isPreload then preTerms y (preOf e.params) b else matTerms y (matOf e.params) b

/-- One pass of a replay over the log, at the base the tile has now (R120 to R123). -/
def replayPass : List LogEntry → Sys → ExactTile → Sys × Option Status × ExactTile
  | [], y, x => (y, none, x)
  | e :: r, y, x =>
    match consumeAll (if e.isPreload then 7 else 2) y (entryRanges e) with
    | some z => (z, some .memUncorrectable, x)
    | none =>
      if Config.operandDigest (rangeBytes y (entryRanges e)) ≠ e.digest then (y, some .replayOperandChanged, x)
      else replayPass r y (tileAdd (entryTerms y e x.base) x)

/-- Replay at bases raised by 32 until no element overflows (R118 to R124). -/
def settle : Nat → Sys → ExactTile → Sys × Option Status × ExactTile
  | 0, y, x => (y, none, x)
  | fuel + 1, y, x =>
    if x.elems.any elemOverflows then
      if x.noReplay then (y, some .accOverflow, x)
      else
        let z := { x with base := x.base + 32, replays := x.replays + 1, top := none, elems := x.elems.map (fun _ => {}) }
        match replayPass x.log y z with
        | (y, none, x) => settle fuel y x
        | r => r
    else (y, none, x)

/-- An element whose content is unspecified (R189, log 1). -/
def freeElem (y : Sys) : BeamElem × Sys :=
  let a := freshWord y
  let b := freshWord a.2
  let c := freshWord b.2
  let d := freshWord c.2
  let e := freshWord d.2
  ({ cls := clsOf (e.1.toNat % 4), inexact := flag e.1 2, ovf := flag e.1 3,
     sum := BitVec.ofNat 288 (a.1.toNat + b.1.toNat * 2 ^ 64 + c.1.toNat * 2 ^ 128 + d.1.toNat * 2 ^ 192 +
       (e.1.toNat >>> 8) * 2 ^ 256) }, e.2)

/-- Elements whose content is unspecified. -/
def freeElems : Nat → Sys → List BeamElem × Sys
  | 0, y => ([], y)
  | n + 1, y =>
    let r := freeElem y
    let l := freeElems n r.2
    (r.1 :: l.1, l.2)

/-! ### Narrow tiles -/

/-- Tile rows, columns and lanes of a shape code (R149). -/
def shapeDims (s : Nat) : Nat × Nat × Nat := (shapeOf s).getD (1, 1, 1)

/-- The lanes of element e of a narrow tile (R151). -/
def lanesOf (x : NarrowTile) (e : Nat) : List Narrow :=
  let d := shapeDims x.shape
  (List.range d.2.2).map (fun l => x.slots.getD (l * d.1 * d.2.1 + e) {})

/-- The registers' marks after slots change (R169). -/
def remark (x : NarrowTile) : NarrowTile :=
  { x with marked := x.marked || x.slots.any (fun v => v.inx), nonfinite := x.nonfinite || x.slots.any (fun v => v.cls != Cls.finite) }

/-- Add the groups of one command to the lanes of one element (R158). -/
def addGroups : List (List Dec) → Nat → List Narrow → List Narrow
  | [], _, ls => ls
  | g :: r, j, ls => addGroups r (j + 1) (ls.modify (j % ls.length) (fun v => narrowAdd v (groupNarrow g)))

/-- The slots with the lanes of element e replaced. -/
def putLanes (mn e : Nat) : List Narrow → Nat → List Narrow → List Narrow
  | [], _, slots => slots
  | v :: r, l, slots => putLanes mn e r (l + 1) (slots.set (l * mn + e) v)

/-- Add a chunk of products to a narrow tile (R158). -/
def narrowMat (gs : List (List (List Dec))) (x : NarrowTile) : NarrowTile :=
  let d := shapeDims x.shape
  let put := fun (slots : List Narrow) (p : List (List Dec) × Nat) =>
    putLanes (d.1 * d.2.1) p.2 (addGroups p.1 0 (lanesOf x p.2)) 0 slots
  remark { x with slots := gs.zipIdx.foldl put x.slots }

/-- The preload of a narrow tile enters lane 0 (R157). -/
def narrowPre (vs : Option (List Dec)) (x : NarrowTile) : NarrowTile :=
  match vs with
  | none => x
  | some vs => remark { x with slots := vs.map preloadNarrow ++ x.slots.drop vs.length }

/-- A narrow value that is unspecified (R189, log 1). -/
def freeNarrow (y : Sys) : Narrow × Sys :=
  let r := freshWord y
  ({ cls := clsOf (fld r.1 62 2), inx := flag r.1 61, x := sext (fld r.1 48 12) 12, a := sext (fld r.1 0 48) 48 }, r.2)

/-- Narrow values that are unspecified. -/
def freeNarrows : Nat → Sys → List Narrow × Sys
  | 0, y => ([], y)
  | n + 1, y =>
    let r := freeNarrow y
    let l := freeNarrows n r.2
    (r.1 :: l.1, l.2)

/-- The folded value of every element (R159). -/
def foldTile (x : NarrowTile) : List Narrow :=
  let d := shapeDims x.shape
  (List.range (d.1 * d.2.1)).map (fun e => foldLanes (lanesOf x e))

/-! ### Readout (R132 to R142, R166, R192 to R194) -/

/-- The fields of ACC_READOUT (R190). -/
structure ReadOp where
  srEn : Bool
  clampEn : Bool
  fmt : Option Fmt
  infPol : Bool
  scale : Int
  klen : Nat
  hi : Nat
  lo : Nat
  dest : Nat
  pitch : Nat
  scalePitch : Nat
  destScale : Nat
  elemBase : Nat
  rowStride : Nat
  tid : Nat
  slot : Nat
deriving DecidableEq, Repr

/-- The fields of ACC_READOUT's parameter words (R190). -/
def readOf (ps : List Word64) : ReadOp :=
  let w := wordOf ps
  { srEn := nfld (w 0) 17 1 == 1, clampEn := nfld (w 0) 16 1 == 1, fmt := fmtOf (nfld (w 0) 8 8),
    infPol := nfld (w 0) 0 2 == 1, scale := sext (nfld (w 1) 48 16) 16, klen := nfld (w 1) 0 48,
    hi := nfld (w 2) 32 32, lo := nfld (w 2) 0 32, dest := w 3, pitch := nfld (w 4) 32 32,
    scalePitch := nfld (w 4) 0 32, destScale := w 5, elemBase := w 6, rowStride := w 7,
    tid := nfld (w 8) 32 32, slot := nfld (w 8) 0 12 }

/-- The clamp bounds (R134). -/
def clampOf (o : ReadOp) : Option (Dec × Dec) :=
  if o.clampEn then some (decodeFmt .fp32 o.lo 0, decodeFmt .fp32 o.hi 0) else none

/-- The linear index of element (i, j) (R139). -/
def linIndex (o : ReadOp) (i j : Nat) : Nat := (o.elemBase + i * o.rowStride + j) % 2 ^ 64

/-- One output row: scales, element codes, and for each element its code, its scale and its class. -/
structure RowOut where
  scales : List Nat
  codes : List Nat
  elems : List (Nat × Nat × CenCls)
deriving DecidableEq, Repr

/-- One output block of R135: up to 32 elements, padded with zeros (R78). -/
def outBlock (f : Fmt) (infPol : Bool) (xs : List (Dec × Option Nat)) : RowOut :=
  let b := toBlock f infPol (xs ++ List.replicate (32 - xs.length) (({} : Dec), none))
  { scales := [b.scale], codes := b.codes,
    elems := ((b.codes.zip b.classes).take xs.length).map (fun p => (p.1, b.scale, p.2)) }

/-- Blocks of a row one after another. -/
def outBlocks (f : Fmt) (infPol : Bool) : Nat → List (Dec × Option Nat) → RowOut
  | 0, _ => { scales := [], codes := [], elems := [] }
  | k + 1, xs =>
    let b := outBlock f infPol (xs.take 32)
    let r := outBlocks f infPol k (xs.drop 32)
    { scales := b.scales ++ r.scales, codes := b.codes ++ r.codes, elems := b.elems ++ r.elems }

/-- A row in its output format (R135). -/
def outRow (f : Fmt) (infPol : Bool) (xs : List (Dec × Option Nat)) : RowOut :=
  if isBlockFmt f then outBlocks f infPol (cdiv xs.length 32) xs
  else
    let cs := xs.map (fun p => toScalar f infPol p.2 p.1)
    { scales := [], codes := cs.map (fun c => c.1), elems := cs.map (fun c => (c.1, 0, c.2)) }

/-- The exponents of the values that are finite and not zero (R307). -/
def expsOf (vs : List Dec) : List Int :=
  (vs.filter (fun v => v.cls == Cls.finite && v.m != 0)).map (fun v => flog v.m + v.e)

/-- How many elements fall in a class (R90). -/
def countCls (c : CenCls) (es : List (Nat × Nat × CenCls)) : Nat := (es.filter (fun e => e.2.2 == c)).length

/-- A readout computed: what it writes, its classes, its source values and the element records. -/
structure ReadOut where
  writes : List (Nat × List Byte)
  vals : List Dec
  elems : List (Nat × Nat × CenCls)
  sr : Bool
deriving DecidableEq, Repr

/-- The source values of R132 after scale and clamp, with the stochastic words where they are drawn (R133 to R139). -/
def readValues (y : Sys) (o : ReadOp) (step n : Nat) (sr : Bool) (vs : List Dec) : List (Dec × Option Nat) :=
  vs.zipIdx.map (fun p =>
    let v := epilogueValue p.1.cls p.1.m p.1.e o.scale (clampOf o)
    (v, if sr then some (srWord (linIndex o (p.2 / n) (p.2 % n)) o.tid step y.acc.srSeedLo y.acc.srSeedHi) else none))

/-- The epilogue of a readout of m rows of n elements (R132, R137, R166, R192). -/
def readoutTile (y : Sys) (o : ReadOp) (step m n kSum : Nat) (vs : List Dec) : ReadOut :=
  let f := o.fmt.getD .fp32
  let len := if o.klen ≠ 0 then o.klen else kSum
  let sr := o.srEn && decide (y.acc.srThreshold.toNat ≤ len)
  let xs := readValues y o step n sr vs
  let rows := (chunksOf n m xs).map (outRow f o.infPol)
  let write := fun (p : RowOut × Nat) =>
    (o.dest + p.2 * o.pitch, packCodes (fmtWidth f) p.1.codes) ::
    (if isBlockFmt f then [(o.destScale + p.2 * o.scalePitch, p.1.scales.map (fun s => BitVec.ofNat 8 s))] else [])
  { writes := rows.zipIdx.flatMap write, vals := xs.map (fun p => p.1), elems := rows.flatMap (fun r => r.elems), sr := sr }

/-- The census contribution of a readout (R193, R307). -/
def readCensus (o : ReadOp) (die : Nat) (r : ReadOut) : List CensusDelta :=
  if o.slot = 0 then []
  else [{ slot := o.slot, die := die, elements := r.elems.length, zero := countCls .zero r.elems,
          nonfinite := countCls .nonfinite r.elems, sat := countCls .sat r.elems, vanished := countCls .vanished r.elems,
          underflow := countCls .underflow r.elems, exps := expsOf r.vals }]

/-- The watch contribution of a readout (R569). -/
def readWatch (y : Sys) (o : ReadOp) (die n : Nat) (r : ReadOut) : List WatchDelta :=
  let f := o.fmt.getD .fp32
  let outs := r.elems.map (fun e => decodeFmt f e.1 e.2.1)
  let k := digestKey y
  let term := fun (p : (Nat × Nat × CenCls) × Nat) =>
    mix k (o.tid % 2 ^ 16) (linIndex o (p.2 / n) (p.2 % n) % 2 ^ 48) (p.1.1 + p.1.2.1 * 2 ^ 32)
  [{ tid := o.tid, die := die, elements := outs.length, zero := (outs.filter decIsZeroVal).length,
     nonfinite := (outs.filter (fun v => v.cls != Cls.finite)).length, exps := expsOf outs,
     digest := r.elems.zipIdx.foldl (fun d p => d + term p) 0 }]
where
  /-- The value is zero. -/
  decIsZeroVal (v : Dec) : Bool := v.cls == Cls.finite && v.m == 0

/-- Result word 0 of an ending command (R194). -/
def endWord0 (base : Int) (replays : Nat) (sr : Bool) (top : Option Int) (inexact : Nat) : Word64 :=
  BitVec.ofNat 64 (lowBits base 16 * 2 ^ 48 + replays * 2 ^ 40 + b2n sr * 2 ^ 39 +
    (match top with | none => 0 | some t => 2 ^ 38 + lowBits t 16 * 2 ^ 16) + satAt (umax 13) inexact)

/-- The result words of a readout (R194). -/
def readResults (w0 : Word64) (r : ReadOut) : List Word64 :=
  [w0, BitVec.ofNat 64 (countCls .vanished r.elems * 2 ^ 48 + countCls .nonfinite r.elems * 2 ^ 32 +
    countCls .sat r.elems * 2 ^ 16 + countCls .zero r.elems), BitVec.ofNat 64 (countCls .underflow r.elems)]

/-- The bytes of an element as WP256 (R126). -/
def wideOfElem (base : Int) (el : BeamElem) : List Byte :=
  wideBytes { cls := el.cls, v := elemContent el, base := base, inexact := el.inexact }

end Sys2Proof.Machine
end

