-- ==== Sys2Proof/Machine/CmdUpdate.lean ====
section
/-! DEFINITION. The optimizer update and its microprograms: UPD_RUN, UPD_MICRO_LOAD and one meaning for each microprogram
instruction (R285 to R302). -/

namespace Sys2Proof.Machine

open Sys2Proof

/-- An array of UPD_RUN: its face and back addresses and the bytes of one element (R285, R287). -/
structure UpdArray where
  face : Nat
  back : Nat
  size : Nat
deriving DecidableEq, Repr

/-- The fields of UPD_RUN (R287). consts: LR, WD, B1, OMB1, B2, OMB2, EPS, GRAD_MUL, BC1, BC2. -/
structure UpdOp where
  die : Nat
  prog : Nat
  gf64 : Bool
  nesterov : Bool
  slot : Nat
  gexp : Int
  lrx : Int
  count : Nat
  grad : Nat
  hi : UpdArray
  lo : UpdArray
  s1 : UpdArray
  s2 : UpdArray
  consts : List Word32
deriving DecidableEq, Repr

/-- The fields of an UPD_RUN packet (R287). -/
def updOf (pk : Packet) : UpdOp :=
  let c := fun (i lo : Nat) => BitVec.ofNat 32 (pf pk i lo 32)
  { die := pf pk 0 32 5, prog := pf pk 0 24 8, gf64 := pf pk 0 16 8 == 0x30, nesterov := pf pk 0 12 1 == 1,
    slot := pf pk 0 0 12, gexp := sext (pf pk 1 48 16) 16, lrx := sext (pf pk 1 40 8) 8, count := pf pk 1 0 40,
    grad := pw pk 2, hi := { face := pw pk 3, back := pw pk 4, size := 2 }, lo := { face := pw pk 5, back := pw pk 6, size := 2 },
    s1 := { face := pw pk 7, back := pw pk 8, size := 4 }, s2 := { face := pw pk 9, back := pw pk 10, size := 4 },
    consts := [c 11 32, c 11 0, c 12 32, c 12 0, c 13 32, c 13 0, c 14 32, c 14 0, c 15 32, c 15 0] }

/-- The program is a microprogram of a slot (R287). -/
def isMicro (o : UpdOp) : Bool := decide (0x80 ≤ o.prog)

/-- Constants that a program uses, by their places in consts (R288). -/
def usedConsts (o : UpdOp) : List Nat :=
  if o.prog = 1 then [0, 1, 2, 3, 7] else if o.prog = 3 then [0, 1, 2, 3, 4, 5, 7] else List.range 10

/-- An array that a microprogram uses: an address of it is not zero (R288). -/
def named (a : UpdArray) : Bool := a.face != 0 || a.back != 0

/-- Arrays that a program uses (R288). -/
def usedArrays (o : UpdOp) : List UpdArray :=
  if isMicro o then [o.hi, o.lo, o.s1, o.s2].filter named
  else if o.prog = 2 then [o.hi, o.lo, o.s1, o.s2] else [o.hi, o.lo, o.s1]

/-- A field that the program does not use holds something (R288, R289). -/
def badUnused (o : UpdOp) : Bool :=
  (!isMicro o && o.prog != 2 && named o.s2) ||
  (List.range 10).any (fun i => !(usedConsts o).elem i && o.consts.getD i 0 != 0)

/-- Bytes of a gradient element. -/
def gradSize (o : UpdOp) : Nat := if o.gf64 then 8 else 4

/-- A range lies in the stack of a die (R289). -/
def inStack (die a n : Nat) : Bool := decide (die * stackBytes ≤ a) && decide (a + n ≤ (die + 1) * stackBytes)

/-- The array's face lies in the face range of one ACTIVE entry and its back at the same offset (R289). -/
def mapped (y : Sys) (count : Nat) (a : UpdArray) : Bool :=
  y.smap.entries.any (fun p => p.2.state == .active && decide (p.2.face ≤ a.face) &&
    decide (a.face + count * a.size ≤ p.2.face + p.2.length) && a.back == p.2.back + (a.face - p.2.face))

/-- The range overlaps the back range of an ACTIVE entry (R289). -/
def overBack (y : Sys) (a n : Nat) : Bool :=
  y.smap.entries.any (fun p => p.2.state == .active && overlap a n p.2.back p.2.length)

/-- The registers that an element starts from or ends with: master, state 1, state 2 (R294). -/
structure UpdElem where
  w : Word32
  s1 : Word32
  s2 : Word32
deriving DecidableEq, Repr

/-- The gradient of an element before GRAD_MUL and its class (R293). -/
def gradIn (y : Sys) (o : UpdOp) (ls : Int) (i : Nat) : Word32 × CenCls :=
  if o.gf64 then
    let c := toScalar .fp32 true none { m := sext (readNat y (o.grad + 8 * i) 8) 64, e := o.gexp - ls }
    (BitVec.ofNat 32 c.1, c.2)
  else
    let x := BitVec.ofNat 32 (readNat y (o.grad + 4 * i) 4)
    let v := f32Scale x (-ls)
    let zero := fun (w : Word32) => decIsZero (f32Dec w)
    (v, if f32IsFinite x = false then .nonfinite else if f32IsFinite v = false then .sat
        else if zero x then .zero else if zero v then .underflow else .none)

/-- An element as the face arrays hold it; zero where an array has no address (R285, R298). -/
def faceElem (y : Sys) (o : UpdOp) (i : Nat) : UpdElem :=
  let rd := fun (a : UpdArray) => if (usedArrays o).elem a && a.face != 0 then readNat y (a.face + a.size * i) a.size else 0
  let rd' := fun (a : UpdArray) => if isMicro o then rd a else
    (if (usedArrays o).elem a then readNat y (a.face + a.size * i) a.size else 0)
  { w := BitVec.ofNat 32 (rd' o.hi * 2 ^ 16 + rd' o.lo), s1 := BitVec.ofNat 32 (rd' o.s1), s2 := BitVec.ofNat 32 (rd' o.s2) }

/-- A constant by its place. -/
def cst (o : UpdOp) (i : Nat) : Word32 := o.consts.getD i 0

/-- The built-in programs (R294). -/
def builtin (o : UpdOp) (g : Word32) (e : UpdElem) : UpdElem :=
  let lr := cst o 0
  let wd := cst o 1
  let b1 := cst o 2
  let omb1 := cst o 3
  let b2 := cst o 4
  let omb2 := cst o 5
  let last := fun (u : Word32) => f32Sub e.w (f32Scale (f32Mul lr u) o.lrx)
  if o.prog = 1 then
    let g := f32Add g (f32Mul wd e.w)
    let b := f32Add (f32Mul b1 e.s1) (f32Mul omb1 g)
    let u := if o.nesterov then f32Add g (f32Mul b1 b) else b
    { w := last u, s1 := b, s2 := 0 }
  else if o.prog = 2 then
    let m := f32Add (f32Mul b1 e.s1) (f32Mul omb1 g)
    let v := f32Add (f32Mul b2 e.s2) (f32Mul omb2 (f32Mul g g))
    let u := f32Div (f32Mul m (cst o 8)) (f32Add (f32Sqrt (f32Mul v (cst o 9))) (cst o 6))
    { w := last (f32Add u (f32Mul wd e.w)), s1 := m, s2 := v }
  else
    let u := f32Add (f32Sign (f32Add (f32Mul b1 e.s1) (f32Mul omb1 g))) (f32Mul wd e.w)
    { w := last u, s1 := f32Add (f32Mul b2 e.s1) (f32Mul omb2 g), s2 := 0 }

/-- What element i writes: address and bytes for each back array (R290, R294, R298). -/
def elemWrites (o : UpdOp) (i : Nat) (e : UpdElem) : List (Nat × List Byte) :=
  let one := fun (a : UpdArray) (v : Nat) =>
    if (usedArrays o).elem a && (!isMicro o || a.back != 0) then [(a.back + a.size * i, leBytes a.size v)] else []
  one o.hi (e.w.toNat / 2 ^ 16) ++ one o.lo (e.w.toNat % 2 ^ 16) ++ one o.s1 e.s1.toNat ++ one o.s2 e.s2.toNat

/-- The new master or a new state that the command writes is not finite (R291). -/
def badElemOut (o : UpdOp) (e : UpdElem) : Bool :=
  !f32IsFinite e.w || ((usedArrays o).elem o.s1 && !f32IsFinite e.s1) || ((usedArrays o).elem o.s2 && !f32IsFinite e.s2)

/-- Counts over the elements so far: output non-finite, and the gradient's classes and exponents (R291, R307). -/
def countElem (bad : Bool) (cls : CenCls) (g : Word32) (r : MicroRun) : MicroRun :=
  let v := f32Dec g
  let exps := if v.cls = Cls.finite ∧ v.m ≠ 0 then r.exps ++ [flog v.m + v.e] else r.exps
  { r with nonfinite := r.nonfinite + b2n bad, sat := r.sat + b2n (cls == .sat), zero := r.zero + b2n (cls == .zero),
           nonfin := r.nonfin + b2n (cls == .nonfinite), underflow := r.underflow + b2n (cls == .underflow), exps := exps }

/-- The sum of the digest terms of the bytes a command has written through back ranges (R278, R291). -/
def digestSum (y : Sys) (w : SMap Byte) : Word64 :=
  (wroteWords w).foldl (fun d p => d + mix (digestKey y) (p.1 / 2 ^ 38) (p.1 % 2 ^ 38) p.2) 0

/-- The command has updated every element (R291, R307). -/
def updFinish (id : Nat) (o : UpdOp) (ls : BitVec 8) (r : MicroRun) (y : Sys) : Sys :=
  let d : CensusDelta := { slot := o.slot, die := o.die, elements := o.count, zero := r.zero, nonfinite := r.nonfin,
                           sat := r.sat, vanished := 0, underflow := r.underflow, exps := r.exps }
  let sum := match findCmd y id with | none => 0 | some c => digestSum y c.wrote
  let res := [BitVec.ofNat 64 (ls.toNat * 2 ^ 56 + o.count),
              BitVec.ofNat 64 (satAt (umax 32) r.nonfinite * 2 ^ 32 + satAt (umax 32) r.sat), sum]
  let st := if r.nonfinite = 0 ∧ r.sat = 0 then Status.ok else .updNonfinite
  finish id st res (modCmd id (fun c => { c with census := if o.slot = 0 then [] else [d] }) y)

/-- The elements of a built-in program from i on (R294). -/
def builtinLoop (id : Nat) (o : UpdOp) (ls : Int) : Nat → Nat → MicroRun → Sys → MicroRun × Sys
  | 0, _, r, y => (r, y)
  | n + 1, i, r, y =>
    let gi := gradIn y o ls i
    let g := f32Mul gi.1 (cst o 7)
    let e := builtin o g (faceElem y o i)
    builtinLoop id o ls n (i + 1) (countElem (badElemOut o e) gi.2 g r) (writeAll id (elemWrites o i e) y)

/-- The ranges that an UPD_RUN reads (R290). -/
def updRanges (o : UpdOp) : List (Nat × Nat) :=
  (o.grad, o.count * gradSize o) :: ((usedArrays o).filter (fun a => !isMicro o || a.face != 0)).map (fun a => (a.face, o.count * a.size))

/-- A microprogram run of a die. -/
def microAt (y : Sys) (die : Nat) : MicroRun := mapGet {} y.upd.runs die

/-- Replace a microprogram run. -/
def setMicro (die : Nat) (r : MicroRun) (y : Sys) : Sys := { y with upd := { y.upd with runs := mapSet {} y.upd.runs die r } }

/-- The 32 registers at the start of an element (R298). -/
def microRegs (o : UpdOp) (g : Word32) (e : UpdElem) : List Word32 :=
  [g, e.w, e.s1, e.s2] ++ List.replicate 12 0 ++ o.consts ++ [0, 0x3F800000] ++ List.replicate 4 0

/-- Begin element i of a microprogram run (R293, R298). -/
def microBegin (o : UpdOp) (i : Nat) (r : MicroRun) (y : Sys) : MicroRun :=
  let gi := gradIn y o r.ls.toInt i
  { r with elem := i, pos := 0, f := microRegs o (f32Mul gi.1 (cst o 7)) (faceElem y o i) }

/-- No command of the die's bobbin engines works (R271). -/
def dieIdle (y : Sys) (die : Nat) : Bool := (microAt y die).cmd == none

/-- The effect of an accepted UPD_RUN (R277, R290, R291, R301). -/
def updRun (c : Cmd) (o : UpdOp) (y : Sys) : Sys :=
  let ls := y.upd.lossScale
  if (usedArrays o).any (fun a => (!isMicro o || a.back != 0) && protectedHit y (backIsFace c) a.back (o.count * a.size)) then
    finish c.id .stateFaceWrite [] y
  else match consumeAll 3 y (updRanges o) with
    | some z => finish c.id .memUncorrectable [] z
    | none =>
      if isMicro o then setMicro o.die (microBegin o 0 { cmd := some c.id, ls := ls } y) y
      else
        let r := builtinLoop c.id o ls.toInt o.count 0 {} y
        updFinish c.id o ls r.1 r.2

/-- The ranges that an UPD_RUN writes (R290). -/
def updOuts (o : UpdOp) : List (Nat × Nat) :=
  ((usedArrays o).filter (fun a => !isMicro o || a.back != 0)).map (fun a => (a.back, o.count * a.size))

/-- UPD_RUN (R254, R287 to R291, R613). -/
def execUpdRun (pk : Packet) (s : State) : Host.Outcome State Fault Refusal :=
  let o := updOf pk
  let gf := pf pk 0 16 8
  let check := fun (p : Perm) (c : Cmd) (y : Sys) => firstFail
    [(decide (17 < o.die), .paramRange),
     (gf != 0x30 && gf != 0x22, .formatPair),
     (o.count == 0 || decide (2 ^ 36 < o.count) || decide (o.gexp < -256) || decide (255 < o.gexp) ||
        (!o.gf64 && o.gexp != 0) || badUnused o || (usedConsts o).any (fun i => !f32IsFinite (cst o i)) ||
        (o.nesterov && o.prog != 1) || decide (0x3FF < o.slot), .paramRange),
     (fileClosed p (updRanges o), .debugClosed),
     (!aligned64 o.grad || !inStack o.die o.grad (o.count * gradSize o) ||
        (usedArrays o).any (fun a => !aligned64 a.face || !aligned64 a.back || !inStack o.die a.face (o.count * a.size) ||
          !inStack o.die a.back (o.count * a.size)), .addrRange),
     (c.shadow, .shadowMode),
     (isMicro o && mapGet [] y.upd.slots (o.prog - 0x80) == [], .microEmpty),
     ((usedArrays o).any (fun a => !mapped y o.count a) || overBack y o.grad (o.count * gradSize o), .stateMap)]
  let ready := fun (_ : Cmd) (y : Sys) => dieIdle y o.die && !anyHeld y (updRanges o ++ updOuts o)
  let badEnum := fun (pk : Packet) =>
    badCode pk 0 24 8 [0x01, 0x02, 0x03, 0x80, 0x81, 0x82, 0x83, 0x84, 0x85, 0x86, 0x87] || badCode pk 0 16 8 fmtCodes
  let layout := [bits [(32, 5), (24, 8), (16, 8), (12, 1), (0, 12)], bits [(48, 16), (40, 8), (0, 40)]] ++ List.replicate 14 allBits
  onSys s (fun p y => execCommand 0x0500 layout badEnum ready (check p) (fun c y => updRun c o y) pk y)

/-! ### Microprograms (R297 to R300) -/

/-- OP of a microprogram instruction (R297). -/
def microOp (w : Word32) : Nat := fld w 26 6

/-- The OP values of R298. -/
def microOps : List Nat := [0x01, 0x02, 0x03, 0x04, 0x05, 0x06, 0x07, 0x08, 0x09, 0x0A, 0x0B, 0x0C, 0x0D, 0x3F]

/-- An instruction that the check of R300 refuses; last tells whether it is the last of the program. -/
def badMicro (last : Bool) (w : Word32) : Bool :=
  !microOps.elem (microOp w) || fld w 0 6 != 0 || decide (28 ≤ fld w 21 5) || decide (28 ≤ fld w 16 5) ||
  decide (28 ≤ fld w 11 5) || decide (28 ≤ fld w 6 5) || decide (16 ≤ fld w 21 5 ∧ fld w 21 5 ≤ 27) ||
  ((microOp w == 0x3F) != last)

/-- The 32-bit words of a byte list. -/
def words4 : Nat → List Byte → List Word32
  | 0, _ => []
  | n + 1, b => BitVec.ofNat 32 (ofLe (b.take 4)) :: words4 n (b.drop 4)

/-- The index of the first instruction that fails (R300). -/
def firstBadMicro (ws : List Word32) : Option Nat :=
  (List.range ws.length).find? (fun i => badMicro (i + 1 == ws.length) (ws.getD i 0))

/-- A running UPD_RUN uses the slot (R300). -/
def slotInUse (y : Sys) (slot : Nat) : Bool :=
  y.cm.cmds.any (fun d => d.op == 0x0500 && d.phase == .running && pf d.pkt 0 24 8 == 0x80 + slot)

/-- UPD_MICRO_LOAD (R254, R300, R613). -/
def execUpdMicroLoad (pk : Packet) (s : State) : Host.Outcome State Fault Refusal :=
  let slot := pf pk 0 0 3
  let len := pf pk 0 8 7
  let src := pw pk 1
  let check := fun (p : Perm) (_ : Cmd) (y : Sys) =>
    match firstFail [(len == 0 || decide (64 < len), .paramRange), (fileClosed p [(src, 4 * len)], .debugClosed),
      (!aligned64 src || !inDram src (4 * len), .addrRange)] with
    | some r => some r
    | none =>
      if (consume 8 src (4 * len) y).isSome then none
      else match firstBadMicro (words4 len (readBytes y src (4 * len))) with
        | some i => some (.microInvalid, [BitVec.ofNat 64 i])
        | none => none
  let ready := fun (_ : Cmd) (y : Sys) => !slotInUse y slot && !rangeHeld y src (4 * len)
  let effect := fun (c : Cmd) (y : Sys) =>
    match consume 8 src (4 * len) y with
    | some z => finish c.id .memUncorrectable [] z
    | none =>
      let b := readBytes y src (4 * len)
      finish c.id .ok [BitVec.ofNat 64 (crc32c b)]
        { y with upd := { y.upd with slots := mapSet [] y.upd.slots slot (words4 len b) } }
  onSys s (fun p y => execCommand 0x0501 [bits [(0, 3), (8, 7)], allBits] (fun _ => false) ready (check p) effect pk y)

/-- The instruction word that a die's run stands at. -/
def microWord (y : Sys) (die : Nat) (o : UpdOp) : Word32 :=
  (mapGet [] y.upd.slots (o.prog - 0x80)).getD (microAt y die).pos 0

/-- A die's run executes its instruction where that is the given OP (R298). -/
def microRow (die op : Nat) (f : Nat → UpdOp → Word32 → MicroRun → Sys → Sys) (y : Sys) : Sys :=
  let r := microAt y die
  match r.cmd with
  | none => y
  | some id => match findCmd y id with
    | none => y
    | some c =>
      let o := updOf c.pkt
      let w := microWord y die o
      if isUp y = false ∨ microOp w ≠ op then y else f id o w r y

/-- A register of a run. -/
def freg (r : MicroRun) (i : Nat) : Word32 := r.f.getD i 0

/-- An instruction that writes fD from fA, fB, fC and LRX (R298). -/
def microWrite (die op : Nat) (f : UpdOp → Word32 → Word32 → Word32 → Word32) (s : State) : Host.Outcome State Fault Refusal :=
  onSys s (fun _ y => microRow die op (fun _ o w r y =>
    let v := f o (freg r (fld w 16 5)) (freg r (fld w 11 5)) (freg r (fld w 6 5))
    setMicro die { r with f := r.f.set (fld w 21 5) v, pos := r.pos + 1 } y) y)

/-- FADD. -/
def execFadd (die : Nat) (s : State) : Host.Outcome State Fault Refusal := microWrite die 0x01 (fun _ a b _ => f32Add a b) s

/-- FSUB. -/
def execFsub (die : Nat) (s : State) : Host.Outcome State Fault Refusal := microWrite die 0x02 (fun _ a b _ => f32Sub a b) s

/-- FMUL. -/
def execFmul (die : Nat) (s : State) : Host.Outcome State Fault Refusal := microWrite die 0x03 (fun _ a b _ => f32Mul a b) s

/-- FDIV. -/
def execFdiv (die : Nat) (s : State) : Host.Outcome State Fault Refusal := microWrite die 0x04 (fun _ a b _ => f32Div a b) s

/-- FSQRT. -/
def execFsqrt (die : Nat) (s : State) : Host.Outcome State Fault Refusal := microWrite die 0x05 (fun _ a _ _ => f32Sqrt a) s

/-- The lesser or the greater of two values, negative zero below positive zero, NaN when either is NaN (R298). -/
def microExtreme (big : Bool) (a b : Word32) : Word32 :=
  if f32IsNan a || f32IsNan b then f32Nan
  else
    let less := f32Lt a b || (f32Eq a b && f32Neg a)
    if less then (if big then b else a) else (if big then a else b)

/-- FMIN. -/
def execFmin (die : Nat) (s : State) : Host.Outcome State Fault Refusal := microWrite die 0x06 (fun _ a b _ => microExtreme false a b) s

/-- FMAX. -/
def execFmax (die : Nat) (s : State) : Host.Outcome State Fault Refusal := microWrite die 0x07 (fun _ a b _ => microExtreme true a b) s

/-- FNEG. -/
def execFneg (die : Nat) (s : State) : Host.Outcome State Fault Refusal := microWrite die 0x08 (fun _ a _ _ => f32Negate a) s

/-- FABS. -/
def execFabs (die : Nat) (s : State) : Host.Outcome State Fault Refusal := microWrite die 0x09 (fun _ a _ _ => f32Abs a) s

/-- FSIGN. -/
def execFsign (die : Nat) (s : State) : Host.Outcome State Fault Refusal := microWrite die 0x0A (fun _ a _ _ => f32Sign a) s

/-- FSCALE. -/
def execFscale (die : Nat) (s : State) : Host.Outcome State Fault Refusal := microWrite die 0x0B (fun o a _ _ => f32Scale a o.lrx) s

/-- FSEL. -/
def execFsel (die : Nat) (s : State) : Host.Outcome State Fault Refusal :=
  microWrite die 0x0C (fun _ a b c => if f32IsNan a then f32Nan else if f32Lt 0 a then b else c) s

/-- MOV. -/
def execFmov (die : Nat) (s : State) : Host.Outcome State Fault Refusal := microWrite die 0x0D (fun _ a _ _ => a) s

/-- The ranges that the end of element i accesses: what it writes, and what element i + 1 reads. -/
def endRangesMicro (o : UpdOp) (i : Nat) : List (Nat × Nat) :=
  ((usedArrays o).filter (fun a => a.back != 0)).map (fun a => (a.back + a.size * i, a.size)) ++
  (if i + 1 < o.count then (o.grad + gradSize o * (i + 1), gradSize o) ::
    ((usedArrays o).filter (fun a => a.face != 0)).map (fun a => (a.face + a.size * (i + 1), a.size)) else [])

/-- MICRO_END (R254, R291, R298): the results of the element are written, and the next element starts. -/
def execMicroEnd (die : Nat) (s : State) : Host.Outcome State Fault Refusal :=
  onSys s (fun _ y => microRow die 0x3F (fun id o _ r y =>
    if anyHeld y (endRangesMicro o r.elem) then y else
    let e : UpdElem := { w := freg r 1, s1 := freg r 2, s2 := freg r 3 }
    let gi := gradIn y o r.ls.toInt r.elem
    let r := countElem (badElemOut o e) gi.2 (f32Mul gi.1 (cst o 7)) r
    let y := writeAll id (elemWrites o r.elem e) y
    if r.elem + 1 < o.count then setMicro die (microBegin o (r.elem + 1) r y) y
    else updFinish id o r.ls r (setMicro die {} y)) y)

end Sys2Proof.Machine
end

