-- ==== Sys2Proof/Machine/CmdBobbin.lean ====
section
/-! DEFINITION. Conversion, gather and scatter-add, the state map and the census commands (R273, R274, R282 to R284,
R303 to R313). -/

namespace Sys2Proof.Machine

open Sys2Proof

/-- The pairs of formats that BOB_CONVERT takes (R99, R303). -/
def bobPair (fi fo : Fmt) : Bool :=
  (fi == .fp32 && (isBlockFmt fo || fo == .bf16 || fo == .fp16 || (isScalarFmt fo && isIntFmt fo))) ||
  (fi == .bf16 && (isBlockFmt fo || fo == .fp32)) || (fi == .fp16 && fo == .fp32) || (isBlockFmt fi && fo == .fp32)

/-- The fields of BOB_CONVERT (R303). -/
structure ConvOp where
  die : Nat
  fi : Fmt
  fo : Fmt
  slot : Nat
  rows : Nat
  n : Nat
  src : Nat
  srcScale : Nat
  dst : Nat
  dstScale : Nat
  srcPitch : Nat
  dstPitch : Nat
  srcScalePitch : Nat
  dstScalePitch : Nat
deriving DecidableEq, Repr

/-- The fields of a BOB_CONVERT packet (R303). -/
def convOf (pk : Packet) : ConvOp :=
  { die := pf pk 0 32 5, fi := (fmtOf (pf pk 0 24 8)).getD .wp256, fo := (fmtOf (pf pk 0 16 8)).getD .wp256,
    slot := pf pk 0 0 12, rows := pf pk 1 32 32, n := pf pk 1 0 32, src := pw pk 2, srcScale := pw pk 3, dst := pw pk 4,
    dstScale := pw pk 5, srcPitch := pf pk 6 32 32, dstPitch := pf pk 6 0 32, srcScalePitch := pf pk 7 32 32,
    dstScalePitch := pf pk 7 0 32 }

/-- A plane breaks the rules of its pitch (R303, R655, R657). -/
def badPlane (f : Fmt) (n pitch s spitch : Nat) : Bool :=
  shortPitch pitch (rowBytes f n) || (if isBlockFmt f then shortPitch spitch (scaleRowBytes f n) else s != 0 || spitch != 0)

/-- A plane breaks the rules of its addresses (R178, R303). -/
def badPlaneAddr (f : Fmt) (rows n a pitch s spitch : Nat) : Bool :=
  !aligned64 a || pitch % 64 != 0 || !inDram a (spanBytes rows pitch (rowBytes f n)) ||
  (isBlockFmt f && (!aligned64 s || spitch % 64 != 0 || !inDram s (spanBytes rows spitch (scaleRowBytes f n))))

/-- The rows of a BOB_CONVERT in the target format (R81 to R89, R303). -/
def convRows (y : Sys) (o : ConvOp) : List (List Dec × RowOut) :=
  (List.range o.rows).map (fun r =>
    let xs := rowElems y o.fi (o.src + r * o.srcPitch) (o.srcScale + r * o.srcScalePitch) o.n
    (xs, outRow o.fo false (xs.map (fun v => (v, none)))))

/-- What the converted rows write. -/
def convWrites (o : ConvOp) (rows : List (List Dec × RowOut)) : List (Nat × List Byte) :=
  rows.zipIdx.flatMap (fun p =>
    (o.dst + p.2 * o.dstPitch, packCodes (fmtWidth o.fo) p.1.2.codes) ::
    (if isBlockFmt o.fo then [(o.dstScale + p.2 * o.dstScalePitch, p.1.2.scales.map (fun s => BitVec.ofNat 8 s))] else []))

/-- The ranges of the rows of a plane and of its scale rows. -/
def planeRanges (f : Fmt) (a pitch s spitch rows n : Nat) : List (Nat × Nat) :=
  rowRanges a pitch rows (rowBytes f n) ++ if isBlockFmt f then rowRanges s spitch rows (scaleRowBytes f n) else []

/-- BOB_CONVERT (R254, R303, R307, R613). -/
def execBobConvert (pk : Packet) (s : State) : Host.Outcome State Fault Refusal :=
  let o := convOf pk
  let ins := planeRanges o.fi o.src o.srcPitch o.srcScale o.srcScalePitch o.rows o.n
  let outs := planeRanges o.fo o.dst o.dstPitch o.dstScale o.dstScalePitch o.rows o.n
  let check := fun (p : Perm) (_ : Cmd) (_ : Sys) => firstFail
    [(decide (17 < o.die), .paramRange),
     (!bobPair o.fi o.fo, .formatPair),
     (o.rows == 0 || decide (2 ^ 24 < o.rows) || o.n == 0 || decide (2 ^ 28 < o.n) || decide (0x3FF < o.slot) ||
        badPlane o.fi o.n o.srcPitch o.srcScale o.srcScalePitch ||
        badPlane o.fo o.n o.dstPitch o.dstScale o.dstScalePitch, .paramRange),
     (fileClosed p ins, .debugClosed),
     (badPlaneAddr o.fi o.rows o.n o.src o.srcPitch o.srcScale o.srcScalePitch ||
        badPlaneAddr o.fo o.rows o.n o.dst o.dstPitch o.dstScale o.dstScalePitch, .addrRange)]
  let ready := fun (_ : Cmd) (y : Sys) => dieIdle y o.die && !anyHeld y (ins ++ outs)
  let effect := fun (c : Cmd) (y : Sys) =>
    let rows := convRows y o
    let ws := convWrites o rows
    let es := rows.flatMap (fun r => r.2.elems)
    let d : CensusDelta := { slot := o.slot, die := o.die, elements := es.length, zero := countCls .zero es,
                             nonfinite := countCls .nonfinite es, sat := countCls .sat es, vanished := countCls .vanished es,
                             underflow := countCls .underflow es, exps := expsOf (rows.flatMap (fun r => r.1)) }
    if ws.any (fun w => protectedHit y (backIsFace c) w.1 w.2.length) then finish c.id .stateFaceWrite [] y
    else match consumeAll 3 y ins with
      | some z => finish c.id .memUncorrectable [] z
      | none => finish c.id .ok [] (modCmd c.id (fun c => { c with census := if o.slot = 0 then [] else [d] }) (writeAll c.id ws y))
  let badEnum := fun (pk : Packet) => badCode pk 0 24 8 fmtCodes || badCode pk 0 16 8 fmtCodes
  let layout := [bits [(32, 5), (24, 8), (16, 8), (0, 12)]] ++ List.replicate 7 allBits
  onSys s (fun p y => execCommand 0x0510 layout badEnum ready (check p) effect pk y)

/-- The fields of BOB_GATHER and BOB_SCATTER_ADD (R304). -/
structure RowOp where
  die : Nat
  fmt : Nat
  exp : Int
  rows : Nat
  len : Nat
  idx : Nat
  table : Nat
  tableRows : Nat
  tablePitch : Nat
  dense : Nat
  densePitch : Nat
deriving DecidableEq, Repr

/-- The fields of a packet (R304). -/
def rowOf (pk : Packet) : RowOp :=
  { die := pf pk 0 32 5, fmt := pf pk 0 24 8, exp := sext (pf pk 0 0 16) 16, rows := pf pk 1 32 32, len := pf pk 1 0 32,
    idx := pw pk 2, table := pw pk 3, tableRows := pf pk 4 32 32, tablePitch := pf pk 4 0 32, dense := pw pk 5,
    densePitch := pf pk 6 0 32 }

/-- Bits of the words of R304. -/
def rowLayout : List Nat := [bits [(32, 5), (24, 8), (0, 16)], allBits, allBits, allBits, allBits, allBits, bits [(0, 32)]]

/-- The index of row r. -/
def rowIndex (y : Sys) (o : RowOp) (r : Nat) : Nat := readNat y (o.idx + 4 * r) 4

/-- Rows whose index lies within the table, each with its index; or a choice among them once some index does not
(R305, log 1). -/
def rowsToDo (o : RowOp) : Nat → Sys → List (Nat × Nat) × Sys
  | 0, y => ([], y)
  | r + 1, y =>
    let l := rowsToDo o r y
    let x := rowIndex y o r
    if x < o.tableRows then (l.1 ++ [(r, x)], l.2) else l

/-- Each row kept or left out, as a free value says (R305, log 1). -/
def someRows : List (Nat × Nat) → Sys → List (Nat × Nat) × Sys
  | [], y => ([], y)
  | p :: l, y =>
    let w := freshWord y
    let q := someRows l w.2
    (if w.1.toNat % 2 = 1 then p :: q.1 else q.1, q.2)

/-- Bytes of a table row: as long as a dense row for a gather; 8 bytes for each element for a scatter-add (R657). -/
def tableRow (o : RowOp) (scatter : Bool) : Nat :=
  if scatter then (if o.fmt = 0x22 then 2 * o.len else 4 * o.len) else o.len

/-- The ranges of the index list, the dense rows and the table. -/
def rowRangesOf (o : RowOp) (scatter : Bool) : List (Nat × Nat) :=
  [(o.idx, 4 * o.rows), (o.table, spanBytes o.tableRows o.tablePitch (tableRow o scatter)),
   (o.dense, spanBytes o.rows o.densePitch o.len)]

/-- The field and address checks of R304, R178, R613 and R657: a gather reads indices and table, a scatter-add all three. -/
def rowChecks (p : Perm) (o : RowOp) (scatter : Bool) : List (Bool × Status) :=
  [(o.rows == 0 || decide (2 ^ 24 < o.rows) || shortPitch o.densePitch o.len || shortPitch o.tablePitch (tableRow o scatter),
    .paramRange),
   (fileClosed p ((rowRangesOf o scatter).take (if scatter then 3 else 2)), .debugClosed),
   (!aligned64 o.idx || !aligned64 o.table || !aligned64 o.dense || o.tablePitch % 64 != 0 || o.densePitch % 64 != 0 ||
      !inDramOrStore o.idx (4 * o.rows) || !inDramOrStore o.table (spanBytes o.tableRows o.tablePitch (tableRow o scatter)) ||
      !inDramOrStore o.dense (spanBytes o.rows o.densePitch o.len), .addrRange)]

/-- BOB_GATHER (R254, R304, R305). -/
def execBobGather (pk : Packet) (s : State) : Host.Outcome State Fault Refusal :=
  let o := rowOf pk
  let check := fun (p : Perm) (_ : Cmd) (_ : Sys) => firstFail
    ([(decide (17 < o.die), .paramRange),
      (o.fmt != 0 || o.exp != 0 || o.len % 64 != 0, .paramRange)] ++ rowChecks p o false)
  let copy := fun (c : Cmd) (l : List (Nat × Nat)) (y : Sys) =>
    l.foldl (fun z p => writeBytes (some c.id) (o.dense + p.1 * o.densePitch) (readBytes y (o.table + p.2 * o.tablePitch) o.len) z) y
  let effect := fun (c : Cmd) (y : Sys) =>
    if protectedHit y (backIsFace c) o.dense (spanBytes o.rows o.densePitch o.len) then finish c.id .stateFaceWrite [] y
    else match consume 3 o.idx (4 * o.rows) y with
      | some z => finish c.id .memUncorrectable [] z
      | none =>
        let l := rowsToDo o o.rows y
        match consumeAll 3 y (l.1.map (fun p => (o.table + p.2 * o.tablePitch, o.len))) with
        | some z => finish c.id .memUncorrectable [] z
        | none =>
          if l.1.length = o.rows then finish c.id .ok [] (copy c l.1 y)
          else
            let q := someRows l.1 y
            finish c.id .indexRange [] (copy c q.1 q.2)
  let badEnum := fun (pk : Packet) => badCode pk 0 24 8 (0 :: fmtCodes)
  let ready := fun (_ : Cmd) (y : Sys) => dieIdle y o.die && !anyHeld y (rowRangesOf o false)
  onSys s (fun p y => execCommand 0x0511 rowLayout badEnum ready (check p) effect pk y)

/-- The GF64 elements of one dense row and their classes (R93, R304). -/
def denseRow (y : Sys) (o : RowOp) (r : Nat) : List (Int × CenCls) :=
  let f := if o.fmt = 0x22 then Fmt.fp32 else .bf16
  let n := o.len / (fmtWidth f / 8)
  (rowScalars y f (o.dense + r * o.densePitch) n).map (fun v => toGf64 v o.exp)

/-- Add a list of GF64 elements into consecutive 8-byte elements (R94). -/
def addRow (id a : Nat) (es : List (Int × CenCls)) (y : Sys) : Sys :=
  es.zipIdx.foldl (fun y p =>
    writeBytes (some id) (a + 8 * p.2) (leBytes 8 ((readNat y (a + 8 * p.2) 8 + lowBits p.1.1 64) % 2 ^ 64)) y) y

/-- BOB_SCATTER_ADD (R254, R304, R305). -/
def execBobScatterAdd (pk : Packet) (s : State) : Host.Outcome State Fault Refusal :=
  let o := rowOf pk
  let check := fun (p : Perm) (_ : Cmd) (_ : Sys) => firstFail
    ([(decide (17 < o.die), .paramRange),
      (o.fmt != 0x22 && o.fmt != 0x20, .formatPair),
      (decide (o.exp < -256) || decide (255 < o.exp), .paramRange)] ++ rowChecks p o true)
  let span := spanBytes o.tableRows o.tablePitch (tableRow o true)
  let add := fun (c : Cmd) (l : List (Nat × Nat)) (y z : Sys) =>
    l.foldl (fun z p => addRow c.id (o.table + p.2 * o.tablePitch) (denseRow y o p.1) z) z
  let effect := fun (c : Cmd) (y : Sys) =>
    if protectedHit y (backIsFace c) o.table span then finish c.id .stateFaceWrite [] y
    else match consume 3 o.idx (4 * o.rows) y with
      | some z => finish c.id .memUncorrectable [] z
      | none =>
        let l := rowsToDo o o.rows y
        let rs := l.1.flatMap (fun p => [(o.dense + p.1 * o.densePitch, o.len), (o.table + p.2 * o.tablePitch, tableRow o true)])
        match consumeAll 3 y rs with
        | some z => finish c.id .memUncorrectable [] z
        | none =>
          if l.1.length = o.rows then
            let es := l.1.flatMap (fun p => denseRow y o p.1)
            let sat := (es.filter (fun e => e.2 == .sat)).length
            let res := BitVec.ofNat 64 (satAt (umax 32) sat + b2n (es.any (fun e => e.2 == .nonfinite)) * 2 ^ 32)
            finish c.id .ok [res] (add c l.1 y y)
          else
            let q := someRows l.1 y
            finish c.id .indexRange [] (add c q.1 y q.2)
  let badEnum := fun (pk : Packet) => badCode pk 0 24 8 fmtCodes
  let ready := fun (_ : Cmd) (y : Sys) => dieIdle y o.die && !anyHeld y (rowRangesOf o true)
  onSys s (fun p y => execCommand 0x0512 rowLayout badEnum ready (check p) effect pk y)

/-! ### The state map (R274, R282 to R284) -/

/-- Replace an entry. -/
def setEntry (k : Nat) (e : Entry) (y : Sys) : Sys :=
  { y with smap := { y.smap with entries := mapSet {} y.smap.entries k e } }

/-- The ranges of a LOAD break R274. -/
def badEntryRanges (y : Sys) (face back len : Nat) : Bool :=
  face % 65536 != 0 || back % 65536 != 0 || len % 65536 != 0 || len == 0 || !inDram face len || !inDram back len ||
  stackOf face != stackOf (face + len - 1) || stackOf back != stackOf (back + len - 1) || stackOf face != stackOf back ||
  overlap face len back len || mapHit y face len || mapHit y back len

/-- STATE_SET (R282, R283): a command that runs at a FREE keeps the translation it began with. -/
def execStateSet (pk : Packet) (s : State) : Host.Outcome State Fault Refusal :=
  let action := pf pk 0 16 2
  let k := pf pk 0 0 8
  let face := pw pk 1
  let back := pw pk 2
  let len := pf pk 3 0 40
  let check := fun (c : Cmd) (y : Sys) =>
    let e := entryAt y k
    firstFail
    [(action != 0 && (face != 0 || back != 0 || len != 0 || pf pk 0 24 4 != 0), .paramRange),
     (c.shadow, .shadowMode),
     (weaveSender y, .weaveBusy),
     (action == 0 && (e.state != .free || badEntryRanges y face back len), .stateMap),
     (action == 1 && e.state != .loading, .stateMap),
     (action == 2 && e.state == .active && stepOpen y, .stateMap)]
  let effect := fun (c : Cmd) (y : Sys) =>
    let e : Entry := match action with
      | 0 => { state := .loading, face := face, back := back, length := len, kind := pf pk 0 24 4 }
      | 1 => { entryAt y k with state := .active }
      | _ => {}
    finish c.id .ok [] (setEntry k e (if action = 2 then keepView (entryAt y k) y else y))
  let badEnum := fun (pk : Packet) => badCode pk 0 24 4 [0, 1, 2, 3, 4] || badCode pk 0 16 2 [0, 1, 2]
  let layout := [bits [(24, 4), (16, 2), (0, 8)], allBits, allBits, bits [(0, 40)]]
  onSys s (fun _ y => execCommand 0x0520 layout badEnum always check effect pk y)

/-- The code of an entry's state (R284). -/
def entryCode : EntryState → Nat
  | .free => 0
  | .loading => 1
  | .active => 2

/-- The result words of STATE_READ (R284). -/
def entryWords (e : Entry) : List Word64 :=
  [BitVec.ofNat 64 (entryCode e.state + b2n e.sel * 2 ^ 8 + b2n e.backWritten * 2 ^ 9 + e.kind * 2 ^ 24),
   BitVec.ofNat 64 e.face, BitVec.ofNat 64 e.back, BitVec.ofNat 64 e.length, e.digest]

/-- STATE_READ (R284). -/
def execStateRead (pk : Packet) (s : State) : Host.Outcome State Fault Refusal :=
  let effect := fun (c : Cmd) (y : Sys) => finish c.id .ok (entryWords (entryAt y (pf pk 0 0 8))) y
  onSys s (fun _ y => execCommand 0x0521 [bits [(0, 8)]] (fun _ => false) always noCheck effect pk y)

/-! ### The census (R306, R309, R310, R312, R313) -/

/-- A slot's settings. -/
def censusCtl (y : Sys) (slot : Nat) : CensusCtl := mapGet {} y.cen.ctl slot

/-- Clear one slot on every die and set it (R312). -/
def clearSlot (histLo : Int) (alert : Bool) (slot : Nat) (c : CensusSt) : CensusSt :=
  { parts := (List.range 18).foldl (fun m d => mapSet {} m (1024 * d + slot) {}) c.parts,
    ctl := mapSet {} c.ctl slot { histLo := histLo, alert := alert } }

/-- CENSUS_CLEAR (R310, R312). -/
def execCensusClear (pk : Packet) (s : State) : Host.Outcome State Fault Refusal :=
  let first := pf pk 0 0 12
  let last := pf pk 0 32 12
  let check := fun (_ : Cmd) (_ : Sys) => firstFail
    [(first == 0 || decide (last < first) || decide (0x3FF < last), .paramRange)]
  let effect := fun (c : Cmd) (y : Sys) =>
    let slots := (List.range (last - first + 1)).map (fun i => first + i)
    let cen := slots.foldl (fun x k => clearSlot (sext (pf pk 1 0 16) 16) (pf pk 0 16 1 == 1) k x) y.cen
    finish c.id .ok [] { y with cen := cen }
  onSys s (fun _ y => execCommand 0x0530 [bits [(0, 12), (16, 1), (32, 12)], bits [(0, 16)]] (fun _ => false) always check
    effect pk y)

/-- The larger and the smaller exponent of two parts (R309). -/
def joinExps (a b : CensusPart) : Int × Int × Bool :=
  if a.expValid = false then (b.emax, b.emin, b.expValid)
  else if b.expValid = false then (a.emax, a.emin, true)
  else (if a.emax < b.emax then b.emax else a.emax, if b.emin < a.emin then b.emin else a.emin, true)

/-- The sum of two parts; counts saturate at 64 bits (R309). -/
def joinParts (a b : CensusPart) : CensusPart :=
  let e := joinExps a b
  let add := fun (x z : Nat) => satAt (umax 64) (x + z)
  { elements := add a.elements b.elements, zero := add a.zero b.zero, nonfinite := add a.nonfinite b.nonfinite,
    sat := add a.sat b.sat, vanished := add a.vanished b.vanished, underflow := add a.underflow b.underflow,
    emax := e.1, emin := e.2.1, expValid := e.2.2,
    bins := b.bins.foldl (fun m p => mapSet 0 m p.1 (add (mapGet 0 m p.1) p.2)) a.bins }

/-- The combined content of a slot (R309). -/
def censusSlot (y : Sys) (slot : Nat) : CensusPart :=
  (List.range 18).foldl (fun a d => joinParts a (mapGet {} y.cen.parts (1024 * d + slot))) {}

/-- The 576-byte record of a slot (R313). -/
def censusRecord (y : Sys) (slot : Nat) : List Byte :=
  let p := censusSlot y slot
  let ctl := censusCtl y slot
  leBytes 1 0x10 ++ leBytes 1 (b2n ctl.alert + 2 * b2n p.expValid) ++ leBytes 2 slot ++ leBytes 2 (lowBits ctl.histLo 16) ++
  leBytes 2 0 ++ leBytes 2 (lowBits p.emax 16) ++ leBytes 2 (lowBits p.emin 16) ++ leBytes 4 0 ++ leBytes 8 p.elements ++
  leBytes 8 p.zero ++ leBytes 8 p.nonfinite ++ leBytes 8 p.sat ++ leBytes 8 p.vanished ++ leBytes 8 p.underflow ++
  (List.range 64).flatMap (fun k => leBytes 8 (mapGet 0 p.bins k))

/-- CENSUS_READ (R254, R310, R313). -/
def execCensusRead (pk : Packet) (s : State) : Host.Outcome State Fault Refusal :=
  let slot := pf pk 0 0 12
  let dst := pw pk 1
  let check := fun (_ : Cmd) (_ : Sys) => firstFail
    [(slot == 0 || decide (0x3FF < slot), .paramRange), (!aligned64 dst || !inDram dst 576, .addrRange)]
  let effect := fun (c : Cmd) (y : Sys) =>
    if protectedHit y (backIsFace c) dst 576 then finish c.id .stateFaceWrite [] y
    else
      let p := censusSlot y slot
      finish c.id .ok [BitVec.ofNat 64 (satAt (umax 32) p.nonfinite * 2 ^ 32 + satAt (umax 32) p.sat)]
        (writeBytes (some c.id) dst (censusRecord y slot) y)
  let ready := fun (_ : Cmd) (y : Sys) => !rangeHeld y dst 576
  onSys s (fun _ y => execCommand 0x0531 [bits [(0, 12)], allBits] (fun _ => false) ready check effect pk y)

/-- Add one exponent to a part (R307). -/
def addExp (histLo : Int) (e : Int) (p : CensusPart) : CensusPart :=
  let k := e - histLo
  let bin := if k < 0 then 0 else if 63 < k then 63 else k.toNat
  { p with bins := mapSet 0 p.bins bin (satAt (umax 64) (mapGet 0 p.bins bin + 1)), expValid := true,
           emax := if p.expValid ∧ e ≤ p.emax then p.emax else e, emin := if p.expValid ∧ p.emin ≤ e then p.emin else e }

/-- A command's contribution enters its die's part (R307, R308). -/
def addCensus (d : CensusDelta) (y : Sys) : Sys :=
  let h := (censusCtl y d.slot).histLo
  let key := 1024 * d.die + d.slot
  let add := fun (x z : Nat) => satAt (umax 64) (x + z)
  let one := fun (p : CensusPart) =>
    let p := { p with elements := add p.elements d.elements, zero := add p.zero d.zero, nonfinite := add p.nonfinite d.nonfinite,
                      sat := add p.sat d.sat, vanished := add p.vanished d.vanished, underflow := add p.underflow d.underflow }
    d.exps.foldl (fun p e => addExp h e p) p
  { y with cen := { y.cen with parts := mapMod {} y.cen.parts key one } }

end Sys2Proof.Machine
end

