-- ==== Sys2Proof/Machine/Collect.lean ====
section
/-! DEFINITION. Exact collectives: shards, strands and packets of a bucket, bucket headers, link adders, half-sums,
digests, and the end of a bucket command (R325 to R358). -/

namespace Sys2Proof.Machine

open Sys2Proof

/-! ### The geometry of a bucket (R330, R334) -/

/-- First element of shard j of P (R330). -/
def shardFirst (count p j : Nat) : Nat := j * count / p

/-- Elements of shard j (R330). -/
def shardLen (count p j : Nat) : Nat := shardFirst count p (j + 1) - shardFirst count p j

/-- First element of strand u of shard j (R330). -/
def strandFirst (count p strands j u : Nat) : Nat := shardFirst count p j + u * shardLen count p j / strands

/-- The packets of n elements from a first one on: first element and count, 512 at a time (R330). -/
def piecesOf : Nat → Nat → Nat → List (Nat × Nat)
  | 0, _, _ => []
  | fuel + 1, first, n =>
    if n = 0 then [] else (first, Nat.min n 512) :: piecesOf fuel (first + 512) (n - 512)

/-- The packets of strand u of shard j. -/
def strandPackets (count p strands j u : Nat) : List (Nat × Nat) :=
  let a := strandFirst count p strands j u
  let n := strandFirst count p strands j (u + 1) - a
  piecesOf (cdiv n 512) a n

/-- The packets of shard j: strand, first element, elements. -/
def shardPackets (count p strands j : Nat) : List (Nat × Nat × Nat) :=
  (List.range strands).flatMap (fun u => (strandPackets count p strands j u).map (fun q => (u, q.1, q.2)))

/-- Contributors of a route (R334). -/
def contributors (r : Route) : Nat := if r.split then 2 * r.p else r.p

/-- ceil(log2(n)). -/
def clog2 (n : Nat) : Nat := if n ≤ 1 then 0 else Nat.log2 (n - 1) + 1

/-- A value lies in the contribution range of a route (R334). -/
def inContribution (r : Route) (v : Int) : Bool :=
  let h := clog2 (contributors r)
  decide (-Int.ofNat (2 ^ (63 - h)) ≤ v) && decide (v < Int.ofNat (2 ^ (63 - h)))

/-- The position after p on the ring (R325). -/
def nextPos (r : Route) (j : Nat) : Nat := (j + 1) % r.p

/-- The position before p on the ring (R325). -/
def prevPos (r : Route) (j : Nat) : Nat := (j + r.p - 1) % r.p

/-- A route. -/
def routeAt (y : Sys) (k : Nat) : Route := mapGet {} y.coll.routes k

/-- The device on this side at a position (R325). -/
def memberAt (r : Route) (j : Nat) : Nat := let m := r.members.getD j (0, 0); if r.sideB then m.2 else m.1

/-- Shards whose packets arrive at this device: all but its first in the reduce ring, all but its own in the gather
ring (R336, R353). -/
def arriving (r : Route) (gather : Bool) : List Nat :=
  (List.range r.p).filter (fun j => if gather then j != r.selfPos else j != prevPos r r.selfPos)

/-! ### Headers (R331, R332) -/

/-- A flag of a bucket header: bit 0 OVF, 1 NONFINITE, 2 TWIN_COPY, 3 HALF, 4 GATHER. -/
def hdrFlag (h : BucketHdr) (i : Nat) : Bool := flag h.flags i

/-- Bytes 0 to 27 of a header (R331). -/
def hdrHead (h : BucketHdr) : List Byte :=
  leBytes 1 0x10 ++ leBytes 1 h.flags.toNat ++ leBytes 2 h.tag ++ leBytes 4 h.step ++ leBytes 2 (lowBits h.exp 16) ++
  leBytes 1 h.gen ++ leBytes 1 (h.route + 16 * h.strand) ++ leBytes 2 h.shard ++ leBytes 2 h.srcPos ++
  leBytes 8 h.first ++ leBytes 2 h.elems ++ leBytes 2 0

/-- A bucket packet: header with its CRC, and payload (R331). -/
def bucketBytes (h : BucketHdr) (payload : List Byte) : List Byte :=
  hdrHead h ++ leBytes 4 (crc32c (hdrHead h ++ payload)) ++ payload

/-- The header that bytes hold (R331). -/
def hdrOf (b : List Byte) : BucketHdr :=
  { flags := BitVec.ofNat 8 (at8 b 1 1), tag := at8 b 2 2, step := at8 b 4 4, exp := sext (at8 b 8 2) 16, gen := at8 b 10 1,
    route := at8 b 11 1 % 16, strand := at8 b 11 1 / 16 % 8, shard := at8 b 12 2, srcPos := at8 b 14 2,
    first := at8 b 16 5, elems := at8 b 24 2 }

/-- A bucket that a header names among those of its step: its shadow apart, of this step, this tag and this kind. -/
def bucketFor (y : Sys) (h : BucketHdr) : Option Bucket :=
  y.coll.buckets.find? (fun b => !b.shadow && b.tag == h.tag && b.step % 2 ^ 32 == h.step && b.gather == hdrFlag h 4)

/-- Bytes of an element of a bucket. -/
def bktElemBytes (b : Bucket) : Nat := if b.gather then b.esize else 8

/-- The packet's elements leave the strand and shard it names (R332). -/
def outsideStrand (r : Route) (count : Nat) (h : BucketHdr) : Bool :=
  decide (h.first < strandFirst count r.p r.strands.length h.shard h.strand) ||
  decide (strandFirst count r.p r.strands.length h.shard (h.strand + 1) < h.first + h.elems)

/-- The header fails a check of R332 that needs no bucket: CRC, version, a reserved bit, a route not loaded. Whether its
elements lie outside the strand and shard it names shows once its bucket's command has started (outsideStrand). -/
def malformed (y : Sys) (bytes : List Byte) : Bool :=
  let h := hdrOf bytes
  let r := routeAt y h.route
  let payload := bytes.drop 32
  decide (bytes.length < 32) || at8 bytes 28 4 != crc32c (bytes.take 28 ++ payload) || at8 bytes 0 1 != 0x10 ||
  flag h.flags 5 || flag h.flags 6 || flag h.flags 7 || decide (128 ≤ at8 bytes 11 1) || at8 bytes 21 3 != 0 ||
  at8 bytes 26 2 != 0 || !r.loaded || decide (r.p ≤ h.shard) || decide (r.strands.length ≤ h.strand) ||
  h.elems == 0 || decide (512 < h.elems) || (!hdrFlag h 4 && payload.length != 8 * h.elems)

/-- Drop a malformed packet: counted, and kept as an event (R332, R371, R573). -/
def dropHeader (port : Nat) (bytes : List Byte) (y : Sys) : Sys :=
  recordEvent 1 0x0021 port (at8 bytes 0 8) (onPort port (fun p => { p with badHdr := satAt (umax 8) (p.badHdr + 1) }) y)

/-! ### Buckets -/

/-- Change the bucket of a command. -/
def modBucket (id : Nat) (f : Bucket → Bucket) (y : Sys) : Sys :=
  { y with coll := { y.coll with buckets := y.coll.buckets.map (fun b => if b.cmd = id then f b else b) } }

/-- Replace a bucket. -/
def putBucket (b : Bucket) (y : Sys) : Sys := modBucket b.cmd (fun _ => b) y

/-- Bucket commands in progress (R361). -/
def bucketsRunning (y : Sys) : List Bucket := y.coll.buckets.filter (fun b => !b.finished)

/-- The record of a bucket command (R358, R367). -/
def recordOf (b : Bucket) (diff : Bool) (nonfinite : Bool) (dSent dRecv : Word64) : BucketRec :=
  { tag := b.tag, kind := b2n b.gather, exp := if b.gather then 0 else b.exp, resends := b.resends,
    flags := BitVec.ofNat 8 (b2n (decide (0 < b.taken)) + 2 * b2n (decide (0 < b.resends)) + 4 * b2n nonfinite + 8 * b2n diff),
    dSent := dSent, dRecv := dRecv, step := b.step, taken := b.taken }

/-- A bucket command fails: it sends no further packets. A step-fatal or device-fatal status takes the place of one with which
the command has finished and waits for its lane (R333, R352, R360, R361, R638). -/
def failBucket (b : Bucket) (st : Status) (y : Sys) : Sys :=
  let y := putBucket { b with finished := true, failed := true } y
  let record := fun (c : Cmd) =>
    if isDone c && !isStepFatal st then c else { c with record := some (recordOf b (st == .bucketTwinDiff) false 0 0) }
  let y := finish b.cmd st [] (modCmd b.cmd record y)
  if isStepFatal st || isDeviceFatal st then overrule b.cmd st y else y

/-- A bucket command that met a poisoned granule with a partial write fails at once (R228, R361). -/
def stopSpoiled (id : Nat) (y : Sys) : Sys :=
  match y.coll.buckets.find? (fun b => b.cmd == id && !b.finished), findCmd y id with
  | some b, some c => if c.partialPoison then failBucket b .memUncorrectable y else y
  | _, _ => y

/-- A bucket digest: the sum of mix over n elements of w bytes from index first on (R356). -/
def elemDigest (y : Sys) (tag w a first n : Nat) : Word64 :=
  (List.range n).foldl (fun d i => d + mix (digestKey y) tag (first + i) (readNat y (a + w * i) w)) 0

/-- Elements as 64-bit numbers. -/
def elems64 : Nat → List Byte → List Nat
  | 0, _ => []
  | n + 1, b => ofLe (b.take 8) :: elems64 n (b.drop 8)

/-- Bytes of 64-bit elements. -/
def bytes64 (l : List Nat) : List Byte := l.flatMap (leBytes 8)

/-- Sum modulo 2^64, element by element (R94). -/
def sum64 (a b : List Nat) : List Nat := (a.zip b).map (fun p => (p.1 + p.2) % 2 ^ 64)

/-- The member's own piece of a packet (R336). -/
def ownPiece (y : Sys) (b : Bucket) (first n : Nat) : List Nat := elems64 n (readBytes y (b.stage + 8 * first) (8 * n))

/-- Where the member's result of a packet stands: DST at the owner and in a gather, else the relay buffer
(R336, R337, R353). -/
def resultAddr (b : Bucket) (r : Route) (shard first : Nat) : Nat :=
  if b.gather then b.dst + b.esize * first
  else if shard = r.selfPos then b.dst + 8 * (first - shardFirst b.count r.p r.selfPos)
  else b.relay + 8 * first

/-- The header of a packet that this member sends. -/
def sendHdr (b : Bucket) (r : Route) (flags : BitVec 8) (strand shard first n : Nat) : BucketHdr :=
  { flags := flags ||| (if b.gather then 16 else 0), tag := b.tag, step := b.step % 2 ^ 32, exp := if b.gather then 0 else b.exp,
    gen := b.gen, route := b.route, strand := strand, shard := shard, srcPos := r.selfPos, first := first, elems := n }

/-- Send a packet through a strand's out port (R336, R353). -/
def sendStrand (b : Bucket) (r : Route) (flags : BitVec 8) (strand shard first n : Nat) (payload : List Byte) (y : Sys) : Sys :=
  sendWarp (r.strands.getD strand (0, 0)).1 (.bucket (bucketBytes (sendHdr b r flags strand shard first n) payload)) y

/-- Send packets of a shard from memory, where element first0 stands at base; a poisoned granule among their bytes ends the
command and its sending (R228, R265, R361). -/
def sendPieces (b : Bucket) (r : Route) (flags : BitVec 8) (shard base first0 : Nat) : List (Nat × Nat × Nat) → Sys → Sys
  | [], y => y
  | q :: l, y =>
    let a := base + bktElemBytes b * (q.2.1 - first0)
    let n := bktElemBytes b * q.2.2
    match consume 5 a n y with
    | some z => failBucket b .memUncorrectable z
    | none => sendPieces b r flags shard base first0 l (sendStrand b r flags q.1 shard q.2.1 q.2.2 (readBytes y a n) y)

/-- Send every packet of a shard from memory (R336, R353). -/
def sendShard (b : Bucket) (r : Route) (flags : BitVec 8) (shard base first0 : Nat) (y : Sys) : Sys :=
  sendPieces b r flags shard base first0 (shardPackets b.count r.p r.strands.length shard) y

/-- Send one packet on, unless its writing met a poisoned granule (R228, R336, R361). -/
def sendOn (b : Bucket) (r : Route) (flags : BitVec 8) (strand shard first n : Nat) (payload : List Byte) (y : Sys) : Sys :=
  let z := stopSpoiled b.cmd y
  if (findCmd z b.cmd).any isDone && !b.finished then z else sendStrand b r flags strand shard first n payload z

/-- Every packet of a shard has been dealt with. -/
def shardHandled (b : Bucket) (r : Route) (shard : Nat) : Bool :=
  (shardPackets b.count r.p r.strands.length shard).all (fun q => b.handled.any (fun h => h.1 == shard && h.2.1 == q.2.1))

/-- The own shard is final: every packet arrived, and in mode SPLIT joined with the twin's half (R337, R340, R343). -/
def shardFinal (b : Bucket) (r : Route) : Bool :=
  if r.split then (shardPackets b.count r.p r.strands.length r.selfPos).all (fun q => b.joined.elem q.2.1)
  else shardHandled b r r.selfPos

/-- Every partial relayed for other owners has been sent on (R345). -/
def relaysDone (b : Bucket) (r : Route) : Bool :=
  ((arriving r b.gather).filter (fun j => j != r.selfPos)).all (fun j => shardHandled b r j)

/-- A packet of the bucket is unacknowledged at a port. -/
def sendsLeft (b : Bucket) (p : PortSt) : Bool :=
  let mine := fun (m : WarpMsg) => match m with
    | .bucket bytes => (hdrOf bytes).tag == b.tag && (hdrOf bytes).step == b.step % 2 ^ 32 && hdrFlag (hdrOf bytes) 4 == b.gather
    | _ => false
  p.retry.any (fun q => mine q.msg) || p.undelivered.any mine

/-- Every packet that the member sent for the bucket is acknowledged (R319). -/
def sendsDone (y : Sys) (b : Bucket) : Bool := y.lnk.ports.all (fun p => !sendsLeft b p.2)

/-- The twin's half and the own half of a packet are joined: the result goes to DST, flags to the shard (R340). -/
def joinHalves (b : Bucket) (r : Route) (first : Nat) (own twin : List Nat × BitVec 8) (y : Sys) : Sys :=
  let y := writeBytes (some b.cmd) (resultAddr b r r.selfPos first) (bytes64 (sum64 own.1 twin.1)) y
  putBucket { b with ownHalf := b.ownHalf.filter (fun p => p.1 != first), twinHalf := b.twinHalf.filter (fun p => p.1 != first),
                     joined := b.joined ++ [first], shardFlags := b.shardFlags ||| own.2 ||| twin.2 } y

/-- The owner's half-sum of a packet is complete: held, sent to the twin, joined where the twin's half is there
(R337, R340). -/
def ownHalfDone (b : Bucket) (r : Route) (h : BucketHdr) (sum : List Nat) (fl : BitVec 8) (y : Sys) : Sys :=
  let out := { sendHdr b r (fl ||| 8) h.strand h.shard h.first h.elems with }
  let y := sendTwin b.tag h.shard (.bucket (bucketBytes out (bytes64 sum))) y
  match b.twinHalf.find? (fun p => p.1 == h.first) with
  | some t => joinHalves b r h.first (sum, fl) (t.2.1, t.2.2) y
  | none => putBucket { b with ownHalf := b.ownHalf ++ [(h.first, sum, fl)] } y

/-- The twin's half-sum of a packet arrives (R340). -/
def twinHalfIn (b : Bucket) (r : Route) (h : BucketHdr) (half : List Nat) (y : Sys) : Sys :=
  let fl := h.flags &&& 3
  if b.joined.elem h.first || b.twinHalf.any (fun p => p.1 == h.first) then y
  else match b.ownHalf.find? (fun p => p.1 == h.first) with
    | some o => joinHalves b r h.first (o.2.1, o.2.2) (half, fl) y
    | none => putBucket { b with twinHalf := b.twinHalf ++ [(h.first, half, fl)] } y

/-- A link adder adds the own piece to an arriving partial: relayed, or the owner's result (R336, R337). -/
def addPartial (b : Bucket) (r : Route) (h : BucketHdr) (payload : List Byte) (y : Sys) : Sys :=
  match consume 5 (b.stage + 8 * h.first) (8 * h.elems) y with
  | some z => failBucket b .memUncorrectable z
  | none =>
    let sum := sum64 (elems64 h.elems payload) (ownPiece y b h.first h.elems)
    let fl := (h.flags &&& 3) ||| b.ownFlags
    let b := { b with handled := b.handled ++ [(h.shard, h.first, fl)] }
    if h.shard = r.selfPos then
      if r.split then ownHalfDone b r h sum fl (putBucket b y)
      else
        let b := { b with shardFlags := b.shardFlags ||| fl }
        putBucket b (writeBytes (some b.cmd) (resultAddr b r h.shard h.first) (bytes64 sum) y)
    else
      let y := writeBytes (some b.cmd) (resultAddr b r h.shard h.first) (bytes64 sum) y
      sendOn b r fl h.strand h.shard h.first h.elems (bytes64 sum) (putBucket b y)

/-- The results of a BKT_GATHER (R366). -/
def gatherResults (y : Sys) (b : Bucket) (r : Route) : List Word64 × BucketRec :=
  let n := shardLen b.count r.p r.selfPos
  let f := shardFirst b.count r.p r.selfPos
  let dS := elemDigest y b.tag b.esize b.src f n
  let dR := elemDigest y b.tag b.esize b.dst 0 b.count
  ([BitVec.ofNat 64 (b.taken % 2 ^ 32), dS, dR], recordOf b false false dS dR)

/-- A gather that has every shard completes (R353). -/
def tryGather (b : Bucket) (r : Route) (y : Sys) : Sys :=
  if (findCmd y b.cmd).any isDone then y
  else if (arriving r true).all (fun j => shardHandled b r j) then
    let res := gatherResults y b r
    let y := modCmd b.cmd (fun c => { c with record := some res.2 }) (putBucket { b with finished := true } y)
    finish b.cmd (if b.taken = 0 then .ok else .bucketTwinTaken) res.1 y
  else y

/-- A gather packet: written into DST, sent on until it reaches the predecessor of its owner (R353). -/
def gatherIn (b : Bucket) (r : Route) (h : BucketHdr) (payload : List Byte) (y : Sys) : Sys :=
  let b := { b with handled := b.handled ++ [(h.shard, h.first, 0)] }
  let y := writeBytes (some b.cmd) (resultAddr b r h.shard h.first) payload y
  let y := putBucket b y
  let y := if nextPos r r.selfPos = h.shard then y else sendOn b r 0 h.strand h.shard h.first h.elems payload y
  tryGather b r y

/-- A BUCKET record of a link die's trace unit: event, shard and generation (R555, R556). -/
def bucketTrace (b : Bucket) (ev shard port : Nat) (y : Sys) : Sys :=
  traceRec (18 + port / 8) 5 (stampNow y) b.tag 0 0 0 0 (ev + shard % 2 ^ 16 * 2 ^ 8 + b.gen % 2 ^ 8 * 2 ^ 24) y

/-- The port whose link die records what concerns a whole bucket: the out port of strand 0. -/
def bucketPort (r : Route) : Nat := (r.strands.getD 0 (0, 0)).1

/-- The in port of a strand. -/
def inPort (r : Route) (strand : Nat) : Nat := (r.strands.getD strand (0, 0)).2

/-! ### Late originals (R349, R352) -/

/-- Set the twin-difference flag of a record (R352, R367). -/
def markDiff (tag : Nat) (l : List BucketRec) : List BucketRec :=
  l.map (fun r => if r.tag = tag then { r with flags := r.flags ||| 8 } else r)

/-- A late original differs from the value used: the command ends, or the difference is counted and noticed once the
command has completed (R352, R389, R453). -/
def twinDifference (b : Bucket) (y : Sys) : Sys :=
  let y := setDirty 4 y
  match findCmd y b.cmd with
  | some _ => failBucket b .bucketTwinDiff y
  | none =>
    let y := { y with coll := { y.coll with twinDiff := satAt (umax 8) (y.coll.twinDiff + 1), recsOpen := markDiff b.tag y.coll.recsOpen } }
    notice 0x05 b.tag b.cmdTag 0 b.step y

/-- A late original is compared with the value used, and enters nothing; a poisoned granule among the bytes read for it ends
a command that still works (R228, R265, R349). -/
def lateOriginal (b : Bucket) (r : Route) (h : BucketHdr) (payload : List Byte) (y : Sys) : Sys :=
  let b := { b with used := b.used.filter (fun u => u != (h.shard, h.first)) }
  let y := bucketTrace b 5 h.shard (inPort r h.strand) (putBucket b y)
  let n := bktElemBytes b * h.elems
  let a := resultAddr b r h.shard h.first
  match consumeAll 5 y ((a, n) :: if b.gather then [] else [(b.stage + 8 * h.first, n)]) with
  | some z => if b.finished then z else failBucket b .memUncorrectable z
  | none =>
    let mine := if b.gather then payload else bytes64 (sum64 (elems64 h.elems payload) (ownPiece y b h.first h.elems))
    if readBytes y a n = mine then
      { y with coll := { y.coll with lateCompared := satAt (umax 16) (y.coll.lateCompared + 1) } }
    else twinDifference b y

/-! ### Arrival of a packet (R333, R338, R345, R361) -/

/-- Bytes of holding buffer of a link die in use (R338). -/
def holdUsed (y : Sys) (die : Nat) : Nat :=
  (y.coll.holding.filter (fun h => h.port / 8 == die)).foldl (fun s h => s + 32 + h.payload.length) 0

/-- Hold a packet that arrived at a pick under flow control; where the die's buffer is full it stands at its port, which
takes nothing more until space frees (R338). -/
def holdPacket (port pick : Nat) (h : BucketHdr) (payload : List Byte) (y : Sys) : Sys :=
  let p : HeldPartial := { port := port, hdr := h, payload := payload, pick := pick }
  if holdUsed y (port / 8) + 32 + payload.length ≤ 0x800000 then
    { y with coll := { y.coll with holding := y.coll.holding ++ [p] } }
  else { y with coll := { y.coll with stalled := y.coll.stalled ++ [p] } }

/-- The step that a header names has not ended: it is the step to come or open, or a later one, and not an aborted one
(R338, R361, R398). -/
def stepAhead (y : Sys) (step : Nat) : Bool :=
  let d := (step + 2 ^ 32 - openStep y % 2 ^ 32) % 2 ^ 32
  decide (d < 2 ^ 31) && !(d == 0 && y.stp.abortPending)

/-- The header disagrees with the member's own command (R333). -/
def mismatched (b : Bucket) (r : Route) (h : BucketHdr) : Bool :=
  h.route != b.route || decide (b.gen + 1 < h.gen) ||
  (if b.gather then h.exp != 0 || h.gen != 0
   else (h.gen == b.gen && h.exp != b.exp) || (h.gen == b.gen + 1 && h.exp != b.exp + 8)) ||
  !(shardPackets b.count r.p r.strands.length h.shard).elem (h.strand, h.first, h.elems) ||
  (if hdrFlag h 3 then !r.split || h.shard != r.selfPos else !(arriving r b.gather).elem h.shard)

/-- Open the window of a bucket at the first arrival of its generation (R347). -/
def openWindow (b : Bucket) (pick : Nat) : Bucket := if b.window.isNone then { b with window := some pick } else b

/-! ### Lateness (R347 to R351) -/

/-- Packets that the member expects from its predecessor: strand, shard, first element, elements. -/
def expected (b : Bucket) (r : Route) : List (Nat × Nat × Nat × Nat) :=
  (arriving r b.gather).flatMap (fun j => (shardPackets b.count r.p r.strands.length j).map (fun q => (q.1, j, q.2.1, q.2.2)))

/-- A packet is late at the end of a window: neither dealt with, nor asked for, nor held since a pick before the end
(R347). -/
def isLate (y : Sys) (b : Bucket) (windowEnd : Nat) (q : Nat × Nat × Nat × Nat) : Bool :=
  !b.handled.any (fun h => h.1 == q.2.1 && h.2.1 == q.2.2.1) && !b.asked.elem (q.2.1, q.2.2.1) &&
  !y.coll.holding.any (fun p => p.hdr.tag == b.tag && p.hdr.step == b.step % 2 ^ 32 && p.hdr.gen == b.gen &&
    hdrFlag p.hdr 4 == b.gather && p.hdr.shard == q.2.1 && p.hdr.first == q.2.2.1 && decide (p.pick < windowEnd))

/-- Ask the twin for its copy of a packet (R348). -/
def askTwin (b : Bucket) (r : Route) (q : Nat × Nat × Nat × Nat) (y : Sys) : Sys :=
  let h := sendHdr b r 4 q.1 q.2.1 q.2.2.1 q.2.2.2
  sendTwin b.tag q.2.1 (.copyRequest (bucketBytes h [])) y

/-- The twin link carries copies (R350, R351, R406). -/
def twinCopies (y : Sys) : Bool := y.stp.agreed && y.stp.twinMode == .mirror && decide (0 < (upTwin y).length)

/-- The pick at which a bucket's window ends, where it substitutes at all (R347, R351). -/
def lateFrom (b : Bucket) (r : Route) : Option Nat :=
  if b.shadow || b.latePicks == 0 || r.split || b.finished then none else b.window.map (fun a => a + b.latePicks)

/-- The window of a bucket has ended: the member asks its twin for every late packet, or waits for the originals where it
cannot ask (R347, R348, R350, R351). -/
def expireWindow (b : Bucket) (r : Route) (windowEnd : Nat) (y : Sys) : Bucket × Sys :=
  let late := (expected b r).filter (isLate y b windowEnd)
  let keys := late.map (fun q => (q.2.1, q.2.2.1))
  if twinCopies y then
    let b := { b with asked := b.asked ++ keys }
    (b, putBucket b (late.foldl (fun z q => askTwin b r q z) y))
  else
    let b := { b with asked := b.asked ++ keys, refusedCopy := b.refusedCopy ++ keys }
    (b, putBucket b y)

/-- A packet that arrives at a pick finds the window ended: it is late, and so are the others that have not arrived
(R347). -/
def checkWindow (b : Bucket) (r : Route) (pick : Nat) (y : Sys) : Bucket × Sys :=
  match lateFrom b r with
  | none => (b, y)
  | some e => if e ≤ pick then expireWindow b r e y else (b, y)

/-- A packet of the bucket's present generation that its adder can take: added, compared, or held until the twin's
answer (R336, R340, R349, R350, R353). -/
def takePacket (port pick : Nat) (b : Bucket) (r : Route) (h : BucketHdr) (payload : List Byte) (y : Sys) : Sys :=
  let key := (h.shard, h.first)
  if hdrFlag h 3 then twinHalfIn b r h (elems64 h.elems payload) y
  else if b.used.elem key then lateOriginal b r h payload y
  else if b.handled.any (fun q => q.1 == h.shard && q.2.1 == h.first) then y
  else if b.asked.elem key && !b.refusedCopy.elem key then holdPacket port pick h payload y
  else if b.gather then gatherIn b r h payload y
  else addPartial b r h payload y

/-- A bucket packet whose header stands arrives at a port at a pick; before its command starts it is held, a packet of a
gather too (log 23). Once the command has started, a packet outside the strand and shard that it names is dropped
(R332, R333, R336 to R338, R345, R347, R349, R352, R361). -/
def arrive (port pick : Nat) (h : BucketHdr) (payload : List Byte) (y : Sys) : Sys :=
  match bucketFor y h with
  | none => if stepAhead y h.step then holdPacket port pick h payload y else y
  | some b =>
    let r := routeAt y b.route
    if payload.length != bktElemBytes b * h.elems || outsideStrand (routeAt y h.route) b.count h then dropHeader port (hdrHead h) y
    else if b.failed then y
    else if h.gen < b.gen then y
    else if mismatched b r h then (if b.finished then y else failBucket b .bucketMismatch y)
    else if h.gen = b.gen then
      let b := openWindow b pick
      let q := if hdrFlag h 3 then (b, putBucket b y) else checkWindow b r pick (putBucket b y)
      if b.converted then stopSpoiled b.cmd (takePacket port pick q.1 r h payload q.2) else holdPacket port pick h payload q.2
    else holdPacket port pick h payload y

/-- Space has freed: the packets that stand at stalled ports arrive (R338). -/
def unstall (y : Sys) : Sys :=
  y.coll.stalled.foldl (fun z p => arrive p.port (pickNow y) p.hdr p.payload z) { y with coll := { y.coll with stalled := [] } }

/-- The packets held for a bucket that its adder can take now (R338, R350). -/
def releasable (b : Bucket) (p : HeldPartial) : Bool :=
  p.hdr.tag == b.tag && p.hdr.step == b.step % 2 ^ 32 && hdrFlag p.hdr 4 == b.gather && decide (p.hdr.gen ≤ b.gen) &&
  !(b.asked.elem (p.hdr.shard, p.hdr.first) && !b.refusedCopy.elem (p.hdr.shard, p.hdr.first) &&
    !b.used.elem (p.hdr.shard, p.hdr.first) && !b.failed)

/-- The earliest pick at which a packet of a bucket and generation that is still held arrived (R347). -/
def heldSince (y : Sys) (tag step gen : Nat) (gather : Bool) : Option Nat :=
  leastOf ((y.coll.holding.filter (fun p => p.hdr.tag == tag && p.hdr.step == step % 2 ^ 32 && p.hdr.gen == gen &&
    hdrFlag p.hdr 4 == gather)).map (fun p => p.pick))

/-! ### Conversion (R335) -/

/-- The elements of a bucket at an exponent: integer and class (R93, R335). -/
def bucketElems (y : Sys) (b : Bucket) : List (Int × CenCls) :=
  (rowScalars y (if b.fp32 then .fp32 else .bf16) b.src b.count).map (fun v => toGf64 v b.exp)

/-- The census contribution of a conversion (R307). -/
def bucketCensus (y : Sys) (b : Bucket) (es : List (Int × CenCls)) : List CensusDelta :=
  let n := fun (k : CenCls) => (es.filter (fun e => e.2 == k)).length
  if b.slot = 0 then []
  else [{ slot := b.slot, die := b.die, elements := b.count, zero := n .zero, nonfinite := n .nonfinite, sat := n .sat,
          vanished := n .vanished, underflow := n .underflow,
          exps := expsOf (rowScalars y (if b.fp32 then .fp32 else .bf16) b.src b.count) }]

/-- Convert the source of a bucket into staging at its present exponent; poison in the source fails the command
(R228, R335, R361). -/
def convertBucket (b : Bucket) (y : Sys) : Sys ⊕ (Bucket × Sys) :=
  let r := routeAt y b.route
  match consume 3 b.src (b.count * (if b.fp32 then 4 else 2)) y with
  | some z => .inl (failBucket b .memUncorrectable z)
  | none =>
    let es := bucketElems y b
    let ovf := es.any (fun e => e.2 == .sat || !inContribution r e.1)
    let b' := { b with
      converted := true, sat := (es.filter (fun e => e.2 == .sat)).length,
      ownFlags := BitVec.ofNat 8 (b2n ovf + 2 * b2n (es.any (fun e => e.2 == .nonfinite))) }
    let y' := writeBytes (some b.cmd) b.stage (es.flatMap (fun e => leBytes 8 (lowBits e.1 64))) y
    let y' := putBucket b' (modCmd b.cmd (fun c => { c with census := bucketCensus y b es }) y')
    if (findCmd y' b.cmd).any (fun c => c.partialPoison) then .inl (failBucket b' .memUncorrectable y') else .inr (b', y')

/-- The conversion of a generation finishes and the member starts sending (R335, R336, R347). -/
def startSending (b : Bucket) (y : Sys) : Sys :=
  let r := routeAt y b.route
  let b := openWindow b (pickNow y)
  let y := bucketTrace b 1 (prevPos r r.selfPos) (bucketPort r) y
  sendShard b r b.ownFlags (prevPos r r.selfPos) b.stage 0 (putBucket b y)

/-! ### Copies for the twin (R348, R350, R406) -/

/-- Send the answer to a copy request (R348, R350). -/
def answerCopy (h : BucketHdr) (flags : BitVec 8) (elems : Option (List Byte)) (y : Sys) : Sys :=
  sendTwin h.tag h.shard (.copyAnswer (bucketBytes { h with flags := flags ||| 4 ||| (h.flags &&& 16) } []) elems) y

/-- A copy request of the twin: answered with the result once this device holds it at the same generation; with none once
it cannot supply it, because the generation, the step or the link from which the result would come is gone; else kept. A
poisoned granule in the result is found and recorded, and the copy is none (DESIGN CHOICE; log 111) (R228, R265, R348,
R350). -/
def serveRequest (h : BucketHdr) (y : Sys) : Sys :=
  let keep := { y with coll := { y.coll with requests := y.coll.requests ++ [h] } }
  match bucketFor y h with
  | none => if stepAhead y h.step then keep else answerCopy h 0 none y
  | some b =>
    let r := routeAt y b.route
    let a := resultAddr b r h.shard h.first
    let n := bktElemBytes b * h.elems
    if b.failed || decide (h.gen < b.gen) then answerCopy h 0 none y
    else match b.handled.find? (fun q => h.gen == b.gen && q.1 == h.shard && q.2.1 == h.first) with
      | none => if portUp y (inPort r h.strand) then keep else answerCopy h 0 none y
      | some q =>
        if rangeHeld y a n then keep
        else match consume 5 a n y with
          | some z => answerCopy h 0 none z
          | none => answerCopy h q.2.2 (some (readBytes y a n)) y

/-- Look at the copy requests again: a result has come, or a generation, step or link has gone (R348, R350, R406). -/
def serveRequests (y : Sys) : Sys :=
  if twinOn y then y.coll.requests.foldl (fun z h => serveRequest h z) { y with coll := { y.coll with requests := [] } } else y

/-- What follows every change of a bucket: packets at stalled ports arrive, and copy requests are looked at again. -/
def bucketsMoved (y : Sys) : Sys := serveRequests (unstall y)

end Sys2Proof.Machine
end

