-- ==== Sys2Proof/Machine/CmdColl.lean ====
section
/-! DEFINITION. The collective commands: WARP_FWD_SET, ROUTE_SET, BKT_REDUCE, BKT_GATHER and BKT_DIGEST_READ
(R324 to R330, R353 to R367). -/

namespace Sys2Proof.Machine

open Sys2Proof

/-! ### WARP_FWD_SET (R362) -/

/-- Entries of a forwarding table in memory. -/
def fwdEntries (y : Sys) (a : Nat) : List Nat := (readBytes y a 1024).map (fun b => b.toNat)

/-- The entry for the device's own number is not 0xFF (R362). -/
def ownEntryUsed (y : Sys) (es : List Nat) : Bool := y.coll.selfValid && es.getD y.coll.selfDev.toNat 0xFF != 0xFF

/-- The forwarding table that entries make: 0xFF, no route, is what an unlisted device reads as. -/
def fwdMap (es : List Nat) : SMap Nat := es.zipIdx.foldl (fun m p => mapSet 0xFF m p.2 p.1) []

/-- WARP_FWD_SET (R254, R324, R362, R613). -/
def execWarpFwdSet (pk : Packet) (s : State) : Host.Outcome State Fault Refusal :=
  let a := pw pk 0
  let check := fun (p : Perm) (_ : Cmd) (y : Sys) =>
    if fileClosed p [(a, 1024)] then some (Status.debugClosed, ([] : List Word64))
    else if !aligned64 a || !inDram a 1024 then some (.addrRange, [])
    else if (consume 8 a 1024 y).isSome then none
    else
      let es := fwdEntries y a
      firstFail [(es.any (fun e => decide (0x40 ≤ e ∧ e ≤ 0xFD)), .encodingReserved),
        (ownEntryUsed y es || es.any (fun e => decide (e < 0x40) && !portUp y e), .paramRange)]
  let effect := fun (c : Cmd) (y : Sys) =>
    match consume 8 a 1024 y with
    | some z => finish c.id .memUncorrectable [] z
    | none => finish c.id .ok [] { y with coll := { y.coll with fwd := fwdMap (fwdEntries y a) } }
  onSys s (fun p y => execCommand 0x0400 [allBits] (fun _ => false) (fun _ y => !rangeHeld y a 1024) (check p) effect pk y)

/-! ### ROUTE_SET (R327, R363) -/

/-- The route that a ROUTE_SET packet and the member list at its address describe (R363). -/
def routeOf (pk : Packet) (y : Sys) : Route :=
  let p := pf pk 0 48 10
  let a := pw pk 1
  let strand := fun u => if u < 4 then pf pk 2 (16 * u) 16 else pf pk 3 (16 * (u - 4)) 16
  { loaded := true, p := p, selfPos := pf pk 0 32 9, sideB := pf pk 0 28 1 == 1, split := pf pk 0 24 1 == 1,
    members := (List.range p).map (fun j => (readNat y (a + 4 * j) 2 % 1024, readNat y (a + 4 * j + 2) 2 % 1024)),
    strands := (List.range (pf pk 0 16 3 + 1)).map (fun u => (nfld (strand u) 0 6, nfld (strand u) 8 6)) }

/-- A member-list entry has a reserved bit set (R363). -/
def badMemberBits (y : Sys) (a p : Nat) : Bool :=
  (List.range (2 * p)).any (fun i => decide (1024 ≤ readNat y (a + 2 * i) 2))

/-- A list holds an entry twice. -/
def hasTwice : List Nat → Bool
  | [] => false
  | a :: r => r.elem a || hasTwice r

/-- The member list breaks a condition of R363. -/
def badMembers (y : Sys) (r : Route) (a : Nat) : Bool :=
  let alone := y.stp.twinMode == .none
  let m := r.members.getD r.selfPos (0, 0)
  let own := if r.sideB then m.2 else m.1
  let other := if r.sideB then m.1 else m.2
  badMemberBits y a r.p || !ownNumber y own ||
  hasTwice (r.members.map (fun x => x.1) ++ if alone then [] else r.members.map (fun x => x.2)) ||
  (!alone && !(y.stp.twinValid && other == y.stp.twinDev.toNat))

/-- A strand port is not UP, has no valid peer, or joins another device than the one named (R327). -/
def badPeer (y : Sys) (w dev : Nat) : Bool :=
  let p := portAt y w
  p.state != 2 || !p.peerValid || p.peerDevice != dev || twinPorts.elem w

/-- The ports that strands use, one that serves both directions of a strand of a ring of two counted once (R327). -/
def strandPorts (r : Route) : List Nat :=
  r.strands.flatMap (fun s => if r.p = 2 ∧ s.1 = s.2 then [s.1] else [s.1, s.2])

/-- The checks of R327 fail. -/
def badPeers (y : Sys) (r : Route) : Bool :=
  r.strands.any (fun s => badPeer y s.1 (memberAt r (nextPos r r.selfPos)) || badPeer y s.2 (memberAt r (prevPos r r.selfPos))) ||
  hasTwice (strandPorts r)

/-- A bucket command in progress names the route. -/
def routeInUse (y : Sys) (k : Nat) : Bool := (bucketsRunning y).any (fun b => b.route == k)

/-- Fields of a LOAD out of range (R325, R363, R655). -/
def badRouteFields (pk : Packet) (y : Sys) : Bool :=
  let p := pf pk 0 48 10
  let n := pf pk 0 16 3 + 1
  decide (p < 2) || decide (512 < p) || decide (p ≤ pf pk 0 32 9) || (y.stp.twinMode == .none && pf pk 0 28 1 == 1) ||
  (List.range 8).any (fun u => decide (n ≤ u) && (if u < 4 then pf pk 2 (16 * u) 16 else pf pk 3 (16 * (u - 4)) 16) != 0)

/-- Fields other than ROUTE and ACTION of a FREE that are not zero (R363, R655). -/
def badRouteFree (pk : Packet) : Bool :=
  pw pk 1 != 0 || pw pk 2 != 0 || pw pk 3 != 0 || pf pk 0 16 48 != 0

/-- The checks of a LOAD (R363, R613). -/
def routeLoadCheck (p : Perm) (pk : Packet) (y : Sys) : Option (Status × List Word64) :=
  let k := pf pk 0 0 4
  let a := pw pk 1
  let n := 4 * pf pk 0 48 10
  match firstFail [(badRouteFields pk y, .paramRange), (fileClosed p [(a, n)], .debugClosed), (!aligned64 a || !inDram a n, .addrRange),
      ((routeAt y k).loaded, .routeBusy)] with
  | some r => some r
  | none =>
    if (consume 8 a n y).isSome then none
    else
      let r := routeOf pk y
      firstFail [(badMembers y r a, .paramRange), (badPeers y r, .routePeer)]

/-- The effect of a LOAD (R328, R363). -/
def routeLoad (c : Cmd) (y : Sys) : Sys :=
  let pk := c.pkt
  let a := pw pk 1
  let n := 4 * pf pk 0 48 10
  match consume 8 a n y with
  | some z => finish c.id .memUncorrectable [] z
  | none =>
    let r := routeOf pk y
    let w1 := memberAt r (nextPos r r.selfPos) + memberAt r (prevPos r r.selfPos) * 2 ^ 16
    finish c.id .ok [BitVec.ofNat 64 (crc32c (readBytes y a n)), BitVec.ofNat 64 w1]
      { y with coll := { y.coll with routes := mapSet {} y.coll.routes (pf pk 0 0 4) r } }

/-- ROUTE_SET (R254, R325 to R328, R363). -/
def execRouteSet (pk : Packet) (s : State) : Host.Outcome State Fault Refusal :=
  let k := pf pk 0 0 4
  let free := pf pk 0 8 2 == 1
  let check := fun (p : Perm) (_ : Cmd) (y : Sys) =>
    if free then firstFail [(badRouteFree pk, .paramRange), (routeInUse y k, .routeBusy)] else routeLoadCheck p pk y
  let ready := fun (_ : Cmd) (y : Sys) => free || !rangeHeld y (pw pk 1) (4 * pf pk 0 48 10)
  let effect := fun (c : Cmd) (y : Sys) =>
    if free then finish c.id .ok [] { y with coll := { y.coll with routes := mapSet {} y.coll.routes k {} } }
    else routeLoad c y
  let strandBits := bits [(0, 6), (8, 6), (16, 6), (24, 6), (32, 6), (40, 6), (48, 6), (56, 6)]
  let layout := [bits [(48, 10), (32, 9), (28, 1), (24, 1), (16, 3), (8, 2), (0, 4)], allBits, strandBits, strandBits]
  onSys s (fun p y => execCommand 0x0401 layout (fun pk => badCode pk 0 8 2 [0, 1]) ready (check p) effect pk y)

/-! ### BKT_REDUCE and BKT_GATHER (R329, R330, R353, R364 to R366) -/

/-- A strand port of the route is not UP (R368). -/
def strandDown (y : Sys) (r : Route) : Bool := r.strands.any (fun s => !portUp y s.1 || !portUp y s.2)

/-- Tags used in the step, or in the shadow (R329, R408). -/
def usedTags (y : Sys) (shadow : Bool) : List Nat := if shadow then y.coll.shadowTags else y.coll.tags

/-- Note a tag as used (R329). -/
def useTag (shadow : Bool) (tag : Nat) (y : Sys) : Sys :=
  if shadow then { y with coll := { y.coll with shadowTags := setAdd y.coll.shadowTags tag } }
  else { y with coll := { y.coll with tags := setAdd y.coll.tags tag } }

/-- The state checks of a bucket command (R329, R330, R358, R368). -/
def bucketStateChecks (y : Sys) (route count tag : Nat) (shadow : Bool) : List (Bool × Status) :=
  let r := routeAt y route
  [(!r.loaded, .routeEmpty),
   (decide (count < r.p * r.strands.length), .paramRange),
   (strandDown y r, .routePeer),
   ((usedTags y shadow).elem tag, .bucketTagUsed),
   (decide (16384 ≤ (usedTags y shadow).length), .bucketTableFull)]

/-- Fewer than 64 bucket commands are in progress (R361). -/
def bucketRoom (_ : Cmd) (y : Sys) : Bool := decide ((bucketsRunning y).length < 64)

/-- The bucket that a BKT_REDUCE packet describes (R364). -/
def reduceOf (pk : Packet) : Bucket :=
  { cmd := 0, cmdTag := pk.tag.toNat, tag := pf pk 0 48 16, step := pk.step.toNat, route := pf pk 0 40 4, count := pf pk 1 0 40,
    src := pw pk 2, stage := pw pk 3, relay := pw pk 4, dst := pw pk 5, fp32 := pf pk 0 24 8 == 0x22, die := pf pk 0 32 5,
    slot := pf pk 0 0 12, exp := sext (pf pk 1 48 16) 16 }

/-- Elements of the own shard where the route is loaded, else one (R330). -/
def ownShardLen (r : Route) (count : Nat) : Nat := if r.loaded then shardLen count r.p r.selfPos else 1

/-- Bytes of the source of a BKT_REDUCE. -/
def srcBytes (b : Bucket) : Nat := b.count * (if b.fp32 then 4 else 2)

/-- The addresses of a BKT_REDUCE break R364. -/
def badReduceAddr (y : Sys) (b : Bucket) : Bool :=
  let n := 8 * ownShardLen (routeAt y b.route) b.count
  let rs := [(b.src, srcBytes b), (b.stage, 8 * b.count), (b.relay, 8 * b.count), (b.dst, n)]
  rs.any (fun q => !aligned64 q.1 || !inDram q.1 q.2) ||
  (rs.zipIdx).any (fun p => (rs.zipIdx).any (fun q => decide (p.2 < q.2) && overlap p.1.1 p.1.2 q.1.1 q.1.2)) ||
  mapHit y b.stage (8 * b.count) || mapHit y b.relay (8 * b.count)

/-- Start a bucket command: its tag is used from its acceptance on (R329, R347). -/
def startBucket (c : Cmd) (b : Bucket) (y : Sys) : Sys :=
  let b := { b with cmd := c.id, shadow := c.shadow, latePicks := y.coll.latePicks.toNat,
                    window := if c.shadow then none else heldSince y b.tag b.step 0 b.gather }
  let y := useTag c.shadow b.tag y
  { y with coll := { y.coll with buckets := y.coll.buckets ++ [b] } }

/-- BKT_REDUCE (R329, R330, R364, R613): checks, and the start of the conversion. -/
def execBktReduce (pk : Packet) (s : State) : Host.Outcome State Fault Refusal :=
  let b := reduceOf pk
  let check := fun (p : Perm) (c : Cmd) (y : Sys) => firstFail
    ([(decide (17 < b.die), .paramRange),
      (pf pk 0 24 8 != 0x22 && pf pk 0 24 8 != 0x20, .formatPair),
      (decide (b.exp < -256) || decide (255 < b.exp) || decide (b.count < 2) || decide (2 ^ 36 < b.count) ||
        decide (0x3FF < b.slot), .paramRange),
      (fileClosed p [(b.src, srcBytes b)], .debugClosed),
      (badReduceAddr y b, .addrRange)] ++ bucketStateChecks y b.route b.count b.tag c.shadow)
  let effect := fun (c : Cmd) (y : Sys) =>
    let y := startBucket c b y
    let n := 8 * ownShardLen (routeAt y b.route) b.count
    if !c.shadow && protectedHit y false b.dst n then
      match y.coll.buckets.find? (fun x => x.cmd == c.id) with
      | none => y
      | some x => failBucket x .stateFaceWrite y
    else y
  let layout := [bits [(48, 16), (40, 4), (32, 5), (24, 8), (0, 12)], bits [(48, 16), (0, 40)], allBits, allBits, allBits, allBits]
  onSys s (fun p y => execCommand 0x0410 layout (fun pk => badCode pk 0 24 8 fmtCodes) bucketRoom (check p) effect pk y)

/-- The bucket that a BKT_GATHER packet describes (R366). -/
def gatherOf (pk : Packet) : Bucket :=
  { cmd := 0, cmdTag := pk.tag.toNat, tag := pf pk 0 48 16, gather := true, step := pk.step.toNat, route := pf pk 0 40 4,
    count := pf pk 1 0 40, esize := 2 ^ (pf pk 0 24 2 + 1), src := pw pk 2, dst := pw pk 3, converted := true }

/-- The gather of an accepted BKT_GATHER: the own shard is sent and copied into DST (R353, R354). -/
def startGather (c : Cmd) (b : Bucket) (y : Sys) : Sys :=
  let y := startBucket c b y
  let r := routeAt y b.route
  let f := shardFirst b.count r.p r.selfPos
  let n := b.esize * shardLen b.count r.p r.selfPos
  match y.coll.buckets.find? (fun x => x.cmd == c.id) with
  | none => y
  | some x =>
    if protectedHit y false b.dst (b.esize * b.count) then failBucket x .stateFaceWrite y
    else match consume 5 b.src n y with
      | some z => failBucket x .memUncorrectable z
      | none =>
        let data := readBytes y b.src n
        let x := openWindow x (pickNow y)
        writeBytes (some c.id) (b.dst + b.esize * f) data (sendShard x r 0 r.selfPos b.src f (putBucket x y))

/-- BKT_GATHER (R254, R353, R354, R366, R613). -/
def execBktGather (pk : Packet) (s : State) : Host.Outcome State Fault Refusal :=
  let b := gatherOf pk
  let badAddr := fun (y : Sys) =>
    !aligned64 b.src || !aligned64 b.dst || !inDram b.src (b.esize * ownShardLen (routeAt y b.route) b.count) ||
    !inDram b.dst (b.esize * b.count)
  let own := fun (y : Sys) => b.esize * ownShardLen (routeAt y b.route) b.count
  let check := fun (p : Perm) (c : Cmd) (y : Sys) => firstFail
    ([(decide (b.count < 2) || decide (2 ^ 36 < b.count), .paramRange), (fileClosed p [(b.src, own y)], .debugClosed),
      (badAddr y, .addrRange), (c.shadow, .shadowMode)] ++
      bucketStateChecks y b.route b.count b.tag c.shadow)
  let layout := [bits [(48, 16), (40, 4), (24, 2)], bits [(0, 40)], allBits, allBits]
  let ready := fun (c : Cmd) (y : Sys) => bucketRoom c y && !anyHeld y [(b.src, own y), (b.dst, b.esize * b.count)]
  onSys s (fun p y => execCommand 0x0411 layout (fun pk => badCode pk 0 24 2 [0, 1, 2]) ready (check p)
    (fun c y => startGather c b y) pk y)

/-! ### BKT_DIGEST_READ (R357, R367) -/

/-- Records in ascending tag order. -/
def byTag (l : List BucketRec) : List BucketRec := sortBy (fun a b => decide (a.tag ≤ b.tag)) l

/-- The collective digest of R357. -/
def collectiveDigest (y : Sys) (l : List BucketRec) : Word64 :=
  (byTag l).foldl (fun cd r => fmix (fmix (cd ^^^ r.dSent) + r.dRecv)) (fmix (digestKey y))

/-- The 32 bytes of a bucket record (R367). -/
def recordBytes (r : BucketRec) : List Byte :=
  leBytes 1 0x10 ++ leBytes 1 r.kind ++ leBytes 2 r.tag ++ leBytes 2 (lowBits r.exp 16) ++ leBytes 1 r.resends ++
  leBytes 1 r.flags.toNat ++ leBytes 8 r.dSent.toNat ++ leBytes 8 r.dRecv.toNat ++ leBytes 4 r.step ++ leBytes 4 r.taken

/-- Write at most max records of a list at dst, and finish with their number and the digest of all (R367, R409). -/
def writeRecords (c : Cmd) (l : List BucketRec) (dst max : Nat) (y : Sys) : Sys :=
  let out := (byTag l).take max
  if protectedHit y (backIsFace c) dst (32 * out.length) then finish c.id .stateFaceWrite [] y
  else finish c.id .ok [BitVec.ofNat 64 out.length, collectiveDigest y l] (writeBytes (some c.id) dst (out.flatMap recordBytes) y)

/-- BKT_DIGEST_READ (R254, R357, R367). -/
def execBktDigestRead (pk : Packet) (s : State) : Host.Outcome State Fault Refusal :=
  let dst := pw pk 1
  let max := pf pk 2 0 32
  let recs := fun (y : Sys) => if pf pk 0 0 1 = 0 then y.coll.recsOpen else y.coll.recsLast
  let check := fun (_ : Cmd) (y : Sys) =>
    firstFail [(!aligned64 dst || !inDram dst (32 * ((recs y).take max).length), .addrRange)]
  let ready := fun (_ : Cmd) (y : Sys) => !rangeHeld y dst (32 * ((recs y).take max).length)
  onSys s (fun _ y => execCommand 0x0420 [bits [(0, 1)], allBits, bits [(0, 32)]] (fun _ => false) ready check
    (fun c y => writeRecords c (recs y) dst max y) pk y)

end Sys2Proof.Machine
end

