-- ==== Sys2Proof/Machine/CmdTensor.lean ====
section
/-! DEFINITION. The accumulation commands and the start of an ending command (R182 to R203, R658). -/

namespace Sys2Proof.Machine

open Sys2Proof

/-- Shuttle, tile position and narrow tile of a command's word 0 (R183). -/
def tileName (pk : Packet) : Nat × Nat × Nat := (pf pk 0 32 12, pf pk 0 24 3, pf pk 0 20 2)

/-- A packet's command comes from the given creel and lane. -/
def sameLane (c d : Cmd) : Bool := c.creel == d.creel && c.lane == d.lane

/-- The ending command of a status comes from the lane of c (R102, R148). -/
def endsInLane (y : Sys) (c : Cmd) : TileStatus → Bool
  | .ending i => (match findCmd y i with | none => false | some d => sameLane c d)
  | _ => false

/-- What stands in the way of an ACC_BEGIN (R148, R201). -/
def beginBlockers (p : TilePos) (guarded : Bool) (u : Nat) : List TileStatus :=
  let all := if guarded then [p.exact.status, (narrowAt p u).status] else p.exact.status :: p.narrow.map (fun x => x.status)
  all.filter (fun s => s != .closed)

/-- Words of the tile name (R183). -/
def tileBits : List (Nat × Nat) := [(32, 12), (24, 3)]

/-- Record the opening of an exact tile (R101, R122, R130, R131, R185). -/
def openExact (c : Cmd) (base : Int) (o : PreOp) (digest : Word64) (p : TilePos) : TilePos :=
  let e : LogEntry := { isPreload := true, params := c.pkt.params, digest := digest }
  { p with guarded := false,
           exact := { status := .opened, step := c.pkt.step.toNat, m := o.m, n := o.n, base := base,
                      terms := if o.mode = 0 then 0 else 1, log := [e], entries := 1,
                      elems := List.replicate (o.m * o.n) {} } }

/-- Record the opening of a narrow tile (R147, R162, R169, R170, R185). -/
def openNarrow (c : Cmd) (u shape : Nat) (o : PreOp) (p : TilePos) : TilePos :=
  setNarrow u { status := .opened, step := c.pkt.step.toNat, shape := shape, creel := c.creel, lane := c.lane,
                terms := if o.mode = 0 then 0 else 1, slots := List.replicate 4096 {} } { p with guarded := true }

/-- A tile whose contents a failed command leaves unspecified (R189). -/
def spoilTile (n t u : Nat) (y : Sys) : Sys :=
  let p := tileAt y n t
  if p.guarded then
    let r := freeNarrows (narrowAt p u).slots.length y
    setTile n t (setNarrow u (remark { narrowAt p u with slots := r.1, failed := true }) p) r.2
  else
    let r := freeElems p.exact.elems.length y
    let x := { p.exact with elems := r.1, failed := true, inexact := p.exact.inexact || r.1.any (fun e => e.inexact),
                            nonfinite := p.exact.nonfinite || r.1.any (fun e => e.cls != Cls.finite) }
    setTile n t { p with exact := x } r.2

/-- ACC_BEGIN (R183 to R185, R148, R201, R254). Under ZERO it reads nothing, and R179 holds it back from nothing. -/
def execAccBegin (pk : Packet) (s : State) : Host.Outcome State Fault Refusal :=
  let (n, t, u) := tileName pk
  let shape := pf pk 0 16 4
  let guarded := pf pk 0 8 2 == 1
  let o := preOf pk.params
  let base := sext (pf pk 1 48 16) 16
  let code := pf pk 1 8 8
  let dims := shapeDims shape
  let row := match o.fmt with | some f => rowBytes f o.n | none => 0
  let badFields :=
    (if guarded then o.m != dims.1 || o.n != dims.2.1 || base != 0
     else shape != 0 || u != 0 || decide (base < -640) || decide (511 < base) ||
       o.m == 0 || decide (64 < o.m) || o.n == 0 || decide (64 < o.n)) ||
    (o.mode == 0 && (code != 0 || o.addr != 0 || o.pitch != 0)) || (o.mode == 1 && o.pitch != 0) ||
    (o.mode == 2 && shortPitch o.pitch row)
  let badAddr := o.mode != 0 && (!aligned64 o.addr || o.pitch % 64 != 0 ||
    !inStoreOrDram n o.addr (if o.mode = 2 then spanBytes o.m o.pitch row else row))
  let check := fun (p : Perm) (_ : Cmd) (y : Sys) => firstFail
    [(badShuttle y n, .paramRange),
     (o.mode != 0 && !([0x20, 0x21, 0x22].elem code), .formatPair),
     (badFields, .paramRange),
     (fileClosed p (preRanges o), .debugClosed),
     (badAddr, .addrRange),
     (beginBlockers (tileAt y n t) guarded u != [], .accBusy)]
  let ready := fun (c : Cmd) (y : Sys) =>
    let bs := beginBlockers (tileAt y n t) guarded u
    (if o.mode = 0 then !mending y n else shuttleReady n c y) && !anyHeld y (preRanges o) && (burDie y (n / 128)).holds != some (n, t) && (bs == [] || !bs.all (endsInLane y c))
  let effect := fun (c : Cmd) (y : Sys) =>
    let digest := Config.operandDigest (rangeBytes y (preRanges o))
    let p := tileAt y n t
    let y := setTile n t (if guarded then openNarrow c u shape o p else openExact c base o digest p) y
    match consumeAll 7 y (preRanges o) with
    | some z => finish c.id .memUncorrectable [] (spoilTile n t u z)
    | none =>
      let p := tileAt y n t
      let p := if guarded then setNarrow u (narrowPre (preValues y o) (narrowAt p u)) p
        else { p with exact := tileAdd (preTerms y o base) p.exact }
      finish c.id .ok [] (setTile n t p y)
  let badEnum := fun (pk : Packet) =>
    badCode pk 0 16 4 (List.range 10) || badCode pk 0 8 2 [0, 1] || badCode pk 0 4 2 [0, 1, 2] ||
    badCode pk 1 8 8 (0 :: fmtCodes)
  let layout := [bits (tileBits ++ [(20, 2), (16, 4), (8, 2), (4, 2)]), bits [(48, 16), (24, 7), (16, 7), (8, 8)], allBits,
    bits [(0, 32)]]
  onSys s (fun p y => execCommand 0x0200 layout badEnum ready (check p) effect pk y)

/-- A format of the integer and block codes 0x01 to 0x15 (R182). -/
def lowCode (c : Nat) : Bool := decide (0x01 ≤ c ∧ c ≤ 0x15)

/-- BF16, FP16 and FP32 (R182). -/
def floatCode (c : Nat) : Bool := decide (0x20 ≤ c ∧ c ≤ 0x22)

/-- Pitches and scales of one operand of ACC_MATMUL break R181 or R657: R181 refuses every pitch smaller than a row, one of
zero too; a zero pitch of scale rows stands under R657 (DEDUCED; log 110). -/
def badOperand (f : Option Fmt) (k pitch s spitch : Nat) : Bool :=
  match f with
  | none => false
  | some f => decide (pitch < rowBytes f k) || shortPitch spitch (scaleRowBytes f k) ||
    (!isBlockFmt f && (s != 0 || spitch != 0))

/-- Addresses of one operand of ACC_MATMUL break R177 or R178. -/
def badOperandAddr (n : Nat) (f : Option Fmt) (rows k a pitch s spitch : Nat) : Bool :=
  match f with
  | none => false
  | some f =>
    !aligned64 a || pitch % 64 != 0 || !inStore n a (spanBytes rows pitch (rowBytes f k)) ||
    (isBlockFmt f && (!aligned64 s || spitch % 64 != 0 || !inStore n s (spanBytes rows spitch (scaleRowBytes f k))))

/-- The status of the tile that a command names, whether it failed, and its terms (R164, R658). -/
def namedTile (p : TilePos) (u : Nat) : TileStatus × Bool × Nat :=
  if p.guarded then ((narrowAt p u).status, (narrowAt p u).failed, (narrowAt p u).terms)
  else (p.exact.status, p.exact.failed, p.exact.terms)

/-- A command on a narrow tile comes from another creel or lane than its ACC_BEGIN (R162). -/
def wrongLane (c : Cmd) (p : TilePos) (u : Nat) : Bool :=
  p.guarded && !((narrowAt p u).creel == c.creel && (narrowAt p u).lane == c.lane)

/-- Checks 3 to 5 of R658 for a command other than ACC_BEGIN and ACC_DISCARD. -/
def tileChecks (c : Cmd) (p : TilePos) (u : Nat) : List (Bool × Status) :=
  [((namedTile p u).1 != .opened, .accNotOpen), ((namedTile p u).2.1, .accFailed), (wrongLane c p u, .accLane)]

/-- The most terms of an accumulation (R114). -/
def termLimit : Nat := 2 ^ 31 - 1

/-- The result of an ACC_MATMUL (R188). -/
def matResult (groups : Nat) (nonfinite ovf : Bool) : Word64 :=
  BitVec.ofNat 64 (groups * 2 ^ 32 + b2n nonfinite * 2 + b2n ovf)

/-- An ACC_MATMUL adds its chunk to an open tile (R112, R113, R122, R158, R188). -/
def addMatmul (c : Cmd) (n t u : Nat) (o : MatOp) (y : Sys) : Sys :=
  let p := tileAt y n t
  let g := groupCount o.k
  if p.guarded then
    let gs := matGroups y o
    let nonf := gs.any (fun e => e.any (fun q => clsJoinAll q != Cls.finite))
    let x := narrowMat gs (narrowAt p u)
    let x := { x with terms := x.terms + g, groups := x.groups + g, kSum := x.kSum + o.k }
    finish c.id .ok [matResult g nonf false] (setTile n t (setNarrow u x p) y)
  else
    let ts := matTerms y o p.exact.base
    let all := ts.flatten
    let e : LogEntry := { isPreload := false, params := c.pkt.params, digest := Config.operandDigest (rangeBytes y (matRanges o)) }
    let x := logAdd e (tileAdd ts p.exact)
    let x := { x with terms := x.terms + g, groups := x.groups + g, kSum := x.kSum + o.k }
    finish c.id .ok [matResult g (all.any (fun q => q.cls != Cls.finite)) (all.any (fun q => outOf256 q.t))]
      (setTile n t { p with exact := x } y)

/-- ACC_MATMUL (R186 to R189, R203). -/
def execAccMatmul (pk : Packet) (s : State) : Host.Outcome State Fault Refusal :=
  let (n, t, u) := tileName pk
  let o := matOf pk.params
  let ca := pf pk 1 56 8
  let cb := pf pk 1 48 8
  let shapeBad := fun (p : TilePos) =>
    if p.guarded then
      let d := shapeDims (narrowAt p u).shape
      o.m != d.1 || o.n != d.2.1
    else o.m != p.exact.m || o.n != p.exact.n || u != 0
  let check := fun (perm : Perm) (c : Cmd) (y : Sys) =>
    let p := tileAt y n t
    firstFail ([(badShuttle y n, .paramRange),
     (!(lowCode ca && lowCode cb) && !(floatCode ca && floatCode cb), .formatPair),
     (o.k == 0 || decide (32768 < o.k) || badOperand o.fa o.k o.aPitch o.aScale o.aScalePitch ||
        badOperand o.fb o.k o.bPitch o.bScale o.bScalePitch, .paramRange),
     (fileClosed perm (matRanges o), .debugClosed),
     (badOperandAddr n o.fa o.m o.k o.a o.aPitch o.aScale o.aScalePitch ||
        badOperandAddr n o.fb o.n o.k o.b o.bPitch o.bScale o.bScalePitch, .addrRange)] ++ tileChecks c p u ++
     [(shapeBad p, .paramRange), (decide (termLimit < (namedTile p u).2.2 + groupCount o.k), .accTermLimit)])
  let effect := fun (c : Cmd) (y : Sys) =>
    match consumeAll 2 y (matRanges o) with
    | some z => finish c.id .memUncorrectable [] (spoilTile n t u z)
    | none => addMatmul c n t u o y
  let badEnum := fun (pk : Packet) => badCode pk 1 56 8 fmtCodes || badCode pk 1 48 8 fmtCodes
  let layout := [bits (tileBits ++ [(20, 2)]), bits [(56, 8), (48, 8), (40, 7), (32, 7), (0, 32)], allBits, allBits, allBits,
    allBits, allBits, allBits]
  let ready := fun (c : Cmd) (y : Sys) => shuttleReady n c y && !engineTaken c y
  onSys s (fun p y => execCommand 0x0201 layout badEnum ready (check p) effect pk y)

/-- Accept an ending command: the tile takes no more work (R200, R201). -/
def startEnding (c : Cmd) (n t u : Nat) (y : Sys) : Sys :=
  let p := tileAt y n t
  let p := if p.guarded then setNarrow u { narrowAt p u with status := .ending c.id } p
    else { p with exact := { p.exact with status := .ending c.id } }
  setTile n t p y

/-- The clamp of ACC_READOUT is illegal (R191). -/
def badClamp (o : ReadOp) : Bool :=
  if o.clampEn then
    let lo := decodeFmt .fp32 o.lo 0
    let hi := decodeFmt .fp32 o.hi 0
    lo.cls != Cls.finite || hi.cls != Cls.finite || scaledLt hi.m hi.e lo.m lo.e
  else o.lo != 0 || o.hi != 0

/-- Rows and columns that an output check uses: the open tile's, or one element when none is open. -/
def outShape (p : TilePos) (u : Nat) : Nat × Nat :=
  if p.guarded then (if (narrowAt p u).status = .closed then (1, 1) else
    ((shapeDims (narrowAt p u).shape).1, (shapeDims (narrowAt p u).shape).2.1))
  else if p.exact.status = .closed then (1, 1) else (p.exact.m, p.exact.n)

/-- ACC_READOUT (R190, R191, R200, R201). -/
def execAccReadout (pk : Packet) (s : State) : Host.Outcome State Fault Refusal :=
  let (n, t, u) := tileName pk
  let o := readOf pk.params
  let f := o.fmt.getD .fp32
  let blk := isBlockFmt f
  let badAddr := fun (d : Nat × Nat) =>
    !aligned64 o.dest || o.pitch % 64 != 0 || !inStoreOrDram n o.dest (spanBytes d.1 o.pitch (rowBytes f d.2)) ||
    (blk && (!aligned64 o.destScale || o.scalePitch % 64 != 0 ||
      !inStoreOrDram n o.destScale (spanBytes d.1 o.scalePitch (scaleRowBytes f d.2))))
  let check := fun (c : Cmd) (y : Sys) =>
    let p := tileAt y n t
    let d := outShape p u
    firstFail ([(badShuttle y n, .paramRange),
     (f == .gf64 || f == .wp256, .formatPair),
     (decide (o.scale < -256) || decide (255 < o.scale) || badClamp o || decide (0x3FF < o.slot) ||
        (!blk && (o.destScale != 0 || o.scalePitch != 0)) || shortPitch o.pitch (rowBytes f d.2) ||
        (blk && shortPitch o.scalePitch (scaleRowBytes f d.2)), .paramRange),
     (badAddr d, .addrRange)] ++ tileChecks c p u ++ [(!p.guarded && u != 0, .paramRange)])
  let effect := fun (c : Cmd) (y : Sys) => startEnding c n t u y
  let badEnum := fun (pk : Packet) => badCode pk 0 8 8 fmtCodes || badCode pk 0 0 2 [0, 1]
  let layout := [bits (tileBits ++ [(20, 2), (17, 1), (16, 1), (8, 8), (0, 2)]), allBits, allBits, allBits, allBits, allBits,
    allBits, allBits, bits [(32, 32), (0, 12)]]
  onSys s (fun _ y => execCommand 0x0202 layout badEnum (shuttleReady n) check effect pk y)

/-- The pitch and address checks of a plane of WP256 elements; closed: the command reads it through a closed debug view
(R177, R178, R613, R657). -/
def badWide (n : Nat) (closed : Bool) (rows cols a pitch : Nat) : List (Bool × Status) :=
  [(shortPitch pitch (cols * 40), .paramRange), (closed, .debugClosed),
   (a % 8 != 0 || pitch % 8 != 0 || !inStoreOrDram n a (spanBytes rows pitch (cols * 40)), .addrRange)]

/-- ACC_EXPORT_WIDE (R195, R200, R201). -/
def execAccExportWide (pk : Packet) (s : State) : Host.Outcome State Fault Refusal :=
  let (n, t, _) := tileName pk
  let check := fun (c : Cmd) (y : Sys) =>
    let p := tileAt y n t
    let d := if p.guarded then (1, 1) else outShape p 0
    firstFail ([(badShuttle y n, .paramRange)] ++ badWide n false d.1 d.2 (pw pk 1) (pf pk 2 32 32) ++
      [(p.guarded, .accMode)] ++ tileChecks c p 0)
  let effect := fun (c : Cmd) (y : Sys) => startEnding c n t 0 y
  onSys s (fun _ y => execCommand 0x0203 [bits tileBits, allBits, bits [(32, 32)]] (fun _ => false) (shuttleReady n)
    check effect pk y)

/-- The ending command in progress on the tile that a command names. -/
def endingOn (p : TilePos) (u : Nat) : Option Nat := match (namedTile p u).1 with
  | .ending i => some i
  | _ => none

/-- The checks of an ACC_DISCARD that meets no ending command (R658). -/
def discardCheck (n t u : Nat) (c : Cmd) (y : Sys) : Option (Status × List Word64) :=
  let p := tileAt y n t
  firstFail [(badShuttle y n, .paramRange), ((namedTile p u).1 == .closed, .accNotOpen), (wrongLane c p u, .accLane),
    (!p.guarded && u != 0, .paramRange)]

/-- Parameter words of an ACC_DISCARD (R196). -/
def discardLayout : List Nat := [bits (tileBits ++ [(20, 2)])]

/-- An ACC_DISCARD that meets an ending command waits for it, from whatever lane: R658 makes its later checks, of the lane
and of NARROW, only where that command was refused with ACC_FAILED and the tile still stands open (R201; log 40). -/
def discardWaits (n : Nat) (c : Cmd) (y : Sys) : Bool :=
  c.behind == none && c.pkt.version == 0x10 && !mending y n && !badShuttle y n &&
  (match verdict y 0x0205 discardLayout false c with
   | .go _ => true
   | _ => false)

/-- ACC_DISCARD (R189, R196, R201, R658): it reads nothing, and R179 holds it back from nothing. -/
def execAccDiscard (pk : Packet) (s : State) : Host.Outcome State Fault Refusal :=
  let (n, t, u) := tileName pk
  let ready := fun (c : Cmd) (y : Sys) => c.behind == none && !mending y n
  let run := execCommand 0x0205 discardLayout (fun _ => false) ready (discardCheck n t u) (fun c y => startEnding c n t u y) pk
  onSys s (fun _ y =>
    match atUnit 0x0205 pk y, endingOn (tileAt y n t) u with
    | some (z, c), some e => if discardWaits n c z then modCmd c.id (fun d => { d with behind := some e }) z else run y
    | _, _ => run y)

/-- The vector engine of a shuttle is free (R203). -/
def vecFree (y : Sys) (n : Nat) : Bool := (mapGet {} y.vec.runs n).cmd == none

/-- The 40-byte elements of a WP256 plane, row by row. -/
def wideRanges (a pitch m n : Nat) : List (Nat × Nat) :=
  (List.range m).flatMap (fun i => (List.range n).map (fun j => (a + i * pitch + j * 40, 40)))

/-- The term of a WP256 element: V, which is zero where CLASS is not FINITE, its class, and its INEXACT whatever the class
(R97, R127). -/
def importTerm (w : Wide) : Term := { cls := w.cls, t := w.v.toInt, inexact := w.inexact }

/-- The elements of an ACC_IMPORT_WIDE are checked, then added (R127, R198, R199). -/
def importTile (c : Cmd) (n t : Nat) (ws : List (Option Wide)) (y : Sys) : Sys :=
  let p := tileAt y n t
  let x := p.exact
  if ws.any (fun w => w.isNone) then finish c.id .wideMalformed [] y
  else
    let es := ws.filterMap id
    if es.any (fun w => w.cls == Cls.finite && w.base != x.base) then finish c.id .baseMismatch [] y
    else
      let z := tileAdd (es.map (fun w => [importTerm w])) x
      let z := { z with terms := z.terms + 1, noReplay := true }
      let res := BitVec.ofNat 64 (lowBits x.base 16 * 2 ^ 48 + (es.filter (fun w => w.cls != Cls.finite)).length)
      finish c.id .ok [res] (setTile n t { p with exact := z } y)

/-- ACC_IMPORT_WIDE (R197 to R199, R203, R254). -/
def execAccImportWide (pk : Packet) (s : State) : Host.Outcome State Fault Refusal :=
  let (n, t, _) := tileName pk
  let a := pw pk 1
  let pitch := pf pk 2 32 32
  let check := fun (perm : Perm) (c : Cmd) (y : Sys) =>
    let p := tileAt y n t
    let d := if p.guarded then (1, 1) else outShape p 0
    firstFail ([(badShuttle y n, .paramRange)] ++ badWide n (fileClosed perm (wideRanges a pitch d.1 d.2)) d.1 d.2 a pitch ++
      [(p.guarded, .accMode)] ++ tileChecks c p 0 ++
      [(decide (termLimit < p.exact.terms + 1), .accTermLimit)])
  let ready := fun (c : Cmd) (y : Sys) =>
    let x := (tileAt y n t).exact
    shuttleReady n c y && vecFree y n && !engineTaken c y && !anyHeld y (wideRanges a pitch x.m x.n)
  let effect := fun (c : Cmd) (y : Sys) =>
    let x := (tileAt y n t).exact
    let rs := wideRanges a pitch x.m x.n
    match consumeAll 2 y rs with
    | some z => finish c.id .memUncorrectable [] z
    | none => importTile c n t (rs.map (fun r => wideOf (readBytes y r.1 40))) y
  onSys s (fun p y => execCommand 0x0204 [bits tileBits, allBits, bits [(32, 32)]] (fun _ => false) ready (check p) effect pk y)

/-! ### The start of an ending command (R189, R200, R119 to R125) -/

/-- A contribution to the tile that has not completed (R200). -/
def contributes (n t u : Nat) (guarded : Bool) (d : Cmd) : Bool :=
  (d.op == 0x0201 || d.op == 0x0204) && pf d.pkt 0 32 12 == n && pf d.pkt 0 24 3 == t &&
  (!guarded || pf d.pkt 0 20 2 == u) &&
  (match d.phase with
   | .forwarded => false
   | .running => true
   | .done st _ => isSuccess st || isContained st)

/-- The tile stays open after its ending command was refused (R189). -/
def reopenTile (n t u : Nat) (y : Sys) : Sys :=
  let p := tileAt y n t
  let p := if p.guarded then setNarrow u { narrowAt p u with status := .opened } p
    else { p with exact := { p.exact with status := .opened } }
  setTile n t p y

/-- Write the output of an ending command, unless it meets a protected range (R192, R277). -/
def endWrite (c : Cmd) (ws : List (Nat × List Byte)) (st : Status) (res : List Word64) (census : List CensusDelta)
    (watch : List WatchDelta) (y : Sys) : Sys :=
  if ws.any (fun w => protectedHit y (backIsFace c) w.1 w.2.length) then finish c.id .stateFaceWrite [] y
  else finish c.id st res (modCmd c.id (fun d => { d with census := census, watch := watch }) (writeAll c.id ws y))

/-- Readout of the values of a tile (R132, R145, R194). -/
def endReadout (c : Cmd) (n m cols kSum replays inexact : Nat) (base : Int) (top : Option Int) (vs : List Dec) (y : Sys) : Sys :=
  let o := readOf c.pkt.params
  let r := readoutTile y o c.pkt.step.toNat m cols kSum vs
  let res := readResults (endWord0 base replays r.sr top inexact) r
  endWrite c r.writes (if replays = 0 then .ok else .tileReplayed) res (readCensus o (n / 128) r) (readWatch y o (n / 128) cols r) y

/-- Export of an exact tile (R126, R194, R195). -/
def endExport (c : Cmd) (x : ExactTile) (y : Sys) : Sys :=
  let a := pw c.pkt 1
  let pitch := pf c.pkt 2 32 32
  let row := fun (p : List BeamElem × Nat) => (a + p.2 * pitch, p.1.flatMap (wideOfElem x.base))
  let nonf := (x.elems.filter (fun e => e.cls != Cls.finite)).length
  let w0 := endWord0 x.base x.replays false x.top (x.elems.filter (fun e => e.inexact)).length
  endWrite c ((chunksOf x.n x.m x.elems).zipIdx.map row) (if x.replays = 0 then .ok else .tileReplayed)
    [w0, BitVec.ofNat 64 (nonf * 2 ^ 32)] [] [] y

/-- The end of an exact accumulation: replay, then output (R119 to R126). -/
def endExact (c : Cmd) (n t : Nat) (y : Sys) : Sys :=
  let p := tileAt y n t
  match settle 40 y p.exact with
  | (z, some st, x) => finish c.id st [] (setTile n t { tileAt z n t with exact := x } z)
  | (z, none, x) =>
    let z := setTile n t { tileAt z n t with exact := x } z
    if c.op = 0x0203 then endExport c x z
    else
      let vs := x.elems.map (fun e => ({ cls := e.cls, m := e.sum.toInt, e := x.base } : Dec))
      endReadout c n x.m x.n x.kSum x.replays (x.elems.filter (fun e => e.inexact)).length x.base x.top vs z

/-- The end of a guarded accumulation: the lanes are folded into lane 0 (R159, R166, R167). -/
def endGuarded (c : Cmd) (n t u : Nat) (y : Sys) : Sys :=
  let p := tileAt y n t
  let x := narrowAt p u
  let d := shapeDims x.shape
  let vs := foldTile x
  let x := remark { x with slots := vs ++ x.slots.drop vs.length }
  let y := setTile n t (setNarrow u x p) y
  endReadout c n d.1 d.2.1 x.kSum 0 (vs.filter (fun v => v.inx)).length 0 none
    (vs.map (fun v => ({ cls := v.cls, m := v.a, e := v.x } : Dec))) y

/-- The ranges of bonded DRAM and of stores that an ending command reads and writes (R116, R120, R192, R195). -/
def endRanges (c : Cmd) (p : TilePos) (u : Nat) : List (Nat × Nat) :=
  let d := outShape p u
  let o := readOf c.pkt.params
  let f := o.fmt.getD .fp32
  let replays := !p.guarded && p.exact.elems.any elemOverflows && !p.exact.noReplay
  let reads := if replays then p.exact.log.flatMap entryRanges else []
  if c.op = 0x0203 then rowRanges (pw c.pkt 1) (pf c.pkt 2 32 32) d.1 (40 * d.2) ++ reads
  else if c.op = 0x0202 then
    rowRanges o.dest o.pitch d.1 (rowBytes f d.2) ++
    (if isBlockFmt f then rowRanges o.destScale o.scalePitch d.1 (scaleRowBytes f d.2) else []) ++ reads
  else []

/-- An ending command has not yet what it waits for: an earlier command of its lane still writes the shuttle's store, a
contribution to the tile has not completed, or a channel retrains (R179, R200, R254). -/
def endingHeld (y : Sys) (c : Cmd) : Bool :=
  let (n, t, u) := tileName c.pkt
  let p := tileAt y n t
  (c.op != 0x0205 && priorShuttle y c n) || y.cm.cmds.any (contributes n t u p.guarded) || anyHeld y (endRanges c p u)

/-- The readout path of the shuttle takes an ending command of a higher lane first (R203). -/
def readoutTaken (y : Sys) (c : Cmd) : Bool :=
  (c.op == 0x0202 || c.op == 0x0203) && y.cm.cmds.any (fun d => d.phase == .running && decide (c.lane < d.lane) &&
    engineOf d.op d.pkt == engineOf c.op c.pkt && !endingHeld y d)

/-- ENDING_START (R119, R120, R189, R196, R200, R203, R507): the ending command of a tile starts and does its work; a parity
error in the accumulator file that it reads fails it, and every open tile of the shuttle. -/
def execEndingStart (n t : Nat) (r : FileRead) (s : State) : Host.Outcome State Fault Refusal :=
  onSys s (fun _ y =>
    let p := tileAt y n t
    let u := if p.guarded then r.tile else 0
    match (namedTile p u).1 with
    | .ending id => match findCmd y id with
      | none => y
      | some c =>
        let z := viewed c y
        if isUp y = false ∨ c.phase ≠ .running ∨ endingHeld z c = true ∨ readoutTaken z c = true then y
        else if c.op = 0x0205 then finish c.id .ok [] y
        else if (namedTile p u).2.1 then finish c.id .accFailed [] (reopenTile n t u y)
        else if r.parity then finish c.id .memUncorrectable [] (storeError n y)
        else unview (if p.guarded then endGuarded c n t u z else endExact c n t z)
    | _ => y)

/-! ### The completion of an ending command -/

/-- The tile that an ending command ended closes when the command completes (R101). -/
def closeEnded (c : Cmd) (y : Sys) : Sys :=
  let (n, t, u) := tileName c.pkt
  if c.op = 0x0202 ∨ c.op = 0x0203 ∨ c.op = 0x0205 then
    let p := tileAt y n t
    if endingOn p u = some c.id then
      setTile n t (if p.guarded then setNarrow u { narrowAt p u with status := .closed } p
        else { p with exact := { p.exact with status := .closed } }) y
    else y
  else y

/-- The ACC_DISCARDs that waited for an ending command: after ACC_FAILED they may close the tile, else they are refused
(R189, R201). -/
def releaseBehind (id : Nat) (st : Status) (y : Sys) : Sys :=
  let mine := y.cm.cmds.filter (fun d => d.behind == some id)
  mine.foldl (fun z d =>
    if st = .accFailed then modCmd d.id (fun d => { d with behind := none }) z else finish d.id .accNotOpen [] z) y

end Sys2Proof.Machine
end

