-- ==== Sys2Proof/Machine/Dram.lean ====
section
/-! DEFINITION. What the channels, the prefetch directories, the yarn engines, the request slots and the arbiters do on
their own (R224 to R231, R238 to R251). -/

namespace Sys2Proof.Machine

open Sys2Proof

/-- What a channel's code finds in a granule (R225 to R227). -/
inductive EccKind where
  | clean | corrected | uncorrectable
deriving DecidableEq, Repr

/-- What the code finds in physical granule g with so many 8-bit symbols in error among its data, its address within the
channel and the code itself: one is corrected, two are detected. Against more R225 promises nothing: any of the three, and
where the error passes, the granule's bytes are free values (R225; log 97). -/
def readCode (g wrong : Nat) (y : Sys) : EccKind × Sys := match wrong with
  | 0 => (.clean, y)
  | 1 => (.corrected, y)
  | 2 => (.uncorrectable, y)
  | _ =>
    let r := freshWord y
    let lost := fun (y : Sys) => { y with mem := forget (g * 64) 64 y.free y.mem, free := y.free + 1 }
    match r.1.toNat % 3 with
    | 0 => (.clean, lost r.2)
    | 1 => (.corrected, lost r.2)
    | _ => (.uncorrectable, r.2)

/-- Poison a physical granule (R227). -/
def poisonGranule (g : Nat) (y : Sys) : Sys := { y with mem := { y.mem with poison := setAdd y.mem.poison g } }

/-- A channel serves a read of physical granule g for a unit of the given source code (R225 to R227, R265). -/
def serveRead (g source wrong : Nat) (y : Sys) : Sys :=
  if setHas y.mem.poison g then reportGranule g source y
  else
    let r := readCode g wrong y
    match r.1 with
    | .clean => r.2
    | .corrected => countCorr (stackOf (g * 64)) r.2
    | .uncorrectable => reportGranule g source (poisonGranule g r.2)

/-- DRAM_READ (R225 to R227): the granule as its requester names it. -/
def execDramRead (granule source wrong : Nat) (s : State) : Host.Outcome State Fault Refusal :=
  let g := translateAddr s.sys (granule * 64) / 64
  if dramEnd ≤ granule * 64 then .fault .noSuchAddress
  else onSys s (fun _ y =>
    if isUp y = false ∨ retraining y g = true ∨ source < 1 ∨ 8 < source then y else serveRead g source wrong y)

/-- The bytes of a masked write: new where the mask has a one, else as they were (R230). -/
def mergeBytes (mask : BitVec 64) (old new : List Byte) : List Byte :=
  ((old.zip new).zipIdx).map (fun p => if flag mask p.2 then p.1.2 else p.1.1)

/-- The shuttles that hold a run-ahead copy of a physical granule (R240). -/
def holders (y : Sys) (g : Nat) : List Nat :=
  (y.yarn.filter (fun p => p.2.copies.any (fun c => c.granule == g))).map (fun p => p.1)

/-- A write of physical granule t, named a, reaches its channel (R227, R230, R240). -/
def serveWrite (a t : Nat) (mask : BitVec 64) (data : BitVec 512) (y : Sys) : Sys :=
  let whole := mask == BitVec.allOnes 64
  if setHas y.mem.poison t && !whole then reportGranule t 6 y
  else
    let old := readBytes y (a * 64) 64
    let new := mergeBytes mask old (leBytes 64 data.toNat)
    let kills := holders y t
    let writes := y.mem.writes ++ [{ granule := t, kills := kills }]
    let mem := { putCells y.mem (t * 64) new with poison := setDel y.mem.poison t, writes := writes }
    { y with mem := mem }

/-- DRAM_WRITE (R230, R240, R277, R378): a write that belongs to no step reaches its channel, and the directory sends its
kills; the writes of the model's commands are part of their rows (log 89), and only they reach back ranges. -/
def execDramWrite (granule : Nat) (mask : BitVec 64) (data : BitVec 512) (s : State) : Host.Outcome State Fault Refusal :=
  let t := translateAddr s.sys (granule * 64) / 64
  if dramEnd ≤ granule * 64 then .fault .noSuchAddress
  else onSys s (fun _ y =>
    if isUp y = false ∨ retraining y t = true ∨ mask = 0 ∨ protectedHit y true (granule * 64) 64 = true then y
    else serveWrite granule t mask data y)

/-- KILL (R240): the holder drops its copy and acknowledges. -/
def execKill (n granule : Nat) (s : State) : Host.Outcome State Fault Refusal :=
  onSys s (fun _ y =>
    if y.mem.writes.any (fun w => w.granule == granule && w.kills.elem n) then
      let ack := y.mem.writes.map (fun w => if w.granule = granule then { w with kills := w.kills.erase n } else w)
      dropCopies n (fun c => c.granule == granule) true { y with mem := { y.mem with writes := ack } }
    else y)

/-- WRITE_COMPLETE (R231): the oldest write of the granule whose kills are all acknowledged is complete. -/
def execWriteComplete (granule : Nat) (s : State) : Host.Outcome State Fault Refusal :=
  onSys s (fun _ y =>
    match y.mem.writes.find? (fun w => w.granule == granule) with
    | none => y
    | some w => if w.kills = [] then { y with mem := { y.mem with writes := y.mem.writes.erase w } } else y)

/-- Entries of one prefetch directory (R240). -/
def directoryCap : Nat := 524288

/-- Granules of a run-ahead buffer of 256 KiB (R238). -/
def aheadCap : Nat := 4096

/-- Granules of a stack that its directory records (R240). -/
def recorded (y : Sys) (stack : Nat) : List Nat :=
  dedup (((y.yarn.map (fun p => p.2.copies.map (fun c => c.granule))).flatten).filter (fun g => stackOf (g * 64) == stack))

/-! ### Request slots (R244, R245) -/

/-- An engine: vector engine n is n, bobbin engine b of die d is 4096 + 64 d + b, yarn engine n is 8192 + n. -/
def engAt (y : Sys) (e : Nat) : Engine := mapGet {} y.eng e

/-- Replace an engine. -/
def setEng (e : Nat) (x : Engine) (y : Sys) : Sys := { y with eng := mapSet {} y.eng e x }

/-- The engine number of the yarn engine of shuttle n. -/
def yarnEngine (n : Nat) : Nat := 8192 + n

/-- A request for granule g can be issued: a slot is free, and fewer than 48 hold requests to its bank group (R244,
R245). -/
def slotFits (x : Engine) (g : Nat) : Bool :=
  decide (x.slots.length < 64) &&
  decide ((x.slots.filter (fun p => p.granules.any (fun q => bankGroup q == bankGroup g))).length < 48)

/-- Issue the requests of a thread for granules, one each; a thread with one that cannot be issued stops (R245). -/
def issueAll (h : Nat) : List Nat → Engine → Engine
  | [], x => x
  | g :: r, x => issueAll h r (if slotFits x g then { x with slots := x.slots ++ [{ thread := h, granules := [g] }] }
      else { x with unissued := if x.unissued.elem h then x.unissued else x.unissued ++ [h] })

/-! ### Run-ahead (R238 to R243) -/

/-- Run-ahead may fetch physical granule g for shuttle n (R238, R241, R245, R267). -/
def mayRunAhead (y : Sys) (n g : Nat) : Bool :=
  let st := yarnAt y n
  let rec' := recorded y (stackOf (g * 64))
  (mapGet {} y.mem.dies (n / 128)).runaheadEn && decide (st.copies.length < aheadCap) && !retraining y g &&
  slotFits (engAt y (yarnEngine n)) g && (decide (rec'.length < directoryCap) || rec'.elem g)

/-- b is the granule k places after a in the row of a (R224, R244). -/
def rowPlace (a k b : Nat) : Bool :=
  let l := locate (a * 64)
  let m := locate (b * 64)
  l.1 == m.1 && l.2.1 == m.2.1 && l.2.2.1 == m.2.2.1 && l.2.2.2.1 == m.2.2.2.1 && l.2.2.2.2 + 64 * k == m.2.2.2.2

/-- The granules that follow a in its row, from place k on, at most m of them, as far as a list of wanted ones goes
(R244). -/
def followers (a : Nat) (wanted : List Nat) : Nat → Nat → List Nat
  | 0, _ => []
  | m + 1, k => match wanted.find? (rowPlace a k) with
    | none => []
    | some b => b :: followers a wanted m (k + 1)

/-- The granules of the stream that the engine does not hold (R238). -/
def wantedAhead (y : Sys) (n : Nat) : List Nat :=
  (aheadGranules y n).filter (fun g => !(yarnAt y n).copies.any (fun c => c.granule == g))

/-- One granule of a run-ahead request is read: a correction is counted, an uncorrectable granule is poisoned and nothing
recorded; the copy is held from here on, and has not arrived (R239, R240). -/
def fetchAhead (n : Nat) (y : Sys) (p : Nat × Nat) : Sys :=
  let g := p.1
  let y := if setHas y.mem.poison g then y
    else
      let r := readCode g p.2 y
      match r.1 with
      | .clean => r.2
      | .corrected => countCorr (stackOf (g * 64)) r.2
      | .uncorrectable => poisonGranule g r.2
  setYarn n { yarnAt y n with copies := (yarnAt y n).copies ++ [{ granule := g, poisoned := setHas y.mem.poison g }] } y

/-- RUNAHEAD_READ (R238, R239, R241, R244): one request for the next granule of the stream that is not held and for those
that follow it in its row, at most 16 and as many as the list has entries; it holds a slot until SLOT_FREE. -/
def execRunaheadRead (n : Nat) (wrong : List Nat) (s : State) : Host.Outcome State Fault Refusal :=
  onSys s (fun _ y =>
    match wantedAhead y n with
    | [] => y
    | g :: rest =>
      if isUp y = false ∨ 2304 ≤ n ∨ wrong = [] ∨ mayRunAhead y n g = false then y
      else
        let gs := g :: (followers g rest (Nat.min wrong.length 16 - 1) 1).filter (mayRunAhead y n)
        let x := engAt y (yarnEngine n)
        (gs.zip wrong).foldl (fetchAhead n)
          (setEng (yarnEngine n) { x with slots := x.slots ++ [{ thread := 0, granules := gs }] } y))

/-- Each byte either as it was or, where it may be written, as it would be written, as free values say (R258, log 1). -/
def mixBytes : List (Byte × Byte × Bool) → Sys → List Byte × Sys
  | [], y => ([], y)
  | (o, b, may) :: r, y =>
    let f := freshWord y
    let m := mixBytes r f.2
    ((if may && f.1.toNat % 2 == 1 then b else o) :: m.1, m.2)

/-- The granules that a unit of consumption reads, as physical granules. -/
def unitGranules (y : Sys) (l : LoadOp) (i : Nat) : List Nat :=
  let r := unitSource l i
  (List.range (cdiv (r.1 % 64 + r.2) 64)).map (fun k => translateAddr y ((r.1 / 64 + k) * 64) / 64)

/-- The block of 32 elements to which byte j of unit i of a load without conversion belongs, in a block format
(R236, R258). -/
def unitBlock (l : LoadOp) (i j : Nat) : Nat :=
  let g := descBytes l.desc / 64
  if i < g then (64 * i + j) / descBlock l.desc else (i - g) * (l.desc.run / descBlock l.desc) + j

/-- A block of 32 elements draws on a poisoned granule, with its elements or with its scale (R258). -/
def taintedBlock (y : Sys) (d : Desc) (b : Nat) : Bool :=
  (poisonIn y (streamAddr d (b * descBlock d)) (descBlock d)).isSome || (poisonIn y (scaleAddr d b) 1).isSome

/-- Byte j of unit i may be written although a later granule of the load is poisoned (R258). -/
def mayWriteByte (y : Sys) (l : LoadOp) (i j : Nat) : Bool :=
  l.out.isSome || descBlock l.desc == 0 || !taintedBlock y l.desc (unitBlock l i j)

/-- Units after a poisoned one, whose bytes may or may not have been written (R258). -/
def mixUnits (id : Nat) (l : LoadOp) : Nat → Nat → Sys → Sys
  | 0, _, y => y
  | k + 1, i, y =>
    let r := unitSource l i
    let y := if poisonIn y r.1 r.2 = none then
        (unitWrites l i (readBytes y r.1 r.2)).foldl (fun y w =>
          let may := (List.range w.2.length).map (mayWriteByte y l i)
          let m := mixBytes ((readBytes y w.1 w.2.length).zip (w.2.zip may)) y
          writeBytes (some id) w.1 m.1 m.2) y
      else y
    mixUnits id l k (i + 1) y

/-- Take the copies of the granules a unit reads: used where they have arrived, late where the consumer waits for their
arrival (R239, R243). A copy that a write has overtaken and no KILL has reached yet counts like any other, and the unit
reads the written bytes: R230 and R231 leave before or after open until the write is complete (DESIGN CHOICE; log 98). -/
def useCopies (n : Nat) (gs : List Nat) (y : Sys) : Sys :=
  let st := yarnAt y n
  let mine := st.copies.filter (fun c => gs.elem c.granule)
  let k := (mine.filter (fun c => c.arrived)).length
  let late := mine.length - k
  if mine = [] then y
  else onCtr 4 n (fun c => { c with used := wrap64 (c.used + k), late := wrap64 (c.late + late) })
    (setYarn n { st with copies := st.copies.filter (fun c => !gs.elem c.granule) } y)

/-- The result of a YARN_LOAD (R257). -/
def loadResult (l : LoadOp) : Word64 := BitVec.ofNat 64 (loadElems l + loadScales l * 2 ^ 32)

/-- The engine can read the granules of a unit: those it holds no copy of need a slot (R239, R244, R245). -/
def unitFits (y : Sys) (n : Nat) (gs : List Nat) : Bool :=
  gs.all (fun g => (yarnAt y n).copies.any (fun c => c.granule == g) || slotFits (engAt y (yarnEngine n)) g)

/-- One unit of the running YARN_LOAD is consumed (R237, R239, R243, R258). -/
def consumeUnit (n id : Nat) (l : LoadOp) (y : Sys) : Sys :=
  let i := (yarnAt y n).pos
  let r := unitSource l i
  match consume 1 r.1 r.2 y with
  | some z => endYarn n (finish id .memUncorrectable [] (mixUnits id l (loadUnits l - i - 1) (i + 1) z))
  | none =>
    let gs := unitGranules y l i
    let y := writeAll id (unitWrites l i (readBytes y r.1 r.2)) (useCopies n gs y)
    let y := setYarn n { yarnAt y n with pos := i + 1 } y
    if i + 1 < loadUnits l then y else endYarn n (finish id .ok [loadResult l] y)

/-- The next unit of shuttle n's running YARN_LOAD cannot be consumed yet: a channel retrains, a request has no slot, or
an earlier command of the lane still reads the shuttle's store (R245, R247, R254). -/
def unitWaits (y : Sys) (n : Nat) (c : Cmd) : Bool :=
  let gs := unitGranules y (loadOf c.pkt) (yarnAt y n).pos
  gs.any (retraining y) || !unitFits y n gs || priorShuttle y c n

/-- Bit errors strike 8-byte words of the store of shuttle n: the code of a word corrects one wrong bit at every read, and two
or more make the word uncorrectable (R507). -/
def upsetStore (n : Nat) (upset : List (Nat × Nat)) (y : Sys) : Sys :=
  let bad := (upset.filter (fun w => inStore n (8 * w.1) 8 && decide (2 ≤ w.2))).map (fun w => w.1)
  { y with mem := { y.mem with badWords := bad.foldl setAdd y.mem.badWords } }

/-- GRANULE_CONSUME (R237, R239, R247, R257, R258, R507). -/
def execGranuleConsume (u : Consumption) (s : State) : Host.Outcome State Fault Refusal :=
  let n := u.shuttle
  onSys s (fun _ y =>
    match (yarnAt y n).cmd with
    | none => y
    | some id => match findCmd y id with
      | none => y
      | some c =>
        if isUp y = false ∨ unitWaits (viewed c y) n c = true then y
        else unview (upsetStore n u.upset (consumeUnit n id (loadOf c.pkt) (viewed c y))))

/-! ### Threads (R213, R244 to R246) -/

/-- Thread h of engine e can run: no request of it is outstanding or unissued, and it is a ready thread of the vector run
or one of a bobbin engine's 8 threads (R207, R213, R245, R270). -/
def threadReady (y : Sys) (e h : Nat) : Bool :=
  !(engAt y e).unissued.elem h && !(engAt y e).slots.any (fun p => p.thread == h) &&
  (if e < 2304 then
    (match ((mapGet {} y.vec.runs e).threads)[h]? with
     | none => false
     | some t => t.status == .ready)
   else decide (4096 ≤ e ∧ e < 4096 + 64 * 18 ∧ h < 8))

/-- The data of a request of a yarn engine have arrived (R243). -/
def markArrived (gs : List Nat) (st : YarnSt) : YarnSt :=
  { st with copies := st.copies.map (fun c => if gs.elem c.granule then { c with arrived := true } else c) }

/-- SLOT_FREE (R243 to R245): the oldest slot of thread h frees, its data have arrived, and threads with an unissued
request can run again. -/
def execSlotFree (e h : Nat) (s : State) : Host.Outcome State Fault Refusal :=
  onSys s (fun _ y =>
    let x := engAt y e
    match x.slots.find? (fun p => p.thread == h) with
    | none => y
    | some p =>
      let y := if e < 8192 then y else setYarn (e - 8192) (markArrived p.granules (yarnAt y (e - 8192))) y
      setEng e { x with slots := x.slots.erase p, unissued := [] } y)

/-! ### Scrub -/

/-- SCRUB_READ (R229, R486): the scrub of a stack, whose die's clocks run, reads its next granule in address order. -/
def execScrubRead (stack wrong : Nat) (s : State) : Host.Outcome State Fault Refusal :=
  onSys s (fun _ y =>
    let m := mapGet {} y.mem.dies stack
    let g := (stack * stackBytes) / 64 + m.scrubNext
    if isUp y = false ∨ 17 < stack ∨ dieStopped y stack = true ∨ m.scrubEn = false ∨ retraining y g = true then y
    else onDie stack (fun m => { m with scrubNext := (m.scrubNext + 1) % (stackBytes / 64) }) (serveRead g 4 wrong y))

/-! ### Arbitration (R248 to R252) -/

/-- Effective priority (R248). -/
def effective (r : Requester) : Nat := Nat.min (r.base + r.age) 15

/-- One step of age (R249). -/
def older (r : Requester) : Requester := { r with age := Nat.min (r.age + 1) 15 }

/-- a wins over b in a round (R249). -/
def winsOver (a b : Requester) : Bool :=
  decide (effective b < effective a) ||
  (effective a == effective b && (decide (a.since < b.since) || (a.since == b.since && decide (a.index < b.index))))

/-- The winner of a round (R249). -/
def roundWinner : List Requester → Option Requester
  | [] => none
  | r :: rs => match roundWinner rs with
    | none => some r
    | some w => if winsOver w r then some w else some r

/-- The base priority of what issues a request: the creel lane of its command, and 0 for scrubs and for counter, trace
and watch traffic; a command that is not in progress issues none (R229, R248, R541). -/
def basePriority (y : Sys) : Issuer → Option Nat
  | .command id => (findCmd y id).map (fun c => c.lane)
  | .scrub => some 0
  | .observation => some 0

/-- Requesters that join the queue: one request of each index waits (R248). -/
def joinWaiting (y : Sys) (w : List Requester) (l : List Arrival) : List Requester :=
  l.foldl (fun w a => match basePriority y a.issuer with
    | none => w
    | some b => if w.any (fun r => r.index == a.index) then w
      else w ++ [{ index := a.index, base := b, since := y.t.timeBase, beats := a.beats }]) w

/-- Arbiters 0 to 147,455 are the banks, 32 × (256 × stack + channel) + bank; a bank of a retraining channel serves no
request (R249, R254). -/
def bankHeld (y : Sys) (a : Nat) : Bool := match y.mem.retrain with
  | none => false
  | some r => a / 32 == 256 * r.stack + r.channel

/-- A round of an arbiter (R249). -/
def arbRound (x : Arbiter) : Arbiter :=
  match roundWinner x.waiting with
  | none => { x with grant := none, idle := false }
  | some w =>
    { waiting := (x.waiting.filter (fun r => r.index != w.index)).map older,
      grant := some ({ w with age := 0 }, effective w), idle := false }

/-- ARBITRATION_ROUND (R249, R254): the resource has become free; a withdrawn grant leaves it idle for one beat first. At a
bank whose channel retrains, requests arrive and wait, and there is no round. -/
def execArbitrationRound (a : Nat) (arrivals : List Arrival) (withdrawn : Bool) (s : State) :
    Host.Outcome State Fault Refusal :=
  onSys s (fun _ y =>
    if isUp y = false then y
    else
      let x := mapGet {} y.arb a
      let x := { x with waiting := joinWaiting y x.waiting arrivals }
      let x := if bankHeld y a then x else if withdrawn && x.grant.isSome then { x with grant := none, idle := true } else arbRound x
      { y with arb := mapSet {} y.arb a x })

/-- PREEMPTION (R250): a requester arrives while a grant is in progress, of which doneBeats have passed. -/
def execPreemption (a : Nat) (r : Arrival) (doneBeats : Nat) (s : State) : Host.Outcome State Fault Refusal :=
  onSys s (fun _ y =>
    let x := mapGet {} y.arb a
    match x.grant, basePriority y r.issuer with
    | some (h, frozen), some b =>
      let n : Requester := { index := r.index, base := b, since := y.t.timeBase, beats := r.beats }
      if isUp y = false ∨ x.waiting.any (fun q => q.index == r.index) = true ∨ r.index = h.index ∨ h.beats ≤ doneBeats then y
      else
        let x := if frozen < effective n ∧ bankHeld y a = false then
            { x with waiting := x.waiting ++ [older { h with beats := h.beats - doneBeats }], grant := some (n, effective n) }
          else { x with waiting := x.waiting ++ [n] }
        { y with arb := mapSet {} y.arb a x }
    | _, _ => y)

end Sys2Proof.Machine
end

