-- ==== Sys2Proof/Machine/Vec.lean ====
section
/-! DEFINITION. Vector programs: the registers of a thread, memory elements, faults, and one meaning for each
instruction (R99, R207 to R213). -/

namespace Sys2Proof.Machine

open Sys2Proof

/-- The run of a shuttle. -/
def runAt (y : Sys) (n : Nat) : VecRun := mapGet {} y.vec.runs n

/-- Replace the run of a shuttle. -/
def setRun (n : Nat) (r : VecRun) (y : Sys) : Sys := { y with vec := { y.vec with runs := mapSet {} y.vec.runs n r } }

/-- The OP values that R210 gives a meaning. -/
def vecOps : List Nat :=
  [0x01, 0x02, 0x03, 0x04, 0x05, 0x10, 0x11, 0x12, 0x13, 0x14, 0x15, 0x16, 0x17, 0x18, 0x19, 0x1A, 0x1B, 0x1C, 0x1D, 0x1E,
   0x1F, 0x20, 0x21, 0x22, 0x30, 0x31, 0x32, 0x40, 0x41, 0x42, 0x50, 0x51, 0x52, 0x53]

/-- What an instruction runs in: shuttle, thread number, the VEC_RUN, the instruction word, the thread. -/
structure VCtx where
  n : Nat
  h : Nat
  c : Cmd
  w : Nat
  th : VThread
deriving DecidableEq, Repr

/-- What an instruction comes to: go on, jump, or a fault of R208. -/
inductive VRes where
  | go (th : VThread) (y : Sys)
  | jump (i : Int) (y : Sys)
  | fault (code : Nat) (y : Sys)
deriving DecidableEq, Repr

/-- Register field D (R209). -/
def vD (k : VCtx) : Nat := nfld k.w 52 4
/-- Register field A (R209). -/
def vA (k : VCtx) : Nat := nfld k.w 48 4
/-- Register field B (R209). -/
def vB (k : VCtx) : Nat := nfld k.w 44 4
/-- Field POL (R209). -/
def vPol (k : VCtx) : Nat := nfld k.w 40 2
/-- Field T (R209). -/
def vT (k : VCtx) : Nat := nfld k.w 32 8
/-- The immediate (R209). -/
def vImm (k : VCtx) : Int := sext (nfld k.w 0 32) 32

/-- Mask register i; m0 reads all ones (R207). -/
def maskReg (th : VThread) (i : Nat) : Word64 := if i = 0 then BitVec.allOnes 64 else th.m.getD i 0

/-- Lane l is written (R209). -/
def laneOn (k : VCtx) (l : Nat) : Bool := flag (maskReg k.th (nfld k.w 42 2)) l

/-- The lanes that an instruction writes. -/
def onLanes (k : VCtx) : List Nat := (List.range 64).filter (laneOn k)

/-- A vector register. -/
def vReg (th : VThread) (i : Nat) : VReg := th.v.getD i {}

/-- A lane of a vector register. -/
def vLane (r : VReg) (l : Nat) : Word32 := r.lanes.getD l 0

/-- A scalar register. -/
def sReg (th : VThread) (i : Nat) : Word64 := th.s.getD i 0

/-- Write a scalar register. -/
def setS (i : Nat) (v : Word64) (th : VThread) : VThread := { th with s := th.s.set i v }

/-- Write the masked lanes of vector register D (R209), with the type of what is written: R210 and R99 let VST and VCVT
convert from I32, U32 or F32 and do not say which a register holds; the model takes the type last written
(DESIGN CHOICE; log 100). -/
def setV (k : VCtx) (ty : VTy) (f : Nat → Word32) (th : VThread) : VThread :=
  let r := vReg th (vD k)
  let lanes := (List.range 64).map (fun l => if laneOn k l then f l else vLane r l)
  { th with v := th.v.set (vD k) { r with lanes := lanes, ty := ty } }

/-- The type of raw 32-bit words, which R209 does not state (log 1, log 19). -/
def freeTy (y : Sys) : VTy × Sys :=
  let r := freshWord y
  ((match r.1.toNat % 3 with | 0 => .i32 | 1 => .u32 | _ => .f32), r.2)

/-- The arithmetic type of a type code (R209). -/
def tyOf : Nat → Option VTy
  | 0 => some .i32
  | 1 => some .u32
  | 2 => some .f32
  | _ => none

/-- The value of a lane under a type. -/
def laneVal (ty : VTy) (w : Word32) : Dec := match ty with
  | .i32 => { m := w.toInt }
  | .u32 => { m := Int.ofNat w.toNat }
  | .f32 => f32Dec w

/-- The scalar formats of memory operands (R63, R209). -/
def memFmt (t : Nat) : Option Fmt := match fmtOf t with
  | some f => if isScalarFmt f then some f else none
  | none => none

/-- Bits of a memory element: 32 for raw words (R209). -/
def memWidth (t : Nat) : Option Nat := if t = 0 then some 32 else (memFmt t).map fmtWidth

/-- The byte address and the bit offset of element i of a memory operand at a base (R210). The manual does not state size(T)
of a 4-bit element: the model counts half a byte for each index (DESIGN CHOICE; log 101). -/
def elemAddr (base w : Nat) (i : Int) : Nat × Nat :=
  let bitsFrom := i * Int.ofNat w
  (((Int.ofNat base + bitsFrom / 8) % Int.ofNat (2 ^ 64)).toNat, (bitsFrom % 8).toNat)

/-- Bytes that hold an element. -/
def elemBytes (w : Nat) : Nat := cdiv w 8

/-- An element access is illegal: unaligned, or outside the regions of R177 (R208). -/
def badElem (_ : Sys) (n w : Nat) (a : Nat × Nat) : Bool :=
  a.1 % elemBytes w != 0 || !(inDram a.1 (elemBytes w) || inStore n a.1 (elemBytes w))

/-- A write of that kind is illegal: a face range counts as outside, for a step-free run a back range too (R277, R378). -/
def badStore (y : Sys) (k : VCtx) (w : Nat) (a : Nat × Nat) : Bool :=
  badElem y k.n w a || protectedHit y (backIsFace k.c) a.1 (elemBytes w)

/-- The code of an element. -/
def elemCode (y : Sys) (w : Nat) (a : Nat × Nat) : Nat := nfld (readNat y a.1 (elemBytes w)) a.2 w

/-- Store the code of an element; a 4-bit element keeps its neighbour (R68). -/
def putElem (id w : Nat) (a : Nat × Nat) (code : Nat) (y : Sys) : Sys :=
  let old := if w < 8 then readNat y a.1 1 else 0
  writeBytes (some id) a.1 (leBytes (elemBytes w) (if w < 8 then putFld old a.2 w code else code)) y

/-- A loaded element in a vector lane: integer formats widen to I32, the others to F32 (R99, R210). -/
def widen (t code : Nat) : Word32 :=
  match memFmt t with
  | none => BitVec.ofNat 32 code
  | some f =>
    let d := decodeFmt f code 0
    if isIntFmt f then BitVec.ofInt 32 d.m else BitVec.ofNat 32 (toScalar .fp32 false none d).1

/-- The register type that a load of type T leaves (R99, R210). -/
def loadTy (t : Nat) (y : Sys) : VTy × Sys :=
  match memFmt t with
  | none => freeTy y
  | some f => (if isIntFmt f then .i32 else .f32, y)

/-- Lane addresses of VLD and VST. -/
def lineAddr (k : VCtx) (w : Nat) (l : Nat) : Nat × Nat :=
  elemAddr ((Int.ofNat (sReg k.th (vA k)).toNat + vImm k) % Int.ofNat (2 ^ 64)).toNat w (Int.ofNat l)

/-- The index in a lane; from 2^31 on its sign is open (R210, log 13). -/
def indexOf (w : Word32) : Int := if w.toNat < 2 ^ 31 then Int.ofNat w.toNat else Config.laneIndex w

/-- Lane addresses of gathers and scatters (R210). -/
def scatAddr (k : VCtx) (w : Nat) (l : Nat) : Nat × Nat :=
  elemAddr (sReg k.th (vA k)).toNat w (indexOf (vLane (vReg k.th (vB k)) l))

/-- Load masked lanes from addresses (R208, R210). -/
def loadLanes (k : VCtx) (addr : Nat → Nat → Nat × Nat) (y : Sys) : VRes :=
  match memWidth (vT k) with
  | none => .fault 0x01 y
  | some w =>
    let at' := (onLanes k).map (addr w)
    if at'.any (badElem y k.n w) then .fault 0x02 y
    else match consumeAll 2 y (at'.map (fun a => (a.1, elemBytes w))) with
      | some z => .fault 0x07 z
      | none =>
        let t := loadTy (vT k) y
        .go (setV k t.1 (fun l => widen (vT k) (elemCode y w (addr w l))) k.th) t.2

/-- The code that VST writes for a lane (R99, R210). -/
def storeCode (k : VCtx) (l : Nat) : Nat :=
  let r := vReg k.th (vD k)
  match memFmt (vT k) with
  | none => (vLane r l).toNat
  | some f => (toScalar f (vPol k == 1) none (laneVal r.ty (vLane r l))).1

/-- Store masked lanes at addresses, in lane order, so that the highest lane is written last (R210). -/
def storeLanes (k : VCtx) (addr : Nat → Nat → Nat × Nat) (y : Sys) : VRes :=
  match memWidth (vT k) with
  | none => .fault 0x01 y
  | some w =>
    if 1 < vPol k then .fault 0x01 y
    else if ((onLanes k).map (addr w)).any (badStore y k w) then .fault 0x02 y
    else .go k.th ((onLanes k).foldl (fun y l => putElem k.c.id w (addr w l) (storeCode k l) y) y)

/-- The run of a shuttle ends: its command finishes and its engine is free (R207, R208). -/
def endRun (n id : Nat) (st : Status) (res : List Word64) (y : Sys) : Sys :=
  setEng n {} (setRun n {} (finish id st res y))

/-- The status of a fault code (R208). -/
def faultStatus : Nat → Status
  | 0x03 => .wideMalformed
  | 0x04 => .baseMismatch
  | _ => .vecFault

/-- A fault stops every thread (R208). -/
def vecFaulted (k : VCtx) (code : Nat) (y : Sys) : Sys :=
  endRun k.n k.c.id (faultStatus code) [0, 0, BitVec.ofNat 64 (code * 2 ^ 16 + k.h * 2 ^ 12 + k.th.pc)] y

/-- The instruction index after a jump or a step; beyond the program memory it is open (log 15). -/
def nextIndex (i : Int) : Nat := if 0 ≤ i ∧ i < 2048 then i.toNat else Config.vecIndex i % 2048

/-- Replace thread h of a run. -/
def setThread (n h : Nat) (th : VThread) (y : Sys) : Sys :=
  setRun n { runAt y n with threads := (runAt y n).threads.set h th } y

/-- The end of an instruction that did not fault: the engine stays at the thread, the thread goes on, and a run whose threads
have all ended completes with s0 and s1 of thread 0 (R207, R208, R213). -/
def vecGo (k : VCtx) (th : VThread) (pc : Int) (y : Sys) : Sys :=
  let y := setEng k.n { engAt y k.n with current := k.h } y
  let y := setThread k.n k.h { th with pc := nextIndex pc, count := k.th.count + 1 } y
  let ts := (runAt y k.n).threads
  if ts.all (fun t => t.status == .ended) then
    let t0 := ts.headD {}
    endRun k.n k.c.id .ok [sReg t0 0, sReg t0 1] y
  else y

/-- What thread h of shuttle n runs in: its run, its command and the instruction it stands at. -/
def ctxAt (y : Sys) (n h : Nat) : Option VCtx :=
  let r := runAt y n
  match r.cmd, r.threads[h]? with
  | some id, some th => (findCmd y id).map (fun c =>
      { n := n, h := h, c := c, w := (mapGet 0 y.vec.prog (2048 * n + th.pc)).toNat, th := th })
  | _, _ => none

/-- The address of the wide operand. -/
def wideAddr (k : VCtx) : Nat := ((Int.ofNat (sReg k.th (vA k)).toNat + vImm k) % Int.ofNat (2 ^ 64)).toNat

/-- The addresses that the instruction reads or writes, by its OP. -/
def instrAddrs (k : VCtx) : List Nat :=
  let lanes := fun (w : Option Nat) (addr : Nat → Nat → Nat × Nat) => match w with
    | none => []
    | some w => (onLanes k).map (fun l => (addr w l).1)
  match nfld k.w 56 8 with
  | 0x01 | 0x02 => lanes (memWidth (vT k)) (lineAddr k)
  | 0x03 | 0x04 => lanes (memWidth (vT k)) (scatAddr k)
  | 0x05 => lanes (some 32) (scatAddr k)
  | 0x30 | 0x32 => (List.range 40).map (fun i => wideAddr k + 8 * i)
  | _ => []

/-- The physical granules of bonded DRAM for which the instruction makes requests (R244). -/
def instrGranules (y : Sys) (k : VCtx) : List Nat :=
  dedup (((instrAddrs k).filter (fun a => decide (a < dramEnd))).map (fun a => translateAddr y (a / 64 * 64) / 64))

/-- The engine runs thread h: its current thread, or a ready one where the current thread cannot run (R213). -/
def mayRun (y : Sys) (n h : Nat) : Bool :=
  threadReady y n h && (h == (engAt y n).current || !threadReady y n (engAt y n).current)

/-- The accesses of the instruction wait for a retraining channel (R254). -/
def instrHeld (y : Sys) (k : VCtx) : Bool := (instrGranules y k).any (retraining y)

/-- A request of the instruction finds no slot (R245). The requests of an instruction that the engine does not leave by a
THREAD_SWITCH hold their slots within its own step (log 109). -/
def instrUnissued (y : Sys) (k : VCtx) : Bool := !(instrGranules y k).all (slotFits (engAt y k.n))

/-- A thread with a request that is not issued stops (R245). -/
def stopThread (k : VCtx) (y : Sys) : Sys :=
  let x := engAt y k.n
  setEng k.n { x with unissued := if x.unissued.elem k.h then x.unissued else x.unissued ++ [k.h] } y

/-- What the result of an instruction does. -/
def vecEnd (k : VCtx) : VRes → Sys
  | .go th z => vecGo k th (Int.ofNat k.th.pc + 1) z
  | .jump i z => vecGo k k.th i z
  | .fault code z => vecFaulted k code z

/-- Thread h of shuttle n executes its instruction where that is one of the given OP (R208, R210, R213, R282). -/
def vecRow (n h op : Nat) (f : VCtx → Sys → VRes) (y : Sys) : Sys :=
  match ctxAt y n h with
  | none => y
  | some k =>
    let r := runAt y n
    if isUp y = false ∨ mayRun y n h = false then y
    else if r.limit ≠ 0 ∧ r.limit * 1024 ≤ k.th.count then vecFaulted k 0x06 y
    else if vecOps.elem (nfld k.w 56 8) = false then vecFaulted k 0x01 y
    else if nfld k.w 56 8 ≠ op ∨ instrHeld (viewed k.c y) k = true then y
    else if instrUnissued (viewed k.c y) k = true then stopThread k y
    else unview (vecEnd k (f k (viewed k.c y)))

/-- The loads: an engine whose current thread misses in one goes on with another thread (R213). -/
def loadOps : List Nat := [0x01, 0x03, 0x05, 0x30]

/-- The granules that the current thread of engine e requests: those of the load from bonded DRAM at which a vector thread
stands, or the one that a bobbin engine's thread misses, which the row names (R213, R246; log 109). -/
def missed (y : Sys) (e granule : Nat) : List Nat :=
  if e < 2304 then
    match ctxAt y e (engAt y e).current with
    | none => []
    | some k => if loadOps.elem (nfld k.w 56 8) then instrGranules (viewed k.c y) k else []
  else if granule * 64 < dramEnd then [granule] else []

/-- THREAD_SWITCH (R213, R245, R246): the current thread misses in a load from bonded DRAM; its requests take slots, or are
not issued, and the engine goes on with ready thread h. -/
def execThreadSwitch (e h granule : Nat) (s : State) : Host.Outcome State Fault Refusal :=
  onSys s (fun _ y =>
    let gs := missed y e granule
    let x := engAt y e
    if isUp y = false ∨ h = x.current ∨ threadReady y e h = false ∨ gs = [] then y
    else setEng e { issueAll x.current gs x with current := h } y)

/-! ### Memory instructions -/

/-- VLD. -/
def execVld (n h : Nat) (s : State) : Host.Outcome State Fault Refusal :=
  onSys s (fun _ y => vecRow n h 0x01 (fun k y => loadLanes k (lineAddr k) y) y)

/-- VST. -/
def execVst (n h : Nat) (s : State) : Host.Outcome State Fault Refusal :=
  onSys s (fun _ y => vecRow n h 0x02 (fun k y => storeLanes k (lineAddr k) y) y)

/-- VGATHER. -/
def execVgather (n h : Nat) (s : State) : Host.Outcome State Fault Refusal :=
  onSys s (fun _ y => vecRow n h 0x03 (fun k y => loadLanes k (scatAddr k) y) y)

/-- VSCATTER. -/
def execVscatter (n h : Nat) (s : State) : Host.Outcome State Fault Refusal :=
  onSys s (fun _ y => vecRow n h 0x04 (fun k y =>
    match memWidth (vT k) with
    | none => .fault 0x01 y
    | some w =>
      if ((onLanes k).map (scatAddr k w)).any (badStore y k w) then .fault 0x02 y
      else .go k.th ((onLanes k).foldl (fun y l => putElem k.c.id w (scatAddr k w l)
        (match memFmt (vT k) with
         | none => (vLane (vReg k.th (vD k)) l).toNat
         | some f => (toScalar f false none (laneVal (vReg k.th (vD k)).ty (vLane (vReg k.th (vD k)) l))).1) y) y)) y)

/-- VSCATADD. -/
def execVscatadd (n h : Nat) (s : State) : Host.Outcome State Fault Refusal :=
  onSys s (fun _ y => vecRow n h 0x05 (fun k y =>
    let at' := (onLanes k).map (scatAddr k 32)
    if at'.any (badStore y k 32) then .fault 0x02 y
    else match consumeAll 2 y (at'.map (fun a => (a.1, 4))) with
      | some z => .fault 0x07 z
      | none => .go k.th ((onLanes k).foldl (fun y l =>
          let a := scatAddr k 32 l
          putElem k.c.id 32 a ((elemCode y 32 a + (vLane (vReg k.th (vD k)) l).toNat) % 2 ^ 32) y) y)) y)

/-! ### Lane arithmetic -/

/-- A lane-wise instruction over v[A] and v[B] of an arithmetic type. -/
def laneOp (k : VCtx) (f : VTy → Word32 → Word32 → Word32) (y : Sys) : VRes :=
  match tyOf (vT k) with
  | none => .fault 0x01 y
  | some ty => .go (setV k ty (fun l => f ty (vLane (vReg k.th (vA k)) l) (vLane (vReg k.th (vB k)) l)) k.th) y

/-- A lane-wise instruction of F32 only. -/
def floatOp (k : VCtx) (f : Nat → Word32) (y : Sys) : VRes :=
  if vT k = 2 then .go (setV k .f32 f k.th) y else .fault 0x01 y

/-- VADD. -/
def execVadd (n h : Nat) (s : State) : Host.Outcome State Fault Refusal :=
  onSys s (fun _ y => vecRow n h 0x10 (fun k y => laneOp k (fun ty a b => if ty = .f32 then f32Add a b else a + b) y) y)

/-- VSUB. -/
def execVsub (n h : Nat) (s : State) : Host.Outcome State Fault Refusal :=
  onSys s (fun _ y => vecRow n h 0x11 (fun k y => laneOp k (fun ty a b => if ty = .f32 then f32Sub a b else a - b) y) y)

/-- VMUL. -/
def execVmul (n h : Nat) (s : State) : Host.Outcome State Fault Refusal :=
  onSys s (fun _ y => vecRow n h 0x12 (fun k y => laneOp k (fun ty a b => if ty = .f32 then f32Mul a b else a * b) y) y)

/-- VFMA. -/
def execVfma (n h : Nat) (s : State) : Host.Outcome State Fault Refusal :=
  onSys s (fun _ y => vecRow n h 0x13 (fun k y => floatOp k (fun l =>
    f32Fma (vLane (vReg k.th (vA k)) l) (vLane (vReg k.th (vB k)) l) (vLane (vReg k.th (vD k)) l)) y) y)

/-- VDIV. -/
def execVdiv (n h : Nat) (s : State) : Host.Outcome State Fault Refusal :=
  onSys s (fun _ y => vecRow n h 0x14 (fun k y => floatOp k (fun l =>
    f32Div (vLane (vReg k.th (vA k)) l) (vLane (vReg k.th (vB k)) l)) y) y)

/-- VSQRT. -/
def execVsqrt (n h : Nat) (s : State) : Host.Outcome State Fault Refusal :=
  onSys s (fun _ y => vecRow n h 0x15 (fun k y => floatOp k (fun l => f32Sqrt (vLane (vReg k.th (vA k)) l)) y) y)

/-- a < b under an arithmetic type. -/
def tyLt (ty : VTy) (a b : Word32) : Bool := match ty with
  | .i32 => decide (a.toInt < b.toInt)
  | .u32 => decide (a.toNat < b.toNat)
  | .f32 => f32Lt a b

/-- a = b under an arithmetic type, by value. -/
def tyEq (ty : VTy) (a b : Word32) : Bool := match ty with
  | .f32 => f32Eq a b
  | _ => a == b

/-- Lane-wise minimum or maximum: a NaN gives the canonical NaN (R75, R211), and of two zeros of unlike sign the result is a
zero whose sign is open (R210; log 14). -/
def extremeLane (big : Bool) (ty : VTy) (a b : Word32) : Word32 :=
  if ty = .f32 ∧ (f32IsNan a = true ∨ f32IsNan b = true) then f32Nan
  else if ty = .f32 ∧ f32Eq a b = true ∧ a ≠ b then f32Zero (Config.vecZeroNegative big a b)
  else if tyLt ty a b then (if big then b else a) else (if big then a else b)

/-- VMIN. -/
def execVmin (n h : Nat) (s : State) : Host.Outcome State Fault Refusal :=
  onSys s (fun _ y => vecRow n h 0x16 (fun k y => laneOp k (extremeLane false) y) y)

/-- VMAX. -/
def execVmax (n h : Nat) (s : State) : Host.Outcome State Fault Refusal :=
  onSys s (fun _ y => vecRow n h 0x17 (fun k y => laneOp k (extremeLane true) y) y)

/-- VAND. -/
def execVand (n h : Nat) (s : State) : Host.Outcome State Fault Refusal :=
  onSys s (fun _ y => vecRow n h 0x18 (fun k y => laneOp k (fun _ a b => a &&& b) y) y)

/-- VOR. -/
def execVor (n h : Nat) (s : State) : Host.Outcome State Fault Refusal :=
  onSys s (fun _ y => vecRow n h 0x19 (fun k y => laneOp k (fun _ a b => a ||| b) y) y)

/-- VXOR. -/
def execVxor (n h : Nat) (s : State) : Host.Outcome State Fault Refusal :=
  onSys s (fun _ y => vecRow n h 0x1A (fun k y => laneOp k (fun _ a b => a ^^^ b) y) y)

/-- VSHL. -/
def execVshl (n h : Nat) (s : State) : Host.Outcome State Fault Refusal :=
  onSys s (fun _ y => vecRow n h 0x1B (fun k y => laneOp k (fun _ a _ => a <<< nfld k.w 0 5) y) y)

/-- VSHR. -/
def execVshr (n h : Nat) (s : State) : Host.Outcome State Fault Refusal :=
  onSys s (fun _ y => vecRow n h 0x1C (fun k y => laneOp k (fun ty a _ =>
    if ty = .i32 then a.sshiftRight (nfld k.w 0 5) else a >>> nfld k.w 0 5) y) y)

/-- A condition of VCMP; none for a reserved code (R210). -/
def condOf (c : Nat) (ty : VTy) (a b : Word32) : Bool := match c with
  | 0 => tyEq ty a b
  | 1 => !tyEq ty a b
  | 2 => tyLt ty a b
  | 3 => tyLt ty a b || tyEq ty a b
  | 4 => tyLt ty b a
  | _ => tyLt ty b a || tyEq ty a b

/-- A mask word with the masked lanes written by a function. -/
def maskWord (k : VCtx) (old : Word64) (f : Nat → Bool) : Word64 :=
  BitVec.ofNat 64 ((List.range 64).foldl (fun m l => m + b2n (if laneOn k l then f l else flag old l) * 2 ^ l) 0)

/-- VCMP. -/
def execVcmp (n h : Nat) (s : State) : Host.Outcome State Fault Refusal :=
  onSys s (fun _ y => vecRow n h 0x1D (fun k y =>
    match tyOf (vT k) with
    | none => .fault 0x01 y
    | some ty =>
      if 3 < vD k ∨ 5 < nfld k.w 0 3 then .fault 0x01 y
      else
        let f := fun l => condOf (nfld k.w 0 3) ty (vLane (vReg k.th (vA k)) l) (vLane (vReg k.th (vB k)) l)
        let m := if vD k = 0 then k.th.m else k.th.m.set (vD k) (maskWord k (k.th.m.getD (vD k) 0) f)
        .go { k.th with m := m } y) y)

/-- VSEL. -/
def execVsel (n h : Nat) (s : State) : Host.Outcome State Fault Refusal :=
  onSys s (fun _ y => vecRow n h 0x1E (fun k y =>
    match tyOf (vT k) with
    | none => .fault 0x01 y
    | some ty =>
      if 3 < vB k then .fault 0x01 y
      else .go (setV k ty (fun l =>
        if flag (maskReg k.th (vB k)) l then vLane (vReg k.th (vA k)) l else vLane (vReg k.th (vD k)) l) k.th) y) y)

/-- A value as a 32-bit integer: rounded to nearest even and saturated (R87, R88, R99). R69 makes the range of the signed
integer formats symmetric and says nothing of the register type I32: the model saturates at -2^31 (DESIGN CHOICE;
log 103). -/
def toInt32 (signed : Bool) (v : Dec) : Word32 :=
  let hi : Int := if signed then 2 ^ 31 - 1 else 2 ^ 32 - 1
  let lo : Int := if signed then -(2 ^ 31) else 0
  match v.cls with
  | .nan => 0
  | .posInf => BitVec.ofInt 32 hi
  | .negInf => BitVec.ofInt 32 lo
  | .finite =>
    let t := rneToGrid v.m v.e 0
    BitVec.ofInt 32 (if t < lo then lo else if hi < t then hi else t)

/-- A target of VCVT: a scalar format or a register type (R99, log 17). -/
def convertTarget (t : Nat) : Option (Fmt ⊕ VTy) :=
  if t = 0x01 ∨ t = 0x02 then
    (if Config.convertNamesFormat then (memFmt t).map Sum.inl else (tyOf t).map Sum.inr)
  else match tyOf t with
    | some ty => some (.inr ty)
    | none => (memFmt t).map Sum.inl

/-- A lane converted by VCVT; a format's value stands in the lane as a load of it would leave it (R99, R210). -/
def convertLane (tgt : Fmt ⊕ VTy) (t : Nat) (inf : Bool) (v : Dec) : Word32 := match tgt with
  | .inl f => widen t (toScalar f inf none v).1
  | .inr .i32 => toInt32 true v
  | .inr .u32 => toInt32 false v
  | .inr .f32 => BitVec.ofNat 32 (toScalar .fp32 inf none v).1

/-- The register type that VCVT leaves. -/
def convertTy : Fmt ⊕ VTy → VTy
  | .inl f => if isIntFmt f then .i32 else .f32
  | .inr ty => ty

/-- VCVT. -/
def execVcvt (n h : Nat) (s : State) : Host.Outcome State Fault Refusal :=
  onSys s (fun _ y => vecRow n h 0x1F (fun k y =>
    match convertTarget (vT k) with
    | none => .fault 0x01 y
    | some tgt =>
      if 1 < vPol k then .fault 0x01 y
      else
        let r := vReg k.th (vA k)
        .go (setV k (convertTy tgt) (fun l => convertLane tgt (vT k) (vPol k == 1) (laneVal r.ty (vLane r l))) k.th) y) y)

/-! ### Reductions -/

/-- One level of the pairwise tree: lane l and lane l + half (R211). -/
def treeLevel (xs : List Word32) : List Word32 :=
  let half := xs.length / 2
  ((xs.take half).zip (xs.drop half)).map (fun p => f32Add p.1 p.2)

/-- The pairwise tree over 64 lanes (R211). -/
def treeSum (xs : List Word32) : Word32 :=
  (treeLevel (treeLevel (treeLevel (treeLevel (treeLevel (treeLevel xs)))))).headD 0

/-- A 32-bit code in a scalar register: its upper half is not stated for F32 (log 1). -/
def floatScalar (w : Word32) (y : Sys) : Word64 × Sys :=
  let r := freshWord y
  (BitVec.ofNat 64 (w.toNat + (r.1.toNat % 2 ^ 32) * 2 ^ 32), r.2)

/-- The lanes of v[A]. -/
def allLanes (k : VCtx) : List Word32 := (List.range 64).map (fun l => vLane (vReg k.th (vA k)) l)

/-- VREDSUM. -/
def execVredsum (n h : Nat) (s : State) : Host.Outcome State Fault Refusal :=
  onSys s (fun _ y => vecRow n h 0x20 (fun k y =>
    match tyOf (vT k) with
    | some .i32 => .go (setS (vD k) (BitVec.ofInt 64 ((allLanes k).foldl (fun a w => a + w.toInt) 0)) k.th) y
    | some .f32 =>
      let r := floatScalar (treeSum (allLanes k)) y
      .go (setS (vD k) r.1 k.th) r.2
    | _ => .fault 0x01 y) y)

/-- a stands strictly before b in the order of an extreme, NaN above every number (R211). -/
def before (big : Bool) (ty : VTy) (a b : Word32) : Bool :=
  let an := ty == .f32 && f32IsNan a
  let bn := ty == .f32 && f32IsNan b
  if an || bn then (if big then an && !bn else bn && !an)
  else if big then tyLt ty b a else tyLt ty a b

/-- The extreme and its lowest lane (R211). -/
def extreme (big : Bool) (ty : VTy) : List (Word32 × Nat) → Word32 × Nat
  | [] => (0, 0)
  | [p] => p
  | p :: r =>
    let q := extreme big ty r
    if before big ty q.1 p.1 then q else p

/-- VREDMAX and VREDMIN, which write the canonical NaN for a NaN (R75, R210, R211). -/
def redExtreme (big : Bool) (k : VCtx) (y : Sys) : VRes :=
  match tyOf (vT k) with
  | none => .fault 0x01 y
  | some ty =>
    if vD k = 15 then .fault 0x01 y
    else
      let e := extreme big ty (allLanes k).zipIdx
      let r := match ty with
        | .i32 => (BitVec.ofInt 64 e.1.toInt, y)
        | .u32 => (BitVec.ofNat 64 e.1.toNat, y)
        | .f32 => floatScalar (if f32IsNan e.1 then f32Nan else e.1) y
      .go (setS (vD k + 1) (BitVec.ofNat 64 e.2) (setS (vD k) r.1 k.th)) r.2

/-- VREDMAX. -/
def execVredmax (n h : Nat) (s : State) : Host.Outcome State Fault Refusal :=
  onSys s (fun _ y => vecRow n h 0x21 (redExtreme true) y)

/-- VREDMIN. -/
def execVredmin (n h : Nat) (s : State) : Host.Outcome State Fault Refusal :=
  onSys s (fun _ y => vecRow n h 0x22 (redExtreme false) y)

/-! ### Wide values (R212) -/

/-- The 256-bit value of group g of a register, lane 8 g lowest. -/
def groupVal (r : VReg) (g : Nat) : BitVec 256 :=
  BitVec.ofNat 256 ((List.range 8).foldl (fun m i => m + (vLane r (8 * g + i)).toNat * 2 ^ (32 * i)) 0)

/-- Write the groups of v[D], with classes and marks; a group of which no lane is written keeps its own. -/
def setWide (k : VCtx) (ws : List Wide) (y : Sys) : VRes :=
  let f := fun l => BitVec.ofNat 32 ((ws.getD (l / 8) {}).v.toNat / 2 ^ (32 * (l % 8)))
  let old := vReg k.th (vD k)
  let th := setV k old.ty f k.th
  let mk := fun g => if (List.range 8).any (fun i => laneOn k (8 * g + i)) then ((ws.getD g {}).cls, (ws.getD g {}).inexact)
    else old.wide.getD g (.finite, false)
  let r := vReg th (vD k)
  .go { th with v := th.v.set (vD k) { r with wide := (List.range 8).map mk } } y

/-- VWLD. -/
def execVwld (n h : Nat) (s : State) : Host.Outcome State Fault Refusal :=
  onSys s (fun _ y => vecRow n h 0x30 (fun k y =>
    let a := wideAddr k
    if a % 8 ≠ 0 ∨ (inDram a 320 || inStore k.n a 320) = false then .fault 0x02 y
    else match consume 2 a 320 y with
      | some z => .fault 0x07 z
      | none =>
        let ws := (List.range 8).map (fun i => wideOf (readBytes y (a + 40 * i) 40))
        let base := sext (fld (sReg k.th (vB k)) 0 16) 16
        if ws.any (fun w => w.isNone) then .fault 0x03 y
        else if (ws.filterMap id).any (fun w => w.cls == Cls.finite && w.base != base) then .fault 0x04 y
        else setWide k (ws.filterMap id) y) y)

/-- Group g of a register as a wide value. -/
def wideGroup (r : VReg) (g : Nat) : Wide :=
  let m := r.wide.getD g (.finite, false)
  { cls := m.1, v := groupVal r g, inexact := m.2 }

/-- The sum of two wide values; none when it leaves the 256-bit range (R212). -/
def wideSum (a b : Wide) : Option Wide :=
  let c := clsJoin a.cls b.cls
  let inx := a.inexact || b.inexact
  if c ≠ Cls.finite then some { cls := c, inexact := inx }
  else if outOf256 (a.v.toInt + b.v.toInt) then none
  else some { v := a.v + b.v, inexact := inx }

/-- VWADD. -/
def execVwadd (n h : Nat) (s : State) : Host.Outcome State Fault Refusal :=
  onSys s (fun _ y => vecRow n h 0x31 (fun k y =>
    let ws := (List.range 8).map (fun g => wideSum (wideGroup (vReg k.th (vA k)) g) (wideGroup (vReg k.th (vB k)) g))
    if ws.any (fun w => w.isNone) then .fault 0x05 y else setWide k (ws.filterMap id) y) y)

/-- VWST. -/
def execVwst (n h : Nat) (s : State) : Host.Outcome State Fault Refusal :=
  onSys s (fun _ y => vecRow n h 0x32 (fun k y =>
    let a := wideAddr k
    let base := sext (fld (sReg k.th (vB k)) 0 16) 16
    let gs := (List.range 8).filter (fun g => (List.range 8).any (fun i => laneOn k (8 * g + i)))
    let bad := fun (g : Nat) => !(inDram (a + 40 * g) 40 || inStore k.n (a + 40 * g) 40) ||
      protectedHit y (backIsFace k.c) (a + 40 * g) 40
    if a % 8 ≠ 0 ∨ gs.any bad = true then .fault 0x02 y
    else .go k.th (gs.foldl (fun y g =>
      writeBytes (some k.c.id) (a + 40 * g) (wideBytes { wideGroup (vReg k.th (vD k)) g with base := base }) y) y)) y)

/-! ### Scalar and control instructions -/

/-- SADD. -/
def execSadd (n h : Nat) (s : State) : Host.Outcome State Fault Refusal :=
  onSys s (fun _ y => vecRow n h 0x40 (fun k y =>
    .go (setS (vD k) (sReg k.th (vA k) + sReg k.th (vB k) + BitVec.ofInt 64 (vImm k)) k.th) y) y)

/-- SMOVI. -/
def execSmovi (n h : Nat) (s : State) : Host.Outcome State Fault Refusal :=
  onSys s (fun _ y => vecRow n h 0x41 (fun k y => .go (setS (vD k) (BitVec.ofInt 64 (vImm k)) k.th) y) y)

/-- SLANE. -/
def execSlane (n h : Nat) (s : State) : Host.Outcome State Fault Refusal :=
  onSys s (fun _ y => vecRow n h 0x42 (fun k y =>
    .go (setS (vD k) (BitVec.ofInt 64 (vLane (vReg k.th (vA k)) (nfld k.w 0 6)).toInt) k.th) y) y)

/-- BR. -/
def execBr (n h : Nat) (s : State) : Host.Outcome State Fault Refusal :=
  onSys s (fun _ y => vecRow n h 0x50 (fun k y => .jump (vImm k) y) y)

/-- BNZ. -/
def execBnz (n h : Nat) (s : State) : Host.Outcome State Fault Refusal :=
  onSys s (fun _ y => vecRow n h 0x51 (fun k y =>
    if sReg k.th (vA k) = 0 then .go k.th y else .jump (vImm k) y) y)

/-- BARRIER. -/
def execVBarrier (n h : Nat) (s : State) : Host.Outcome State Fault Refusal :=
  onSys s (fun _ y => vecRow n h 0x52 (fun k y => .go { k.th with status := .atBarrier } y) y)

/-- BARRIER_RELEASE: every thread of the run has reached a BARRIER (R210). -/
def execVBarrierRelease (n : Nat) (s : State) : Host.Outcome State Fault Refusal :=
  onSys s (fun _ y =>
    let r := runAt y n
    if isUp y = false ∨ r.threads = [] ∨ r.threads.all (fun t => t.status == .atBarrier) = false then y
    else setRun n { r with threads := r.threads.map (fun t => { t with status := .ready }) } y)

/-- END. -/
def execVEnd (n h : Nat) (s : State) : Host.Outcome State Fault Refusal :=
  onSys s (fun _ y => vecRow n h 0x53 (fun k y => .go { k.th with status := .ended } y) y)

end Sys2Proof.Machine
end

