-- ==== Sys2Proof/Machine/CmdVector.lean ====
section
/-! DEFINITION. VEC_LOAD, VEC_RUN and the reductions (R206 to R208, R214 to R218). -/

namespace Sys2Proof.Machine

open Sys2Proof

/-- The logical shuttles that a VEC_LOAD selects (R206). -/
def loadTargets (pk : Packet) : List Nat :=
  let m := pw pk 2 + pw pk 3 * 2 ^ 64
  ((List.range 128).filter (fun i => m.testBit i)).map (fun i => 128 * pf pk 0 32 5 + i)

/-- Store instructions in the program memory of one shuttle. -/
def putProgram (n : Nat) (ws : List Word64) (m : SMap Word64) : SMap Word64 :=
  ws.zipIdx.foldl (fun m p => mapSet 0 m (2048 * n + p.2) p.1) m

/-- VEC_LOAD (R206, R254, R613). -/
def execVecLoad (pk : Packet) (s : State) : Host.Outcome State Fault Refusal :=
  let len := pf pk 0 0 12
  let src := pw pk 1
  let targets := loadTargets pk
  let check := fun (p : Perm) (_ : Cmd) (y : Sys) => firstFail
    [(decide (17 < pf pk 0 32 5) || targets.any (badShuttle y), .paramRange),
     (len == 0 || decide (2048 < len), .paramRange),
     (fileClosed p [(src, 8 * len)], .debugClosed),
     (!aligned64 src || !inDram src (8 * len), .addrRange)]
  let ready := fun (_ : Cmd) (y : Sys) => targets.all (fun n => vecIdle y n && !mending y n) && !rangeHeld y src (8 * len)
  let effect := fun (c : Cmd) (y : Sys) =>
    match consume 8 src (8 * len) y with
    | some z => finish c.id .memUncorrectable [] z
    | none =>
      let b := readBytes y src (8 * len)
      let prog := targets.foldl (fun m n => putProgram n (words8 len b) m) y.vec.prog
      finish c.id .ok [BitVec.ofNat 64 (crc32c b)] { y with vec := { y.vec with prog := prog } }
  onSys s (fun p y => execCommand 0x0300 [bits [(32, 5), (0, 12)], allBits, allBits, allBits] (fun _ => false) ready (check p)
    effect pk y)
where
  /-- No VEC_RUN runs on the shuttle. -/
  vecIdle (y : Sys) (n : Nat) : Bool := (runAt y n).cmd == none

/-- A thread at its start (R207). -/
def newThread (args : List Word64) (entry h : Nat) : VThread :=
  { s := args ++ [BitVec.ofNat 64 h] ++ List.replicate 7 0, pc := entry }

/-- VEC_RUN (R203, R207, R208): the run starts. -/
def execVecRun (pk : Packet) (s : State) : Host.Outcome State Fault Refusal :=
  let n := pf pk 0 32 12
  let args := (List.range 8).map (fun i => BitVec.ofNat 64 (pw pk (i + 2)))
  let check := fun (_ : Cmd) (y : Sys) => firstFail [(badShuttle y n, .paramRange)]
  let ready := fun (c : Cmd) (y : Sys) => shuttleReady n c y && (runAt y n).cmd == none && !engineTaken c y
  let effect := fun (c : Cmd) (y : Sys) =>
    let ts := (List.range (pf pk 0 24 4 + 1)).map (newThread args (pf pk 0 0 11))
    setEng n {} (setRun n { cmd := some c.id, limit := pf pk 1 32 32, threads := ts } y)
  onSys s (fun _ y => execCommand 0x0301 ([bits [(32, 12), (24, 4), (0, 11)], bits [(32, 32)]] ++ List.replicate 8 allBits)
    (fun _ => false) ready check effect pk y)

/-! ### Reductions -/

/-- The fields that the reductions share (R214). -/
structure RedOp where
  bobbin : Bool
  die : Nat
  unit : Nat
  fmt : Option Fmt
  rows : Nat
  n : Nat
  src : Nat
  pitch : Nat
deriving DecidableEq, Repr

/-- The shared fields of a packet (R214). -/
def redOf (pk : Packet) : RedOp :=
  { bobbin := pf pk 0 56 2 == 1, die := pf pk 0 48 5, unit := pf pk 0 32 12, fmt := fmtOf (pf pk 0 24 8),
    rows := pf pk 1 32 32, n := pf pk 1 0 32, src := pw pk 2, pitch := pf pk 3 32 32 }

/-- Bits of word 0 that the reductions share. -/
def redBits : List (Nat × Nat) := [(56, 2), (48, 5), (32, 12), (24, 8)]

/-- Reserved codes of a reduction (R214). -/
def redEnum (pk : Packet) : Bool := badCode pk 0 56 2 [0, 1] || badCode pk 0 24 8 fmtCodes

/-- Engine numbers out of range (R175, R214). -/
def badRedUnit (y : Sys) (o : RedOp) : Bool :=
  if o.bobbin then decide (17 < o.die) || decide (63 < o.unit) else badShuttle y o.unit

/-- The format of a reduction. -/
def redFmt (o : RedOp) : Fmt := o.fmt.getD .fp32

/-- A range lies where a reduction may reach (R177). -/
def redRange (o : RedOp) (a n : Nat) : Bool := if o.bobbin then inDram a n else inStoreOrDram o.unit a n

/-- The field checks that the reductions share, with the least N: K for RED_TOPK; for RED_MAXMIN and RED_CENSUS, where K is
no field, R214 gives none and the model takes 1 (R214, R655, R657; DESIGN CHOICE; log 105). -/
def badRedFields (o : RedOp) (least : Nat) : Bool :=
  (!o.bobbin && o.die != 0) || o.rows == 0 || decide (2 ^ 24 < o.rows) || decide (o.n < least) || decide (2 ^ 28 < o.n) ||
  shortPitch o.pitch (rowBytes (redFmt o) o.n)

/-- The input address checks (R177, R178). -/
def badRedSrc (o : RedOp) : Bool :=
  !aligned64 o.src || o.pitch % 64 != 0 || !redRange o o.src (spanBytes o.rows o.pitch (rowBytes (redFmt o) o.n))

/-- A reduction over some ranges can start: no channel of theirs retrains, and its vector engine is free and takes no
higher lane first, or it runs on a bobbin engine (R203, R254, R271). -/
def redReady (o : RedOp) (ranges : List (Nat × Nat)) (c : Cmd) (y : Sys) : Bool :=
  !anyHeld y ranges &&
  (o.bobbin || (shuttleReady o.unit c y && (runAt y o.unit).cmd == none && !engineTaken c y))

/-- The source code of R265 for the engine of a reduction. -/
def redSource (o : RedOp) : Nat := if o.bobbin then 3 else 2

/-- The die whose part of a census slot takes the counts. -/
def redDie (o : RedOp) : Nat := if o.bobbin then o.die else o.unit / 128

/-- An element of a row: its code, its value and its position. -/
structure Ranked where
  code : Nat
  val : Dec
  pos : Nat
deriving DecidableEq, Repr

/-- The value of a stands below that of b, infinities included. -/
def decLt (a b : Dec) : Bool := match a.cls, b.cls with
  | .finite, .finite => scaledLt a.m a.e b.m b.e
  | .nan, _ => false
  | _, .nan => false
  | .negInf, .negInf => false
  | .negInf, _ => true
  | _, .negInf => false
  | .posInf, _ => false
  | _, .posInf => true

/-- a ranks before b or with it (R215). -/
def ranks (smallest : Bool) (a b : Ranked) : Bool :=
  let an := a.val.cls == Cls.nan
  let bn := b.val.cls == Cls.nan
  if an != bn then an
  else if an then decide (a.pos ≤ b.pos)
  else
    let first := if smallest then decLt a.val b.val else decLt b.val a.val
    let second := if smallest then decLt b.val a.val else decLt a.val b.val
    if first then true else if second then false else decide (a.pos ≤ b.pos)

/-- The codes of row r. -/
def rowCodes (y : Sys) (o : RedOp) (r : Nat) : List Nat :=
  let f := redFmt o
  unpackCodes (fmtWidth f) o.n (readBytes y (o.src + r * o.pitch) (rowBytes f o.n))

/-- Row r with positions POS_BASE + e, or those of the input (R215). -/
def rankedRow (y : Sys) (o : RedOp) (pos : Nat → Nat) (r : Nat) : List Ranked :=
  (rowCodes y o r).zipIdx.map (fun p => { code := p.1, val := decodeFmt (redFmt o) p.1 0, pos := pos p.2 })

/-- The byte ranges of the input rows. -/
def redRanges (o : RedOp) : List (Nat × Nat) := rowRanges o.src o.pitch o.rows (rowBytes (redFmt o) o.n)

/-- RED_TOPK (R214 to R216, R613). -/
def execRedTopk (pk : Packet) (s : State) : Host.Outcome State Fault Refusal :=
  let o := redOf pk
  let f := redFmt o
  let pairs := pf pk 0 17 1 == 1
  let k := pf pk 0 0 7
  let valPitch := pf pk 6 32 32
  let posPitch := pf pk 6 0 32
  let inPitch := pf pk 8 32 32
  let posIn := if pairs then rowRanges (pw pk 7) inPitch o.rows (4 * o.n) else []
  let check := fun (p : Perm) (_ : Cmd) (y : Sys) => firstFail
    [(badRedUnit y o, .paramRange),
     (!isScalarFmt f, .formatPair),
     (k == 0 || decide (64 < k) || badRedFields o k || (pairs && pf pk 3 0 32 != 0) ||
        (!pairs && (pw pk 7 != 0 || inPitch != 0)) || shortPitch valPitch (rowBytes f k) ||
        shortPitch posPitch (4 * k) || (pairs && shortPitch inPitch (4 * o.n)), .paramRange),
     (fileClosed p (redRanges o ++ posIn), .debugClosed),
     (badRedSrc o || !aligned64 (pw pk 4) || !aligned64 (pw pk 5) || valPitch % 64 != 0 || posPitch % 64 != 0 ||
        !redRange o (pw pk 4) (spanBytes o.rows valPitch (rowBytes f k)) ||
        !redRange o (pw pk 5) (spanBytes o.rows posPitch (4 * k)) ||
        (pairs && (!aligned64 (pw pk 7) || inPitch % 64 != 0 ||
          !redRange o (pw pk 7) (spanBytes o.rows inPitch (4 * o.n)))), .addrRange)]
  let effect := fun (c : Cmd) (y : Sys) =>
    let pos := fun (r e : Nat) =>
      if pairs then readNat y (pw pk 7 + r * inPitch + 4 * e) 4 else (pf pk 3 0 32 + e) % 2 ^ 32
    let rows := (List.range o.rows).map (fun r => rankedRow y o (pos r) r)
    let best := rows.map (fun row => (sortBy (ranks (pf pk 0 16 1 == 1)) row).take k)
    let write := fun (p : List Ranked × Nat) =>
      [(pw pk 4 + p.2 * valPitch, packCodes (fmtWidth f) (p.1.map (fun e => e.code))),
       (pw pk 5 + p.2 * posPitch, p.1.flatMap (fun e => leBytes 4 e.pos))]
    let writes := best.zipIdx.flatMap write
    let nans := (rows.flatten.filter (fun e => e.val.cls == Cls.nan)).length
    if writes.any (fun w => protectedHit y (backIsFace c) w.1 w.2.length) then finish c.id .stateFaceWrite [] y
    else match consumeAll (redSource o) y (redRanges o ++ posIn) with
      | some z => finish c.id .memUncorrectable [] z
      | none => finish c.id .ok [BitVec.ofNat 64 (satAt (umax 32) nans)] (writeAll c.id writes y)
  let layout := [bits (redBits ++ [(17, 1), (16, 1), (0, 7)]), allBits, allBits, allBits, allBits, allBits, allBits, allBits,
    bits [(32, 32)], 0]
  let outs := rowRanges (pw pk 4) valPitch o.rows (rowBytes f k) ++ rowRanges (pw pk 5) posPitch o.rows (4 * k)
  onSys s (fun p y => execCommand 0x0310 layout redEnum (redReady o (redRanges o ++ posIn ++ outs)) (check p) effect pk y)

/-- The 16-byte record of a row (R217). -/
def maxminRecord (row : List Ranked) : List Byte :=
  let mx := (sortBy (ranks false) row).headD { code := 0, val := {}, pos := 0 }
  let mn := (sortBy (ranks true) row).headD { code := 0, val := {}, pos := 0 }
  leBytes 4 mx.code ++ leBytes 4 mx.pos ++ leBytes 4 mn.code ++ leBytes 4 mn.pos

/-- RED_MAXMIN (R214, R215, R217, R613). R178 aligns the planes of elements and scales, and names neither OUT_ADDR here nor
the position planes of RED_TOPK; the model takes 64-byte alignment for them too (DESIGN CHOICE; log 107). -/
def execRedMaxmin (pk : Packet) (s : State) : Host.Outcome State Fault Refusal :=
  let o := redOf pk
  let out := pw pk 4
  let check := fun (p : Perm) (_ : Cmd) (y : Sys) => firstFail
    [(badRedUnit y o, .paramRange),
     (!isScalarFmt (redFmt o), .formatPair),
     (badRedFields o 1, .paramRange),
     (fileClosed p (redRanges o), .debugClosed),
     (badRedSrc o || !aligned64 out || !redRange o out (16 * o.rows), .addrRange)]
  let effect := fun (c : Cmd) (y : Sys) =>
    let rows := (List.range o.rows).map (fun r => rankedRow y o (fun e => (pf pk 3 0 32 + e) % 2 ^ 32) r)
    if protectedHit y (backIsFace c) out (16 * o.rows) then finish c.id .stateFaceWrite [] y
    else match consumeAll (redSource o) y (redRanges o) with
      | some z => finish c.id .memUncorrectable [] z
      | none => finish c.id .ok [] (writeBytes (some c.id) out (rows.flatMap maxminRecord) y)
  let ready := redReady o ((out, 16 * o.rows) :: redRanges o)
  onSys s (fun p y => execCommand 0x0311 [bits redBits, allBits, allBits, allBits, allBits] redEnum ready (check p)
    effect pk y)

/-- RED_CENSUS (R214, R218, R307, R613). -/
def execRedCensus (pk : Packet) (s : State) : Host.Outcome State Fault Refusal :=
  let o := redOf pk
  let slot := pf pk 0 0 12
  let check := fun (p : Perm) (_ : Cmd) (y : Sys) => firstFail
    [(badRedUnit y o, .paramRange),
     (!isScalarFmt (redFmt o), .formatPair),
     (badRedFields o 1 || slot == 0 || decide (0x3FF < slot), .paramRange),
     (fileClosed p (redRanges o), .debugClosed),
     (badRedSrc o, .addrRange)]
  let effect := fun (c : Cmd) (y : Sys) =>
    match consumeAll (redSource o) y (redRanges o) with
    | some z => finish c.id .memUncorrectable [] z
    | none =>
      let vs := (List.range o.rows).flatMap (fun r => (rowCodes y o r).map (fun e => decodeFmt (redFmt o) e 0))
      let zeros := (vs.filter (fun v => v.cls == Cls.finite && v.m == 0)).length
      let nonf := (vs.filter (fun v => v.cls != Cls.finite)).length
      let d : CensusDelta := { slot := slot, die := redDie o, elements := vs.length, zero := zeros, nonfinite := nonf,
                               sat := 0, vanished := 0, underflow := 0, exps := expsOf vs }
      let res := BitVec.ofNat 64 (satAt (umax 32) zeros + satAt (umax 32) nonf * 2 ^ 32)
      finish c.id .ok [res] (modCmd c.id (fun c => { c with census := [d] }) y)
  onSys s (fun p y => execCommand 0x0312 [bits (redBits ++ [(0, 12)]), allBits, allBits, bits [(32, 32)]] redEnum
    (redReady o (redRanges o)) (check p) effect pk y)

end Sys2Proof.Machine
end

