-- ==== Sys2Proof/Machine/Sha256.lean ====
section
/-! DEFINITION. SHA-256 as FIPS 180-4 gives it, which R583, R587 and R589 name. -/

namespace Sys2Proof.Machine

/-- The greatest r with r^k ≤ n that the next b bits below acc can reach: one bit at a time, the highest first. -/
def rootBits (k n : Nat) : Nat → Nat → Nat
  | 0, acc => acc
  | b + 1, acc => rootBits k n b (if (acc + 2 ^ b) ^ k ≤ n then acc + 2 ^ b else acc)

/-- The first 32 bits of the fraction of the k-th root of p, for a root below 8: how FIPS 180-4 defines its constants. -/
def rootFraction (k p : Nat) : Word32 := BitVec.ofNat 32 (rootBits k (p * 2 ^ (32 * k)) 35 0)

/-- The primes below n, rising. -/
def primesBelow (n : Nat) : List Nat :=
  (List.range n).filter (fun p => decide (2 ≤ p) && (List.range 18).all (fun d => decide (d < 2) || decide (p ≤ d) || p % d != 0))

/-- The 64 round constants: cube roots of the first 64 primes, the last of which is 311. -/
def shaKeys : List Word32 := (primesBelow 312).map (rootFraction 3)

/-- The eight working words; at the start, square roots of the first eight primes. -/
structure ShaState where
  a : Word32 := rootFraction 2 2
  b : Word32 := rootFraction 2 3
  c : Word32 := rootFraction 2 5
  d : Word32 := rootFraction 2 7
  e : Word32 := rootFraction 2 11
  f : Word32 := rootFraction 2 13
  g : Word32 := rootFraction 2 17
  h : Word32 := rootFraction 2 19
deriving DecidableEq, Repr

/-- One round with its constant plus message word. -/
def shaRound (s : ShaState) (kw : Word32) : ShaState :=
  let s1 := s.e.rotateRight 6 ^^^ s.e.rotateRight 11 ^^^ s.e.rotateRight 25
  let ch := (s.e &&& s.f) ^^^ (~~~s.e &&& s.g)
  let t1 := s.h + s1 + ch + kw
  let s0 := s.a.rotateRight 2 ^^^ s.a.rotateRight 13 ^^^ s.a.rotateRight 22
  let mj := (s.a &&& s.b) ^^^ (s.a &&& s.c) ^^^ (s.b &&& s.c)
  { a := t1 + (s0 + mj), b := s.a, c := s.b, d := s.c, e := s.d + t1, f := s.e, g := s.f, h := s.g }

/-- The message schedule, newest word first, extended word by word. -/
def shaExtend : Nat → List Word32 → List Word32
  | 0, w => w
  | n + 1, w =>
    let w2 := w.getD 1 0
    let w7 := w.getD 6 0
    let w15 := w.getD 14 0
    let w16 := w.getD 15 0
    let s0 := w15.rotateRight 7 ^^^ w15.rotateRight 18 ^^^ (w15 >>> (3 : Nat))
    let s1 := w2.rotateRight 17 ^^^ w2.rotateRight 19 ^^^ (w2 >>> (10 : Nat))
    shaExtend n ((w16 + s0 + w7 + s1) :: w)

/-- The sum of two states, word by word. -/
def shaAdd (x y : ShaState) : ShaState :=
  { a := x.a + y.a, b := x.b + y.b, c := x.c + y.c, d := x.d + y.d,
    e := x.e + y.e, f := x.f + y.f, g := x.g + y.g, h := x.h + y.h }

/-- A big-endian number of bytes. -/
def ofBe (l : List Byte) : Nat := ofLe l.reverse

/-- The n bytes of a number, most significant first. -/
def beBytes (n v : Nat) : List Byte := (leBytes n v).reverse

/-- One 64-byte block. -/
def shaBlock (s : ShaState) (blk : List Byte) : ShaState :=
  let w0 := (chunksOf 4 16 blk).map (fun c => BitVec.ofNat 32 (ofBe c))
  let w := (shaExtend 48 w0.reverse).reverse
  shaAdd s ((List.zipWith (· + ·) shaKeys w).foldl shaRound s)

/-- The padded message. -/
def shaPad (m : List Byte) : List Byte :=
  let n := m.length
  m ++ [0x80#8] ++ List.replicate ((119 - n % 64) % 64) 0x00#8 ++ beBytes 8 (8 * n)

/-- The digest in bytes, in the order FIPS 180-4 writes it. -/
def sha256 (m : List Byte) : List Byte :=
  let p := shaPad m
  let s := (chunksOf 64 (p.length / 64) p).foldl shaBlock {}
  beBytes 4 s.a.toNat ++ beBytes 4 s.b.toNat ++ beBytes 4 s.c.toNat ++ beBytes 4 s.d.toNat ++
  beBytes 4 s.e.toNat ++ beBytes 4 s.f.toNat ++ beBytes 4 s.g.toNat ++ beBytes 4 s.h.toNat

end Sys2Proof.Machine
end

