-- ==== Sys2Proof/Machine/Image.lean ====
section
/-! DEFINITION. Firmware images: slots, versions, verification, measurement and activation (R581 to R594, R612, R613,
R617). -/

namespace Sys2Proof.Machine

open Sys2Proof

/-! ### Slots (R581, R592, R593) -/

/-- Units of an image type, 1 to 5 (R592). -/
def unitsOf (t : Nat) : Nat := if t = 1 then 2 else if t = 4 then 8 else if t = 5 then 4608 else 18

/-- The largest body of an image type (R581). -/
def bodyMax (t : Nat) : Nat :=
  if t = 1 then 0x4000000 else if t = 2 then 0x1000000 else if t = 5 then 0x200000 else 0x400000

/-- What the MRAM of a headstock holds for itself. -/
def ownOf (y : Sys) (h : Nat) : HeadMram := mapGet {} y.own h

/-- Change what the MRAM of a headstock holds for itself. -/
def onOwn (h : Nat) (f : HeadMram → HeadMram) (y : Sys) : Sys := { y with own := mapMod {} y.own h f }

/-- The images of a type; those of HEADSTOCK as the active headstock holds them (R581). -/
def imagesOf (y : Sys) (t : Nat) : TypeImages := if t = 1 then (ownOf y y.hs.active).images else mapGet {} y.nv.images t

/-- The images that a unit of a type runs from: a headstock has its own (R581). -/
def imagesFor (y : Sys) (t u : Nat) : TypeImages := if t = 1 then (ownOf y u).images else imagesOf y t

/-- Change the images of a type; those of HEADSTOCK in the active headstock, and in the standby while it is READY
(R49, R581). -/
def onImages (t : Nat) (f : TypeImages → TypeImages) (y : Sys) : Sys :=
  let own := fun (h : Nat) => onOwn h (fun o => { o with images := f o.images })
  if t = 1 then (if y.hs.standby = .ready then own (1 - y.hs.active) (own y.hs.active y) else own y.hs.active y)
  else { y with nv := { y.nv with images := mapMod {} y.nv.images t f } }

/-- Slot 0 is A, slot 1 is B. -/
def slotAt (x : TypeImages) (k : Nat) : ImageSlot := if k = 0 then x.slotA else x.slotB

/-- Replace a slot. -/
def setSlot (k : Nat) (v : ImageSlot) (x : TypeImages) : TypeImages :=
  if k = 0 then { x with slotA := v } else { x with slotB := v }

/-- The alternate slot. -/
def altOf (x : TypeImages) : Nat := 1 - x.current

/-- Header and body of the image in a slot. -/
def slotBytes (t : Nat) (v : ImageSlot) : List Byte := if v.factory then Config.factoryImage t else v.bytes

/-- FW_VERSION of the image in a slot (R583). -/
def versionOf (t : Nat) (v : ImageSlot) : Nat := at8 (slotBytes t v) 12 4

/-- SVN of the image in a slot (R583). -/
def svnOf (t : Nat) (v : ImageSlot) : Nat := at8 (slotBytes t v) 16 2

/-- Key of a unit that runs the pending image of its type. -/
def unitKey (t u : Nat) : Nat := 8192 * t + u

/-- The unit runs its type's pending image (R592). -/
def runsPending (y : Sys) (t u : Nat) : Bool := y.sec.onPending.elem (unitKey t u)

/-- Units of a type that run its pending image (R615). -/
def pendingUnits (y : Sys) (t : Nat) : Nat := ((List.range (unitsOf t)).filter (runsPending y t)).length

/-- Every unit that has the image pending runs it (R593; log 58). -/
def allPending (y : Sys) (t : Nat) : Bool :=
  decide (0 < pendingUnits y t) && (List.range (unitsOf t)).all (fun u => !(imagesFor y t u).waiting || runsPending y t u)

/-- The slot that a unit runs (R592). -/
def unitSlot (y : Sys) (t u : Nat) : Nat :=
  let x := imagesFor y t u
  if runsPending y t u then altOf x else x.current

/-- The image that a unit runs. -/
def unitImage (y : Sys) (t u : Nat) : ImageSlot := slotAt (imagesFor y t u) (unitSlot y t u)

/-- FW_VERSION that a unit runs. -/
def unitVersion (y : Sys) (t u : Nat) : Nat := versionOf t (unitImage y t u)

/-- The version of the records of a type that an image keeps; the factory's image keeps those that the manual defines
(R21, R582, R606; log 116). -/
def recordVersionOf (v : ImageSlot) (t : Nat) : Nat := if v.factory then 0x10 else (Config.recordVersion v.bytes t).toNat

/-- The version of the records of a type in MRAM (R605). -/
def recordsAt (m : MramSt) (t : Nat) : Nat := mapGet 0x10 m.recVersion t

/-- An image starts on records whose major versions it knows: up to its own (R21, R606, R607; log 116). -/
def knowsRecords (v : ImageSlot) (m : MramSt) : Bool :=
  [1, 2, 3, 4, 5].all (fun t => decide (recordsAt m t / 16 ≤ recordVersionOf v t / 16))

/-- FW_VERSION of the pending image, or 0 (R615). -/
def pendingVersion (y : Sys) (t : Nat) : Nat :=
  let x := imagesOf y t
  if x.waiting then versionOf t (slotAt x (altOf x)) else 0

/-- The lowest and the highest FW_VERSION running of a type; a headstock that is ABSENT runs none (R615). -/
def runningVersions (y : Sys) (t : Nat) : Nat × Nat :=
  let x := imagesOf y t
  if t = 1 then
    let a := unitVersion y 1 y.hs.active
    let b := if y.hs.standby = .absent then a else unitVersion y 1 (1 - y.hs.active)
    (Nat.min a b, Nat.max a b)
  else
  let n := pendingUnits y t
  let c := versionOf t (slotAt x x.current)
  let p := versionOf t (slotAt x (altOf x))
  if n = 0 then (c, c) else (Nat.min c p, Nat.max c p)

/-- The type is mixed: some but not all of its units run the pending image (R593). -/
def mixed (y : Sys) (t : Nat) : Bool := decide (0 < pendingUnits y t)

/-- The floor of a type (R584). -/
def floorOf (p : Perm) (t : Nat) : Nat := mapGet 0 p.floors t

/-- Raise the floor of a type; it never falls (R584). -/
def raiseFloor (t svn : Nat) (p : Perm) : Perm := { p with floors := mapMod 0 p.floors t (fun v => Nat.max v svn) }

/-! ### Fuses (R585, R612, R613, R617) -/

/-- DEBUG_OFF (R613). -/
def debugOff (p : Perm) : Bool := decide (2 ≤ p.elements)

/-- The value of SEC.FUSE (R617). -/
def fuseReg (p : Perm) (y : Sys) : Nat :=
  0x10 * 2 ^ 56 + p.keyRevoked.toNat * 2 ^ 16 + b2n y.sec.armed * 2 ^ 8 + p.elements % 4 * 2 ^ 4 + b2n (debugOff p)

/-! ### Measurement (R587 to R589) -/

/-- A measurement register; 32 zero bytes until extended (R587). -/
def measOf (y : Sys) (h r : Nat) : List Byte :=
  let m := mapGet [] y.sec.meas (8 * h + r)
  if m = [] then List.replicate 32 0 else m

/-- The 64 bytes of a measurement event (R588). -/
def measEvent (reg kind typ version svn inst : Nat) (digest : List Byte) : List Byte :=
  leBytes 1 0x10 ++ leBytes 1 reg ++ leBytes 1 kind ++ leBytes 1 typ ++ leBytes 4 version ++ leBytes 2 svn ++
  leBytes 2 inst ++ leBytes 4 0 ++ digest ++ leBytes 16 0

/-- A logged event of MEAS_7 of a headstock. -/
def isSeven (h : Nat) (e : Nat × List Byte) : Bool := e.1 == h && at8 e.2 1 1 == 7

/-- Drop the first entry that satisfies a test. -/
def dropFirst {α : Type} (t : α → Bool) : List α → List α
  | [] => []
  | a :: r => if t a then r else a :: dropFirst t r

/-- Extend a measurement register of a headstock with an event and log it; the oldest of more than 1,024 events of
MEAS_7 leaves the log (R587, R588). -/
def extendMeas (h reg : Nat) (ev : List Byte) (y : Sys) : Sys :=
  let m := sha256 (measOf y h reg ++ ev)
  let log := y.sec.log ++ [(h, ev)]
  let full := decide (1024 < (log.filter (isSeven h)).length)
  let log := if full then dropFirst (isSeven h) log else log
  let lost := if full then mapMod 0 y.sec.lost h (fun v => v + 1) else y.sec.lost
  { y with sec := { y.sec with meas := mapSet [] y.sec.meas (8 * h + reg) m, log := log,
                               logged := mapMod 0 y.sec.logged h (fun v => v + 1), lost := lost } }

/-- SHA-256 of the image in a slot (R588). -/
def imageDigest (t : Nat) (v : ImageSlot) : List Byte := sha256 (slotBytes t v)

/-- Measure the image in a slot at boot into a register (R586, R588). -/
def measureImage (h reg t k : Nat) (y : Sys) : Sys :=
  let v := slotAt (imagesFor y t h) k
  extendMeas h reg (measEvent reg 2 t (versionOf t v) (svnOf t v) 0 (imageDigest t v)) y

/-- The FUSE event and record of a change of ELEMENTS (R589, R613). -/
def fuseChanged (p : Perm) (y : Sys) : Sys :=
  let y := extendMeas y.hs.active 7 (measEvent 7 5 0 0 0 (fuseReg p y % 2 ^ 16) (List.replicate 32 0)) y
  recordEvent 0 0x0052 0 (p.elements % 4) y

/-! ### Activation (R584, R589, R592 to R594) -/

/-- The FW_ACTIVATED record (R594). -/
def activatedRecord (t inst version : Nat) (fell : Bool) (y : Sys) : Sys :=
  recordEvent 0 0x0050 t (inst % 2 ^ 16 + version * 2 ^ 16 + b2n fell * 2 ^ 48) y

/-- Once every unit of a type runs the pending image, it becomes the current slot (R593). -/
def settleType (t : Nat) (y : Sys) : Sys :=
  if allPending y t then
    let turn := fun (x : TypeImages) => if x.waiting then { x with current := altOf x, waiting := false } else x
    let y := if t = 1 then { y with own := [0, 1].foldl (fun m h => mapMod {} m h (fun o => { o with images := turn o.images })) y.own }
      else onImages t turn y
    { y with sec := { y.sec with onPending := y.sec.onPending.filter (fun k => k / 8192 != t) } }
  else y

/-- The record of one activation: of a channel only with the last one, and of a headstock that an older image cannot
record once the new image is active (R594). -/
def recordActivation (t u version : Nat) (y : Sys) : Sys :=
  if t = 5 then (if allPending y 5 then activatedRecord 5 0xFFFF version false y else y)
  else if t = 1 && u != y.hs.active && !runsPending y 1 y.hs.active then
    { y with sec := { y.sec with owed := setAdd y.sec.owed u } }
  else activatedRecord t u version false y

/-- Activate the pending image of a type on a unit at its reset or retrain; measured when it takes place after boot
(R584, R589, R592 to R594). -/
def activateUnit (t u : Nat) (afterBoot : Bool) (x : Perm × Sys) : Perm × Sys :=
  let im := imagesFor x.2 t u
  if !im.waiting || runsPending x.2 t u then x
  else
    let v := slotAt im (altOf im)
    let y := { x.2 with sec := { x.2.sec with onPending := setAdd x.2.sec.onPending (unitKey t u) } }
    let y := if afterBoot then
        extendMeas y.hs.active 7 (measEvent 7 4 t (versionOf t v) (svnOf t v) (u % 2 ^ 16) (imageDigest t v)) y
      else y
    (raiseFloor t (svnOf t v) x.1, settleType t (recordActivation t u (versionOf t v) y))

/-- The last boot of a headstock (R618). -/
def bootOf (y : Sys) (h : Nat) : HsBoot := mapGet {} y.sec.boots h

/-- Change the last boot of a headstock. -/
def onBoot (h : Nat) (f : HsBoot → HsBoot) (y : Sys) : Sys := { y with sec := { y.sec with boots := mapMod {} y.sec.boots h f } }

/-- The standby leaves READY: from now on the active headstock writes its own MRAM alone (R49). -/
def partMram (y : Sys) : Sys := { y with copy := some (y.copy.getD y.nv) }

/-- A newly active headstock records the activations owed (R594, R603). -/
def payOwed (y : Sys) : Sys :=
  let y' := y.sec.owed.foldl (fun z u => activatedRecord 1 u (unitVersion z 1 u) false z) y
  { y' with sec := { y'.sec with owed := [] } }

end Sys2Proof.Machine
end

