-- ==== Sys2Proof/Machine/Steps.lean ====
section
/-! DEFINITION. Shared operations of steps and twins: digests, the step-digest log, the end of a prepare, flips of SEL,
content digests (R280, R281, R385 to R393, R411, R521 to R523, R525). -/

namespace Sys2Proof.Machine

open Sys2Proof

/-- The ACTIVE entries with their numbers, in ascending number. -/
def activeEntries (y : Sys) : List (Nat × Entry) := y.smap.entries.filter (fun p => p.2.state == .active)

/-- state_digest of R387 over entries and their digests. -/
def stateDigest (k : Word64) (l : List (Nat × Word64)) : Word64 :=
  l.foldl (fun sd p => fmix (fmix (sd ^^^ BitVec.ofNat 64 p.1) + p.2)) (fmix k)

/-- step_digest of R387. -/
def stepDigest (k : Word64) (n : Nat) (sd cd : Word64) : Word64 :=
  fmix (fmix (fmix (k ^^^ BitVec.ofNat 64 n) ^^^ sd) + cd)

/-- The content digest of n bytes of an entry from byte offset o, read at address a (R411, R525). -/
def contentDigest (y : Sys) (entry a o n : Nat) : Word64 :=
  (List.range (n / 4)).foldl (fun d i => d + mix (digestKey y) entry (o / 4 + i) (readNat y (a + 4 * i) 4)) 0

/-! ### The step-digest log (R521 to R523) -/

/-- Append an entry; the log keeps the last 4,096 (R521). -/
def logAppend (e : StepLog) (y : Sys) : Sys :=
  let l := y.nv.steplog ++ [{ e with seq := (y.nv.logseq + 1) % 2 ^ 32 }]
  { y with nv := { y.nv with steplog := l.drop (l.length - 4096), logseq := (y.nv.logseq + 1) % 2 ^ 32 } }

/-- Change the last entry of a list that satisfies a test. -/
def modLast {α : Type} (t : α → Bool) (f : α → α) (l : List α) : List α :=
  let rec go : List α → List α
    | [] => []
    | a :: r => if t a then f a :: r else a :: go r
  (go l.reverse).reverse

/-- Give an outcome and END_PICK to the newest entry of step n, where it has one (R523). -/
def endLog (n outcome : Nat) (y : Sys) : Sys :=
  let f := fun (e : StepLog) => { e with outcome := outcome, endPick := pickNow y }
  { y with nv := { y.nv with steplog := modLast (fun e => e.step == n) f y.nv.steplog } }

/-- Change the entry of the prepare in progress: the newest of its step (R386). -/
def onPrepLog (n : Nat) (f : StepLog → StepLog) (y : Sys) : Sys :=
  { y with nv := { y.nv with steplog := modLast (fun e => e.step == n) f y.nv.steplog } }

/-! ### The end of a prepare (R386, R388 to R390) -/

/-- The digest that the twins compare (R388). -/
def comparedDigest (m : TwinMode) (sd st : Word64) : Word64 := if m = .mirror then st else sd

/-- STEP_PREPARE completes, with the twin's message where one arrived (R386, R388, R390). -/
def endPrepare (msg : Option PrepareMsg) (y : Sys) : Sys :=
  match y.stp.prep with
  | none => y
  | some p =>
    let y := match msg with
      | none => y
      | some m =>
        let y := if m.aborted || m.dirty != 0 then setDirty 6 y else y
        if !m.aborted && comparedDigest y.stp.twinMode m.stateDigest m.stepDigest != comparedDigest y.stp.twinMode p.sd p.st then
          setDirty 5 y
        else y
    let dirty := y.stp.dirty
    let td := match msg with
      | none => 0
      | some m => if m.aborted then 0 else comparedDigest y.stp.twinMode m.stateDigest m.stepDigest
    let tdirty := match msg with
      | none => 0
      | some m => m.dirty
    let w0 := b2n msg.isSome * 2 ^ 16 + tdirty.toNat * 2 ^ 8 + dirty.toNat
    let clean := dirty == 0
    let log := fun (e : StepLog) => { e with outcome := if clean then 1 else 2, dirty := dirty, twinDirty := tdirty, twinDigest := td }
    let y := onPrepLog (openStep y) log y
    let y := { y with stp := { y.stp with prep := none, state := if clean then .prepared else .sealed } }
    finish p.cmd (if clean then .ok else .prepareDirty) [BitVec.ofNat 64 w0, p.sd, p.cd, p.st, td] y

/-- A prepare that waits for its twin ends once no twin-link port is UP (R388). -/
def prepareLinkLost (y : Sys) : Sys :=
  match y.stp.prep with
  | none => y
  | some p =>
    if p.digested && y.stp.twinMode != .none && (upTwin y).isEmpty then endPrepare none (setDirty 6 y) else y

/-! ### Flips (R280, R281, R315) -/

/-- Every yarn engine drops its copies of granules in the ranges of the ACTIVE entries (R281). -/
def dropFlipped (y : Sys) : Sys :=
  let es := activeEntries y
  dropAllCopies (fun c => es.any (fun p => overlap (c.granule * 64) 64 p.2.face p.2.length || overlap (c.granule * 64) 64 p.2.back p.2.length))
    false y

/-- Flip SEL of every ACTIVE entry and count the flips; BACK_WRITTEN and the digests are cleared (R280, R281, R315,
R392, R397). -/
def flipAll (y : Sys) : Sys :=
  let y := dropFlipped y
  let n := (activeEntries y).length
  let flip := fun (p : Nat × Entry) =>
    if p.2.state = .active then (p.1, { p.2 with sel := !p.2.sel, backWritten := false, digest := 0 }) else p
  { y with smap := { y.smap with entries := y.smap.entries.map flip, flips := (y.smap.flips + n) % 2 ^ 16 } }

/-- What belongs to the open step's buckets ends: records become those of the step that ended last, tags are free,
held packets of the step are dropped (R329, R338, R358, R361, R392, R400). -/
def endBuckets (y : Sys) : Sys :=
  let n := openStep y % 2 ^ 32
  { y with coll := { y.coll with recsLast := y.coll.recsOpen, recsOpen := [], tags := [], buckets := [],
                                 holding := y.coll.holding.filter (fun p => p.hdr.step != n) } }

/-- A shadow ends: its tags, records and buckets are discarded (R399, R409). -/
def endShadow (y : Sys) : Sys :=
  { y with stp := { y.stp with shadow := false },
           coll := { y.coll with shadowTags := [], recsShadow := [], buckets := y.coll.buckets.filter (fun b => !b.shadow) } }

end Sys2Proof.Machine
end

