-- ==== Sys2Proof/Machine/LinkEv.lean ====
section
/-! DEFINITION. Warp ports and what travels over them apart from buckets: training, UP, FAULT and DOWN, identity
frames, acknowledgement and retry, forwarding, writes of another device, LINK_RESET (R261, R277, R278, R319 to R324,
R368, R370, R371, R406, R604). -/

namespace Sys2Proof.Machine

open Sys2Proof

/-- The device is out of PERST_N and powered. -/
def powered (y : Sys) : Bool := y.pwr.phase != .held

/-- The device has the port, and the clocks of its link die run (R486, R638). -/
def portRuns (y : Sys) (w : Nat) : Bool := powered y && decide (w < 64) && !dieStopped y (18 + w / 8)

/-- The code of a twin mode (R405). -/
def twinCode : TwinMode → Nat
  | .none => 0
  | .mirror => 1
  | .split => 2

/-- The identity frame that a port sends (R323, R406). -/
def identityMsg (y : Sys) (w : Nat) : WarpMsg :=
  .identity y.coll.selfDev.toNat y.coll.selfValid w
    (if twinPorts.elem w && y.stp.twinValid && y.stp.twinMode != .none then some (y.stp.twinDev.toNat, twinCode y.stp.twinMode) else none)

/-- Send an identity frame on a port (R323). -/
def sendIdentity (w : Nat) (y : Sys) : Sys := onPort w (fun p => { p with out := p.out ++ [identityMsg y w] }) y

/-- Send identity frames on the ports of a list that are UP (R323). -/
def sendIdentities (ws : List Nat) (y : Sys) : Sys :=
  (ws.filter (portUp y)).foldl (fun z w => sendIdentity w z) y

/-- A twin-link port that is UP carries an identity from the twin that names this device with the same mode (R406). -/
def portAgrees (y : Sys) (w : Nat) : Bool :=
  let p := portAt y w
  twinPorts.elem w && p.state == 2 && p.peerValid && p.peerDevice == y.stp.twinDev.toNat &&
  p.peerTwin == some (y.coll.selfDev.toNat, twinCode y.stp.twinMode)

/-- Set AGREED where a port agrees (R406). -/
def setAgreed (y : Sys) : Sys :=
  if y.stp.twinValid && y.stp.twinMode != .none && twinPorts.any (portAgrees y) then
    { y with stp := { y.stp with agreed := true } }
  else y

/-- Take the values of an identity frame at a port (R323, R370). -/
def takeIdentity (w dev : Nat) (valid : Bool) (port : Nat) (twin : Option (Nat × Nat)) (y : Sys) : Sys :=
  onPort w (fun p =>
    if valid || p.peerValid then { p with peerDevice := dev % 1024, peerPort := port % 64, peerValid := true, peerTwin := twin }
    else { p with peerTwin := twin }) y

/-- IDENTITY_FRAME (R323, R370, R406). -/
def execIdentityFrame (port : Nat) (m : WarpMsg) (s : State) : Host.Outcome State Fault Refusal :=
  onSys s (fun _ y =>
    match m with
    | .identity dev valid pp twin =>
      let st := (portAt y port).state
      if portRuns y port && (st == 1 || st == 2) then setAgreed (takeIdentity port dev valid pp twin y) else y
    | _ => y)

/-- PORT_TRAINING (R320, R323, R370, R580): a peer answers at a port that is DOWN, or further lanes of a port in TRAINING
lock; lanes: those trained and locked. -/
def execPortTraining (l : PortLanes) (s : State) : Host.Outcome State Fault Refusal :=
  let port := l.port
  onSys s (fun _ y =>
    if portRuns y port && (portAt y port).state == 0 then
      let y := if (portAt y port).wasUp then onLife (fun l => { l with retrains := mapMod 0 l.retrains port inc32 }) y else y
      sendIdentity port (onPort port (fun p => { p with state := 1, wasUp := false, lanesOk := l.lanes }) y)
    else if portRuns y port && (portAt y port).state == 1 then
      onPort port (fun p => { p with lanesOk := p.lanesOk ||| l.lanes }) y
    else y)

/-- The ports of a link die. -/
def diePorts (l : Nat) : List Nat := (List.range 8).map (fun k => 8 * l + k)

/-- Bitmap of the ports of a link die that are UP (R368). -/
def upBitmap (y : Sys) (l : Nat) : Nat :=
  (List.range 8).foldl (fun n k => n + if portUp y (8 * l + k) then 2 ^ k else 0) 0

/-- The LINK_RESET in progress completes (R368). -/
def endLinkReset (y : Sys) : Sys :=
  match y.lnk.reset with
  | none => y
  | some r => finish r.cmd .ok [BitVec.ofNat 64 (upBitmap y r.die)] { y with lnk := { y.lnk with reset := none } }

/-- A LINK_RESET completes once the 8 ports of its die are UP (R368). -/
def linkResetUp (y : Sys) : Sys :=
  match y.lnk.reset with
  | none => y
  | some r => if (diePorts r.die).all (portUp y) then endLinkReset y else y

/-- PORT_UP (R320, R323, R368, R370): training and the first identity exchange end. -/
def execPortUp (port : Nat) (m : WarpMsg) (s : State) : Host.Outcome State Fault Refusal :=
  onSys s (fun _ y =>
    match m with
    | .identity dev valid pp twin =>
      if portRuns y port && (portAt y port).state == 1 then
        let up := fun (p : PortSt) => { p with state := 2, wasUp := true, lanesOk := 0xFF, txSeq := 0, rxSeq := 0, retry := [],
                                               lastEq := y.t.timeBase }
        linkResetUp (setAgreed (takeIdentity port dev valid pp twin (onPort port up y)))
      else y
    | _ => y)

/-- The copies to other devices that cross a port fail (R321). -/
def dropRemote (port : Nat) (y : Sys) : Sys :=
  let gone := y.mem.remote.filter (fun r => r.port == port)
  let y := { y with mem := { y.mem with remote := y.mem.remote.filter (fun r => r.port != port) } }
  gone.foldl (fun z r => finish r.cmd .linkDown [] z) y

/-- The checkpoint streams of a port fail (R528). -/
def dropStreams (port : Nat) (y : Sys) : Sys :=
  let gone := y.stp.ckpts.filter (fun c => c.port == port)
  let y := { y with stp := { y.stp with ckpts := y.stp.ckpts.filter (fun c => c.port != port) } }
  gone.foldl (fun z c => finish c.cmd .linkDown [] z) y

/-- A weave fails, and a prepare waits no longer, once the twin link has failed (R388, R411). -/
def twinLinkLost (y : Sys) : Sys :=
  let y := prepareLinkLost y
  match y.stp.weave with
  | none => y
  | some w => if upTwin y = [] then finish w.cmd .weaveFailed [] { y with stp := { y.stp with weave := none } } else y

/-- A port that stops: its packets stay undelivered (R321). -/
def stopPort (state : Nat) (p : PortSt) : PortSt :=
  { p with state := state, lanesOk := 0, undelivered := p.undelivered ++ p.retry.map (fun q => q.msg), retry := [] }

/-- A port enters FAULT (R321, R573, R580). -/
def faultPort (port : Nat) (y : Sys) : Sys :=
  let y := onPort port (fun p => { p with out := p.out ++ [.faultIndication] }) y
  let y := onPort port (fun p => { stopPort 3 p with faultEvent := true, wasUp := true }) y
  let y := onLife (fun l => { l with faults := mapMod 0 l.faults port inc32 }) y
  let reg := portStateReg y port % 2 ^ 32
  serveRequests (twinLinkLost (dropStreams port <| dropRemote port (recordEvent 2 0x0020 port reg (notice 4 port 0 reg 0 y))))

/-- A packet has failed 16 consecutive retries: its first sending was refused, and so was each retry (R320). -/
def retriesFailed (p : PortSt) : Bool := p.retry.any (fun q => decide (17 ≤ q.refused))

/-- PORT_FAULT (R320, R321). -/
def execPortFault (port : Nat) (c : FaultCause) (s : State) : Host.Outcome State Fault Refusal :=
  onSys s (fun _ y =>
    let st := (portAt y port).state
    let due := match c with
      | .retries => st == 2 && retriesFailed (portAt y port)
      | _ => st == 1 || st == 2
    if portRuns y port && due then faultPort port y else y)

/-- A port goes DOWN: its peer fields and lanes read zero (R320, R370). -/
def downPort (port : Nat) (y : Sys) : Sys :=
  let y := onPort port (fun p => { stopPort 0 p with peerDevice := 0, peerPort := 0, peerValid := false, peerTwin := none }) y
  serveRequests (twinLinkLost (dropStreams port (dropRemote port y)))

/-- PORT_DOWN (R320, R370): the port loses its peer; a port in FAULT stays there (R321). -/
def execPortDown (port : Nat) (s : State) : Host.Outcome State Fault Refusal :=
  onSys s (fun _ y =>
    let st := (portAt y port).state
    if portRuns y port && (st == 1 || st == 2) then downPort port y else y)

/-- LANE_EQUALIZATION (R604): the next lane, every 10 s. -/
def execLaneEqualization (port : Nat) (s : State) : Host.Outcome State Fault Refusal :=
  onSys s (fun _ y =>
    let p := portAt y port
    if portRuns y port && p.state == 2 && decide (p.lastEq + 10000000000 ≤ y.t.timeBase) then
      onPort port (fun p => { p with nextLane := (p.nextLane + 1) % 8, lastEq := y.t.timeBase }) y
    else y)

/-- What a link event does at a port that is UP; a packet that has failed 16 retries is not sent again (R319, R320, R371). -/
def linkEvent (e : LinkEvent) (p : PortSt) : PortSt :=
  match e with
  | .arrives seq good =>
    if good && seq == p.rxSeq + 1 then { p with rxSeq := seq, answers := p.answers ++ [(seq, true)] }
    else if good && decide (seq ≤ p.rxSeq) then { p with answers := p.answers ++ [(seq, true)] }
    else { p with answers := p.answers ++ [(seq, false)] }
  | .acked seq => { p with retry := p.retry.filter (fun q => q.seq != seq) }
  | .refused seq =>
    let more := p.retry.map (fun q => if q.seq = seq then { q with refused := q.refused + 1 } else q)
    match more.find? (fun q => q.seq == seq) with
    | none => p
    | some q =>
      if q.refused ≤ 16 then { p with retries := satAt (umax 16) (p.retries + 1), retry := more, out := p.out ++ [q.msg] }
      else { p with retry := more }
  | .corrected n => { p with corrCw := satAt (umax 32) (p.corrCw + n) }

/-- A checkpoint packet. -/
def isCkpt : WarpMsg → Bool
  | .ckpt _ => true
  | _ => false

/-- A checkpoint stream out completes once the sink has acknowledged every packet (R526, R533). -/
def outDone (port : Nat) (y : Sys) : Sys :=
  match y.stp.ckpts.find? (fun c => c.port == port && !c.inward) with
  | none => y
  | some c =>
    if (portAt y port).retry.any (fun q => isCkpt q.msg) then y
    else
      let y := { y with stp := { y.stp with ckpts := y.stp.ckpts.filter (fun d => d.cmd != c.cmd) } }
      finish c.cmd .ok [BitVec.ofNat 64 c.moved, c.digest, BitVec.ofNat 64 c.step] y

/-- LINK_PACKET (R319, R371, R526). -/
def execLinkPacket (port : Nat) (e : LinkEvent) (s : State) : Host.Outcome State Fault Refusal :=
  onSys s (fun _ y =>
    if portRuns y port && portUp y port then outDone port (onPort port (linkEvent e) y) else y)

/-! ### LINK_RESET (R368) -/

/-- A bucket command or a MEM_COPY is in progress, or a step is open (R368). -/
def collBusy (y : Sys) : Bool :=
  !(bucketsRunning y).isEmpty || y.cm.cmds.any (fun c => c.op == 0x0100 && c.phase == .running) || stepOpen y

/-- LINK_RESET (R321, R368, R592): the die's ports go DOWN and its pending image is activated. -/
def execLinkReset (pk : Packet) (s : State) : Host.Outcome State Fault Refusal :=
  let die := pf pk 0 0 3
  let check := fun (_ : Cmd) (y : Sys) => firstFail [(collBusy y, .collBusy)]
  let ready := fun (_ : Cmd) (y : Sys) => y.lnk.reset == none
  onAll s (fun p y =>
    match meetUnit 0x0430 [bits [(0, 3)]] (fun _ => false) ready check pk y with
    | (z, none) => (p, z)
    | (z, some c) =>
      let z := (diePorts die).foldl (fun z w => onPort w (fun p => { p with undelivered := [] }) (downPort w z)) z
      activateUnit 4 die true (p, { z with lnk := { z.lnk with reset := some { cmd := c.id, die := die, start := z.t.timeBase } } }))

/-- LINK_RESET_TIMEOUT (R368): 200 ms after the reset. -/
def execLinkResetTimeout (s : State) : Host.Outcome State Fault Refusal :=
  onSys s (fun _ y =>
    match y.lnk.reset with
    | none => y
    | some r => if r.start + 200000000 ≤ y.t.timeBase then endLinkReset y else y)

/-! ### Packets to other devices (R261, R277, R324) -/

/-- The device to which a packet is addressed, where it is addressed to one (R324). -/
def addressee : WarpMsg → Option Nat
  | .memWrite _ dst _ _ _ _ => some dst
  | .memDone _ dst _ _ => some dst
  | _ => none

/-- WARP_FORWARD (R324): a packet for a third device goes on by the forwarding table. -/
def execWarpForward (port : Nat) (m : WarpMsg) (s : State) : Host.Outcome State Fault Refusal :=
  onSys s (fun _ y =>
    match addressee m with
    | none => y
    | some dst =>
      if powered y && portTakes y port && !ownNumber y dst then
        match portTo y dst with
        | none => y
        | some w => sendWarp w m y
      else y)

/-- The bytes that fall into back ranges of ACTIVE entries, as a command's writes are noted (R278). -/
def backBytes (y : Sys) (a : Nat) (bs : List Byte) : SMap Byte :=
  bs.zipIdx.foldl (fun m p => match backOf y.smap.entries (a + p.2) with
    | none => m
    | some (k, o) => mapPut m (k * 2 ^ 40 + o) p.1) []

/-- REMOTE_WRITE (R254, R261, R275, R277, R278, R378): the write of another device's MEM_COPY, or its refusal on a face
range, and the report. -/
def execRemoteWrite (port : Nat) (m : WarpMsg) (s : State) : Host.Outcome State Fault Refusal :=
  onSys s (fun _ y =>
    match m with
    | .memWrite src dst cmd a free bytes =>
      if isUp y && portTakes y port && ownNumber y dst && inDram a bytes.length && !rangeHeld y a bytes.length then
        let hit := protectedHit y free a bytes.length
        let y := if hit then y else addDigests (backBytes y a bytes) (writeBytes none a bytes y)
        match portTo y src with
        | none => y
        | some w => sendWarp w (.memDone dst src cmd hit) y
      else y
    | _ => y)

/-- A report of one write reaches the copy that waits for it: the last one completes the copy, with STATE_FACE_WRITE where a
write was refused (R228, R261, R277). -/
def takeReport (r : RemoteCopy) (refused : Bool) (y : Sys) : Sys :=
  let others := y.mem.remote.filter (fun q => !(q.cmd == r.cmd && q.device == r.device))
  let r' := { r with left := r.left - 1, st := if refused then .stateFaceWrite else r.st }
  if r'.left = 0 then finish r.cmd r'.st [] { y with mem := { y.mem with remote := others } }
  else { y with mem := { y.mem with remote := others ++ [r'] } }

/-- WRITES_COMPLETE_REPORT (R261, R277). -/
def execWritesCompleteReport (port : Nat) (m : WarpMsg) (s : State) : Host.Outcome State Fault Refusal :=
  onSys s (fun _ y =>
    match m with
    | .memDone src dst cmd refused =>
      match y.mem.remote.find? (fun r => r.cmd == cmd && r.device == src) with
      | none => y
      | some r => if isUp y && portTakes y port && ownNumber y dst then takeReport r refused y else y
    | _ => y)

end Sys2Proof.Machine
end

