-- ==== Sys2Proof/Machine/CmdStep.lean ====
section
/-! DEFINITION. Step, twin, shadow and weave commands, and the events that end them (R376 to R417). -/

namespace Sys2Proof.Machine

open Sys2Proof

/-- A step command that is executed one at a time (R382). -/
def isStepOp (op : Nat) : Bool := decide (0x0600 ≤ op ∧ op ≤ 0x0612)

/-- No earlier step command is being executed (R382). -/
def stepTurn (c : Cmd) (y : Sys) : Bool :=
  !y.cm.cmds.any (fun d => d.id != c.id && isStepOp d.op && d.phase == .running)

/-- LAST_COMMIT as a result word, with bit 63 ALREADY (R384, R385, R393). -/
def commitWord (y : Sys) (already : Bool) : Word64 := BitVec.ofNat 64 (y.stp.lastCommit + b2n already * 2 ^ 63)

/-- Change the step state. -/
def onStep (f : StepSt → StepSt) (y : Sys) : Sys := { y with stp := f y.stp }

/-- A weave is in progress. -/
def weaving (y : Sys) : Bool := y.stp.weave.isSome

/-! ### STEP_BEGIN (R383, R384) -/

/-- STEP_BEGIN opens step n; the twin's messages for earlier steps have no use (R383, R384, R388, R396). -/
def openTheStep (n : Nat) (origin : Bool) (y : Sys) : Sys :=
  let y := if origin then onStep (fun t => { t with lastCommit := n - 1, undoValid := false }) y else y
  onStep (fun t => { t with state := .opened, abortPending := false, dirty := 0,
                            twinMsgs := t.twinMsgs.filter (fun m => decide (n ≤ m.step)) }) y

/-- The twin's messages for a step are dropped (R388). -/
def forgetMsgs (n : Nat) (t : StepSt) : StepSt := { t with twinMsgs := t.twinMsgs.filter (fun m => m.step != n) }

/-- The twin's message for a step, where one is held (R388). -/
def msgFor (y : Sys) (n : Nat) : Option PrepareMsg := y.stp.twinMsgs.find? (fun m => m.step == n)

/-- STEP_BEGIN (R383, R384, R396, R412). -/
def execStepBegin (pk : Packet) (s : State) : Host.Outcome State Fault Refusal :=
  let n := pk.step.toNat
  let origin := pf pk 0 0 1 == 1
  let check := fun (_ : Cmd) (y : Sys) => firstFail
    [(weaveSender y, .weaveBusy), (stepOpen y, .stepState), (!origin && n != openStep y, .stepMismatch),
     (!y.stp.agreed, .twinUnset), (weaving y, .weaveBusy)]
  let effect := fun (c : Cmd) (y : Sys) =>
    let y := openTheStep n origin y
    finish c.id .ok [commitWord y false] y
  onSys s (fun _ y => execCommand 0x0600 [bits [(0, 1)]] (fun _ => false) stepTurn check effect pk y)

/-! ### STEP_PREPARE (R386 to R390) -/

/-- Whole packets standing in each lane. -/
def standingCounts (y : Sys) : SMap Nat :=
  y.cr.lanes.foldl (fun m p => mapSet 0 m p.1 (standing p.2).length) []

/-- Mark the commands of the open step that were running or forwarded as covered by the prepare (R379, R386). -/
def coverStep (y : Sys) : Sys :=
  let n := openStep y
  let mark := fun (c : Cmd) => if mayBind c.op && c.pkt.step.toNat == n then { c with covered := true } else c
  { y with cm := { y.cm with cmds := y.cm.cmds.map mark } }

/-- STEP_PREPARE (R379, R383, R386). -/
def execStepPrepare (pk : Packet) (s : State) : Host.Outcome State Fault Refusal :=
  let check := fun (_ : Cmd) (y : Sys) => firstFail
    [(weaveSender y, .weaveBusy), (y.stp.state != .opened, .stepState), (pk.step.toNat != openStep y, .stepMismatch)]
  let effect := fun (c : Cmd) (y : Sys) =>
    onStep (fun t => { t with state := .sealed, sealLanes := standingCounts y, prep := some { cmd := c.id } }) (coverStep y)
  onSys s (fun _ y => execCommand 0x0601 [] (fun _ => false) stepTurn check effect pk y)

/-- A packet that stood in a creel at STEP_PREPARE and has not been read is bound to the open step (R386). -/
def sealedLeft (y : Sys) : Bool :=
  y.stp.sealLanes.any (fun p => ((standing (laneAt y p.1)).take p.2).any (fun ws =>
    let b := wordsBytes ws
    mayBind (at8 b 2 2) && at8 b 16 6 == openStep y))

/-- A command covered by the prepare has not completed (R386). -/
def coveredLeft (y : Sys) : Bool :=
  y.cm.cmds.any (fun c => c.covered && mayBind c.op && c.pkt.step.toNat == openStep y)

/-- PREPARE_DIGEST (R386 to R390, R521): the digests, the log entry, the prepare message. -/
def digestPrepare (p : Prep) (y : Sys) : Sys :=
  let n := openStep y
  let k := digestKey y
  let es := activeEntries y
  let sd := stateDigest k (es.map (fun e => (e.1, e.2.digest)))
  let cd := collectiveDigest y y.coll.recsOpen
  let st := stepDigest k n sd cd
  let y := if es.any (fun e => !e.2.backWritten) then setDirty 3 y else y
  let y := onStep (fun t => { t with prep := some { p with digested := true, sd := sd, cd := cd, st := st } }) y
  let entry : StepLog :=
    { outcome := if y.stp.dirty == 0 then 1 else 2, dirty := y.stp.dirty, seq := 0, step := n, mode := twinCode y.stp.twinMode,
      sd := sd, cd := cd, st := st, preparePick := pickNow y }
  let y := logAppend entry y
  if y.stp.twinMode = .none then endPrepare none y
  else if upTwin y = [] then endPrepare (msgFor y n) (setDirty 6 y)
  else
    let y := sendTwin 0 0 (.prepare { step := n, stateDigest := sd, stepDigest := st, dirty := y.stp.dirty, aborted := false }) y
    match msgFor y n with
    | none => y
    | some m => endPrepare (some m) y

/-- PREPARE_DIGEST (R386): once the step's commands have completed. -/
def execPrepareDigest (s : State) : Host.Outcome State Fault Refusal :=
  onSys s (fun _ y =>
    match y.stp.prep with
    | none => y
    | some p => if isUp y = false ∨ p.digested = true ∨ coveredLeft y = true ∨ sealedLeft y = true then y else digestPrepare p y)

/-- PREPARE_MESSAGE (R388, R406): compared where the prepare of its step waits, and held before, also for a step that this
device has not reached. The news that the twin aborted a step is dropped where this device has aborted it too. -/
def execPrepareMessage (port : Nat) (m : WarpMsg) (s : State) : Host.Outcome State Fault Refusal :=
  onSys s (fun _ y =>
    match m with
    | .prepare q =>
      if isUp y && portTakes y port && twinPorts.elem port && twinOn y && decide (openStep y ≤ q.step) &&
          !(q.aborted && q.step == openStep y && y.stp.abortPending) then
        let y := onStep (fun t => { forgetMsgs q.step t with twinMsgs := (forgetMsgs q.step t).twinMsgs ++ [q] }) y
        match y.stp.prep with
        | none => y
        | some p => if p.digested && q.step == openStep y then endPrepare (some q) y else y
      else y
    | _ => y)

/-! ### STEP_COMMIT and STEP_UNDO (R383, R385, R392 to R397) -/

/-- Every command other than the one that holds the creels has completed or waits to be accepted (R392). -/
def commitAlone (id : Nat) (y : Sys) : Bool := y.cm.cmds.all (fun c => c.id == id || c.phase == .forwarded)

/-- STEP_COMMIT flips the banks (R62, R280, R281, R315, R358, R392, R393, R523). -/
def commitNow (id : Nat) (y : Sys) : Sys :=
  let n := openStep y
  let flips := (activeEntries y).length
  let y := endLog n 3 (bucketsMoved (endBuckets (flipAll y)))
  let y := onStep (fun t => { forgetMsgs n t with state := .idle, lastCommit := n, undoValid := true, sealLanes := [] }) y
  finish id .ok [commitWord y false, BitVec.ofNat 64 (flips % 2 ^ 9)] y

/-- STEP_UNDO flips the banks back (R280, R281, R396, R397, R523). -/
def undoNow (id : Nat) (y : Sys) : Sys :=
  let n := y.stp.lastCommit
  let flips := (activeEntries y).length
  let y := endLog n 5 (flipAll y)
  let clear := fun (p : Nat × Entry) => (p.1, { p.2 with backWritten := false, digest := 0 })
  let y := { y with smap := { y.smap with entries := y.smap.entries.map clear } }
  let y := onStep (fun t => { forgetMsgs n t with lastCommit := n - 1, undoValid := false, abortPending := false }) y
  finish id .ok [commitWord y false, BitVec.ofNat 64 (flips % 2 ^ 9)] y

/-- The command that holds the creels takes effect once it is alone (R392). -/
def commitWhenAlone (y : Sys) : Sys :=
  match y.cm.commitWait with
  | none => y
  | some id => match findCmd y id with
    | none => y
    | some c =>
      if c.phase = .running ∧ commitAlone id y = true then (if c.op = 0x0602 then commitNow id y else undoNow id y) else y

/-- STEP_COMMIT (R383, R385, R392): from its acceptance the device reads no creel. -/
def execStepCommit (pk : Packet) (s : State) : Host.Outcome State Fault Refusal :=
  let n := pk.step.toNat
  let check := fun (_ : Cmd) (y : Sys) =>
    if weaveSender y then some (Status.weaveBusy, ([] : List Word64))
    else if y.stp.state = .idle ∧ n = y.stp.lastCommit then some (.ok, [commitWord y true, 0])
    else firstFail [(y.stp.state != .prepared || y.stp.shadow, .stepState), (n != openStep y, .stepMismatch)]
  let effect := fun (c : Cmd) (y : Sys) => { y with cm := { y.cm with commitWait := some c.id } }
  onSys s (fun _ y => execCommand 0x0602 [] (fun _ => false) stepTurn check effect pk y)

/-- COMMIT_START (R392). -/
def execCommitStart (s : State) : Host.Outcome State Fault Refusal :=
  onSys s (fun _ y => if isUp y then commitWhenAlone y else y)

/-- STEP_UNDO (R383, R396, R397). -/
def execStepUndo (pk : Packet) (s : State) : Host.Outcome State Fault Refusal :=
  let n := pk.step.toNat
  let check := fun (_ : Cmd) (y : Sys) => firstFail
    [(weaveSender y, .weaveBusy), (stepOpen y, .stepState), (n != y.stp.lastCommit, .stepMismatch),
     (!y.stp.undoValid, .undoUnavailable), (weaving y, .weaveBusy)]
  let effect := fun (c : Cmd) (y : Sys) => commitWhenAlone { y with cm := { y.cm with commitWait := some c.id } }
  onSys s (fun _ y => execCommand 0x0604 [] (fun _ => false) stepTurn check effect pk y)

/-! ### STEP_ABORT (R185, R242, R361, R385, R398 to R402) -/

/-- An abort ends the command: it is bound to step n and has not completed, also where its work is done and it waits for
its lane, or it is the step's prepare (R388, R398, R498). -/
def abortHits (n : Nat) (y : Sys) (c : Cmd) : Bool :=
  (mayBind c.op && c.pkt.step.toNat == n) ||
  (match y.stp.prep with
   | none => false
   | some p => p.cmd == c.id)

/-- The record that an aborted bucket command leaves: its own where its work is done, else one with EXP and RESENDS as it
reached them (R358, R367). -/
def abortRecord (y : Sys) (c : Cmd) : Option BucketRec :=
  if isDone c then c.record
  else (y.coll.buckets.find? (fun b => b.cmd == c.id && !b.finished)).map (fun b => recordOf b false false 0 0)

/-- The commands with the abort applied (R398, R402). -/
def abortCmds (n : Nat) (y : Sys) : Sys :=
  let stop := fun (c : Cmd) =>
    if abortHits n y c then
      { c with phase := .done .stepAborted [], exempt := true, wrote := [], partialPoison := false, record := abortRecord y c }
    else c
  { y with cm := { y.cm with cmds := y.cm.cmds.map stop } }

/-- The commands that ended their accumulation and are not bound to the step find the tile closed (R185). -/
def endersOf (step : Nat) (ids : List Nat) (p : TilePos) : List Nat :=
  let one := fun (st : TileStatus) (s : Nat) => match st with
    | .ending id => if s = step ∧ ids.elem id = false then [id] else []
    | _ => []
  one p.exact.status p.exact.step ++ p.narrow.flatMap (fun x => one x.status x.step)

/-- Close the accumulations of a step, and those whose ending command the abort ended (R185, R192, R399). -/
def abortTile (step : Nat) (ids : List Nat) (p : TilePos) : TilePos :=
  let dead := fun (st : TileStatus) (s : Nat) => match st with
    | .closed => false
    | .opened => s == step
    | .ending id => s == step || ids.elem id
  let ex := if dead p.exact.status p.exact.step then { p.exact with status := .closed } else p.exact
  { p with exact := ex, narrow := p.narrow.map (fun x => if dead x.status x.step then { x with status := .closed } else x) }

/-- Change every listed tile position, keeping the canonical form. -/
def mapTiles (f : TilePos → TilePos) (m : SMap TilePos) : SMap TilePos :=
  m.foldl (fun r p => mapSet {} r p.1 (f p.2)) []

/-- Accumulations at an abort (R185, R399). -/
def abortTiles (step : Nat) (ids : List Nat) (y : Sys) : Sys :=
  let waiting := y.acc.tiles.flatMap (fun p => endersOf step ids p.2)
  let y := { y with acc := { y.acc with tiles := mapTiles (abortTile step ids) y.acc.tiles } }
  waiting.foldl (fun z id => finish id .accNotOpen [] z) y

/-- Engines that ran a command of the step are free (R242, R398). -/
def abortEngines (ids : List Nat) (y : Sys) : Sys :=
  let hit := fun (o : Option Nat) => match o with
    | none => false
    | some id => ids.elem id
  let y := (y.yarn.filter (fun p => hit p.2.cmd)).foldl (fun z p => setYarn p.1 { yarnAt z p.1 with cmd := none, pos := 0 } z) y
  let y := (y.vec.runs.filter (fun p => hit p.2.cmd)).foldl (fun z p => setEng p.1 {} (setRun p.1 {} z)) y
  let y := (y.upd.runs.filter (fun p => hit p.2.cmd)).foldl (fun z p => setMicro p.1 {} z) y
  { y with mem := { y.mem with remote := y.mem.remote.filter (fun r => !ids.elem r.cmd) } }

/-- The back ranges of ACTIVE entries lose their content, their digests and BACK_WRITTEN (R399). -/
def abortBacks (y : Sys) : Sys :=
  let idx := y.free
  let back := fun (e : Entry) => if e.sel then e.face else e.back
  let mem := (activeEntries y).foldl (fun m p => forget (back p.2) p.2.length idx m) y.mem
  let clear := fun (p : Nat × Entry) => if p.2.state = .active then (p.1, { p.2 with backWritten := false, digest := 0 }) else p
  { y with mem := mem, free := idx + 1, smap := { y.smap with entries := y.smap.entries.map clear } }

/-- The twin hears of the abort (R388, R406). -/
def tellAbort (n : Nat) (y : Sys) : Sys :=
  if twinOn y then sendTwin 0 0 (.prepare { step := n, stateDigest := 0, stepDigest := 0, dirty := y.stp.dirty, aborted := true }) y
  else y

/-- What an abort of the open step does (R398 to R400, R523). -/
def abortNow (n : Nat) (y : Sys) : Sys :=
  let ids := (y.cm.cmds.filter (abortHits n y)).map (fun c => c.id)
  let y := abortEngines ids (abortTiles n ids (abortCmds n y))
  let y := tellAbort n (endLog n 4 (abortBacks (endShadow (bucketsMoved (endBuckets y)))))
  trimAll (onStep (fun t => { forgetMsgs n t with state := .idle, abortPending := true, prep := none, sealLanes := [] }) y)

/-- STEP_ABORT (R383, R385, R398, R399). -/
def execStepAbort (pk : Packet) (s : State) : Host.Outcome State Fault Refusal :=
  let n := pk.step.toNat
  let check := fun (_ : Cmd) (y : Sys) =>
    if weaveSender y then some (Status.weaveBusy, ([] : List Word64))
    else if y.stp.state = .idle ∧ y.stp.abortPending = true ∧ n = openStep y then some (.ok, [BitVec.ofNat 64 (2 ^ 63)])
    else firstFail [(!stepOpen y, .stepState), (n != openStep y, .stepMismatch)]
  let effect := fun (c : Cmd) (y : Sys) =>
    finish c.id .ok [BitVec.ofNat 64 ((y.cm.cmds.filter (abortHits n y)).length % 2 ^ 32)] (abortNow n y)
  onSys s (fun _ y => execCommand 0x0603 [] (fun _ => false) always check effect pk y)

/-! ### TWIN_SET (R405, R406) -/

/-- The mode of a code (R405). -/
def twinModeOf (k : Nat) : TwinMode := if k = 1 then .mirror else if k = 2 then .split else .none

/-- TWIN_SET (R405, R406, R412). It sends identity frames on the twin-link ports that are UP, so that the twin learns the
mode: R405 and R406 do not ask for it (DESIGN CHOICE; log 54). What the former twin sent and asked for is dropped. -/
def execTwinSet (pk : Packet) (s : State) : Host.Outcome State Fault Refusal :=
  let mode := twinModeOf (pf pk 0 24 2)
  let dev := pf pk 0 0 10
  let foreign := fun (y : Sys) => (upTwin y).any (fun w =>
    (portAt y w).peerDevice != dev || !twinPorts.elem (portAt y w).peerPort)
  let check := fun (_ : Cmd) (y : Sys) => firstFail
    [(weaveSender y, .weaveBusy), (stepOpen y, .stepState), (y.coll.routes.any (fun r => r.2.loaded), .routeBusy),
     (weaving y, .weaveBusy), (!y.coll.selfValid || (mode != .none && dev == y.coll.selfDev.toNat) || (mode == .none && dev != 0), .paramRange),
     (mode != .none && foreign y, .twinLink)]
  let effect := fun (c : Cmd) (y : Sys) =>
    let set := fun (t : StepSt) =>
      { t with twinValid := true, twinMode := mode, twinDev := BitVec.ofNat 10 dev, agreed := mode == .none, twinMsgs := [] }
    let y := { y with coll := { y.coll with requests := [] } }
    finish c.id .ok [] (setAgreed (sendIdentities twinPorts (onStep set y)))
  onSys s (fun _ y => execCommand 0x0610 [bits [(24, 2), (0, 10)]] (fun pk => badCode pk 0 24 2 [0, 1, 2]) stepTurn check effect pk y)

/-! ### Shadows (R407 to R409) -/

/-- SHADOW_BEGIN (R407, R412). -/
def execShadowBegin (pk : Packet) (s : State) : Host.Outcome State Fault Refusal :=
  let check := fun (_ : Cmd) (y : Sys) => firstFail
    [(weaveSender y, .weaveBusy), ((y.stp.state != .sealed && y.stp.state != .prepared) || y.stp.shadow, .stepState),
     (pk.step.toNat != openStep y, .stepMismatch)]
  let effect := fun (c : Cmd) (y : Sys) =>
    finish c.id .ok [] { y with stp := { y.stp with shadow := true }, coll := { y.coll with shadowTags := [], recsShadow := [] } }
  onSys s (fun _ y => execCommand 0x0611 [] (fun _ => false) stepTurn check effect pk y)

/-- A shadow command has not completed (R409). -/
def shadowLeft (y : Sys) : Bool := y.cm.cmds.any (fun d => d.shadow && d.phase != .forwarded)

/-- SHADOW_END (R254, R357, R367, R409, R412): it takes effect once every shadow command has completed. -/
def execShadowEnd (pk : Packet) (s : State) : Host.Outcome State Fault Refusal :=
  let dst := pw pk 0
  let max := pf pk 1 0 32
  let check := fun (_ : Cmd) (y : Sys) => firstFail
    [(weaveSender y, .weaveBusy), (pk.step.toNat != openStep y, .stepMismatch), (!y.stp.shadow, .stepState),
     (!aligned64 dst || !inDram dst (32 * (y.coll.recsShadow.take max).length), .addrRange)]
  let held := fun (y : Sys) => rangeHeld y dst (32 * (y.coll.recsShadow.take max).length)
  let ready := fun (c : Cmd) (y : Sys) => stepTurn c y && ((check c y).isSome || (!shadowLeft y && !held y))
  let effect := fun (c : Cmd) (y : Sys) => endShadow (writeRecords c y.coll.recsShadow dst max y)
  onSys s (fun _ y => execCommand 0x0612 [allBits, bits [(0, 32)]] (fun _ => false) ready check effect pk y)

/-! ### Weaves (R410 to R412) -/

/-- The checks that both weave commands share, in their order (R410). -/
def weaveChecks (y : Sys) : List (Bool × Status) :=
  [(stepOpen y, .stepState), (!twinOn y, .twinUnset), (weaving y, .weaveBusy)]

/-- A CKPT_STREAM other than CANCEL has been accepted and has not completed (R527). -/
def streamLeft (y : Sys) : Bool := y.cm.cmds.any (fun d => d.op == 0x0943 && pf d.pkt 0 56 2 != 2 && d.phase != .forwarded)

/-- A weave command starts once no checkpoint stream runs (R410, R412, R527). -/
def weaveTurn (c : Cmd) (y : Sys) : Bool := stepTurn c y && !streamLeft y

/-- The results of a weave; the weave digest takes the entries in ascending number (R387, R412). -/
def weaveResults (y : Sys) (w : Weave) (receiver : Bool) : List Word64 :=
  let ds := sortBy (fun a b => decide (a.1 ≤ b.1)) w.digests
  [BitVec.ofNat 64 (ds.length % 2 ^ 9), BitVec.ofNat 64 w.moved, stateDigest (digestKey y) ds] ++
  (if receiver then [BitVec.ofNat 64 w.last] else [])

/-- Send a weave packet: all of them take one port of the twin link, which R322 leaves to the device. -/
def sendWeave (m : WarpMsg) (y : Sys) : Sys := sendTwin 0 0 m y

/-- Send the face content of an entry in pieces of at most 4,096 bytes. -/
def sendFace (e : Nat) (x : Entry) : Nat → Nat → Sys → Sys
  | 0, _, y => y
  | fuel + 1, o, y =>
    if x.length ≤ o then y
    else
      let n := Nat.min 4096 (x.length - o)
      sendFace e x fuel (o + n) (sendWeave (.weaveData e o (readBytes y (x.face + o) n)) y)

/-- Send an entry and its content digest (R411). -/
def sendEntry (y : Sys) (p : Nat × Entry) : Sys :=
  let d := contentDigest y p.1 p.2.face 0 p.2.length
  sendWeave (.weaveDigest p.1 d) (sendFace p.1 p.2 (cdiv p.2.length 4096) 0 y)

/-- The face ranges of the ACTIVE entries. -/
def faceRanges (y : Sys) : List (Nat × Nat) := (activeEntries y).map (fun p => (p.2.face, p.2.length))

/-- The sender's part of a weave; without a twin-link port that is UP it fails (R228, R411). -/
def weaveOut (c : Cmd) (y : Sys) : Sys :=
  let es := activeEntries y
  let start := WarpMsg.weaveStart y.stp.lastCommit
    (es.map (fun p => { entry := p.1, kind := p.2.kind, face := p.2.face, back := p.2.back, length := p.2.length }))
  if upTwin y = [] then finish c.id .weaveFailed [] y
  else match consumeAll 5 y (faceRanges y) with
  | some z => finish c.id .memUncorrectable [] (sendWeave (.weaveResult false) (sendWeave start z))
  | none =>
    let w : Weave :=
      { cmd := c.id, sender := true, last := y.stp.lastCommit, entries := es.map (fun p => p.1),
        digests := es.map (fun p => (p.1, contentDigest y p.1 p.2.face 0 p.2.length)),
        moved := es.foldl (fun n p => n + p.2.length) 0 }
    es.foldl sendEntry (sendWeave start (onStep (fun t => { t with weave := some w }) y))

/-- WEAVE_SEND (R254, R410, R411). -/
def execWeaveSend (pk : Packet) (s : State) : Host.Outcome State Fault Refusal :=
  let ready := fun (c : Cmd) (y : Sys) => weaveTurn c y && !anyHeld y (faceRanges y)
  onSys s (fun _ y => execCommand 0x0620 [] (fun _ => false) ready (fun _ y => firstFail (weaveChecks y)) weaveOut pk y)

/-- WEAVE_RECV (R396, R410, R411). -/
def execWeaveRecv (pk : Packet) (s : State) : Host.Outcome State Fault Refusal :=
  let check := fun (_ : Cmd) (y : Sys) =>
    firstFail (weaveChecks y ++ [(y.smap.entries.any (fun p => p.2.state != .free), .stateMap)])
  let effect := fun (c : Cmd) (y : Sys) =>
    let y := onStep (fun t => { t with undoValid := false }) y
    if upTwin y = [] then finish c.id .weaveFailed [] y
    else onStep (fun t => { t with weave := some { cmd := c.id, sender := false } }) y
  onSys s (fun _ y => execCommand 0x0621 [] (fun _ => false) weaveTurn check effect pk y)

/-- Keep the weave in progress. -/
def setWeave (w : Weave) (y : Sys) : Sys := onStep (fun t => { t with weave := some w }) y

/-- The weave ends with a status (R411, R412). -/
def endWeave (w : Weave) (st : Status) (y : Sys) : Sys :=
  finish w.cmd st (if st = .ok then weaveResults y w (!w.sender) else []) (onStep (fun t => { t with weave := none }) y)

/-- The receiver makes every entry that it loaded ACTIVE once every digest matches (R411). -/
def tryWeave (w : Weave) (y : Sys) : Sys :=
  if w.started = true ∧ w.digests.length = w.entries.length then
    let act := fun (z : Sys) (k : Nat) => if (entryAt z k).state = .loading then setEntry k { entryAt z k with state := .active } z else z
    let y := onStep (fun t => { t with lastCommit := w.last, undoValid := false }) (w.entries.foldl act y)
    endWeave w .ok (sendWeave (.weaveResult true) y)
  else setWeave w y

/-- The receiver fails the weave: both commands end with WEAVE_FAILED (R411). -/
def failWeave (w : Weave) (y : Sys) : Sys := endWeave w .weaveFailed (sendWeave (.weaveResult false) y)

/-- The content of an entry is complete and its digest announced: they match, or the weave fails (R411). -/
def checkEntry (w : Weave) (e : Nat) (y : Sys) : Sys :=
  let x := entryAt y e
  match w.announced.find? (fun q => q.1 == e) with
  | none => setWeave w y
  | some q =>
    if mapGet 0 w.got e < x.length then setWeave w y
    else if x.state = .loading ∧ contentDigest y e x.face 0 x.length = q.2 then tryWeave { w with digests := w.digests ++ [q] } y
    else failWeave w y

/-- The receiver takes content or a digest of an entry (R411). -/
def weaveEntry (w : Weave) (m : WarpMsg) (y : Sys) : Sys :=
  match m with
  | .weaveData e o bs =>
    let x := entryAt y e
    if w.entries.elem e && x.state == .loading && decide (o + bs.length ≤ x.length) then
      checkEntry { w with moved := w.moved + bs.length, got := mapSet 0 w.got e (mapGet 0 w.got e + bs.length) } e
        (writeBytes none (x.face + o) bs y)
    else y
  | .weaveDigest e d =>
    if w.entries.elem e = false ∨ w.announced.any (fun q => q.1 == e) = true then y
    else checkEntry { w with announced := w.announced ++ [(e, d)] } e y
  | _ => y

/-- Packets that came before the announcement are taken, as long as the weave lasts. -/
def weaveEarly : List WarpMsg → Sys → Sys
  | [], y => y
  | m :: l, y => match y.stp.weave with
    | none => y
    | some w => weaveEarly l (weaveEntry w m y)

/-- Load the announced entries as LOADING with SEL 0; none where one of them breaks R274 (R274, R411). -/
def loadAnnounced : List WeaveEntry → Sys → Option Sys
  | [], y => some y
  | e :: l, y =>
    if 255 < e.entry ∨ (entryAt y e.entry).state ≠ .free ∨ badEntryRanges y e.face e.back e.length = true then none
    else loadAnnounced l
      (setEntry e.entry { state := .loading, face := e.face, back := e.back, length := e.length, kind := e.kind % 16 } y)

/-- The receiver takes a weave packet: the announcement of the entries first, whatever the order of arrival. An announcement
that no state map under R274 could make changes nothing: no twin sends it (log 112) (R411). -/
def weaveIn (w : Weave) (m : WarpMsg) (y : Sys) : Sys :=
  match m with
  | .weaveStart last es =>
    if w.started then y
    else match loadAnnounced es y with
      | none => y
      | some z =>
        weaveEarly w.early
          (tryWeave { w with last := last % 2 ^ 48, entries := es.map (fun e => e.entry), started := true, early := [] } z)
  | .weaveResult _ => endWeave w .weaveFailed y
  | m => if w.started then weaveEntry w m y else setWeave { w with early := w.early ++ [m] } y

/-- A weave packet writes to a retraining channel (R254). -/
def weaveHeld (y : Sys) : WarpMsg → Bool
  | .weaveData e o bs => rangeHeld y ((entryAt y e).face + o) bs.length
  | _ => false

/-- WEAVE_PACKET (R254, R406, R411): the receiver takes content, the sender the outcome. -/
def execWeavePacket (port : Nat) (m : WarpMsg) (s : State) : Host.Outcome State Fault Refusal :=
  onSys s (fun _ y =>
    match y.stp.weave with
    | none => y
    | some w =>
      if isUp y && portTakes y port && twinPorts.elem port && twinOn y && !weaveHeld y m then
        match w.sender, m with
        | false, m => weaveIn w m y
        | true, .weaveResult ok => endWeave w (if ok then .ok else .weaveFailed) y
        | true, _ => y
      else y)

end Sys2Proof.Machine
end

