-- ==== Sys2Proof/Machine/Counters.lean ====
section
/-! DEFINITION. What counter sources count, and the samples of counter sets (R541 to R551). -/

namespace Sys2Proof.Machine

open Sys2Proof

/-- MASK, CLASS and INSTANCE of a selection (R548). -/
def selOf (w : Word64) : Nat × Nat × Nat := (fld w 32 8, fld w 24 8, fld w 0 16)

/-- A set bit of a selection's mask (R548). -/
def selBits (w : Word64) : List Nat := (List.range 7).filter (fun k => (selOf w).1.testBit k)

/-- Values in a record (R548). -/
def valueCount (sels : List Word64) : Nat := (sels.flatMap selBits).length

/-- Bytes of a record (R550). -/
def recBytes (sels : List Word64) : Nat := 64 * cdiv (32 + 8 * valueCount sels) 64

/-- The sources of a list of selections, each once. -/
def sourcesOf (sels : List Word64) : List (Nat × Nat) := dedup (sels.map (fun w => (selOf w).2))

/-- The die that holds a source: loom die d, link die 18 + L or headstock 26 + h; none for a bridge between two dies, whose
end R547 does not name (R547). -/
def counterDie (src : Nat × Nat) : Option Nat :=
  if src.1 ≤ 4 then some (src.2 / 128)
  else match src.1 with
    | 5 => some (src.2 / 64)
    | 6 => some src.2
    | 7 => some (src.2 / 256)
    | 0xA => some (18 + src.2 / 16)
    | 0xB => some (26 + src.2)
    | _ => none

/-- The time base up to which the clock of a source has run: the sample that tripped a die is its last (R544, R638). -/
def clockEnd (y : Sys) (src : Nat × Nat) : Nat := match counterDie src with
  | none => y.t.timeBase
  | some d => if dieStopped y d then mapGet 0 y.pwr.lastSample d else y.t.timeBase

/-- The sources of classes 1 to 6 that a command gives work, a die standing for its bobbin engines (R547). -/
def workOf (c : Cmd) : List Nat :=
  let u := traceUnitOf c.op c.pkt
  let n := pf c.pkt 0 32 12
  let bobbins := [0x0100, 0x0101, 0x0500, 0x0510, 0x0511, 0x0512].elem c.op || (decide (0x0310 ≤ c.op ∧ c.op ≤ 0x0312) && pf c.pkt 0 56 2 == 1)
  let lanes := c.op == 0x0301 || (decide (0x0310 ≤ c.op ∧ c.op ≤ 0x0312) && pf c.pkt 0 56 2 == 0)
  (if c.op = 0x0201 then [ctrKey 1 n] else []) ++ (if lanes then [ctrKey 2 n] else []) ++
  (if c.op = 0x0202 ∨ c.op = 0x0203 ∨ c.op = 0x0205 then [ctrKey 3 n] else []) ++
  (if c.op = 0x0110 ∨ c.op = 0x0111 then [ctrKey 4 n] else []) ++ (if bobbins then [ctrKey 5 u] else []) ++
  (if c.op = 0x0410 then [ctrKey 5 (pf c.pkt 0 32 5)] else []) ++ (if u < 18 then [ctrKey 6 u] else [])

/-- The key under which the work of a source is noted. -/
def workKey (src : Nat × Nat) : Nat := if src.1 = 5 then ctrKey 5 (src.2 / 64) else ctrKey src.1 src.2

/-- A completed command leaves its work noted until the counters of its sources are read (R544, R547). -/
def noteWork (c : Cmd) (y : Sys) : Sys := { y with obs := { y.obs with worked := (workOf c).foldl setAdd y.obs.worked } }

/-- The source may have held work since its counters were read: a command that gives it work has completed since or is
accepted; bridges, channels, ports and headstocks also work for no command (R544, R547). -/
def mayHaveWorked (y : Sys) (src : Nat × Nat) : Bool :=
  decide (7 ≤ src.1) || y.obs.worked.elem (workKey src) ||
  y.cm.cmds.any (fun c => isAccepted c && (workOf c).elem (workKey src))

/-- Cycles that a source has counted since it was last read: free values, ELAPSED at most 1.05 to the nanosecond while its
clock ran, BUSY at most ELAPSED and none where it held no work, STALL at most BUSY (R486, R544; log 1). -/
def passCycles (src : Nat × Nat) (y : Sys) : Sys :=
  let a := freshWord y
  let b := freshWord a.2
  let c := freshWord b.2
  let cap := cdiv ((clockEnd y src - (mapGet ({} : Counters) y.obs.ctr (ctrKey src.1 src.2)).since) * 21) 20
  let e := a.1.toNat % (cap + 1)
  let n := if mayHaveWorked y src then b.1.toNat % (e + 1) else 0
  let s := c.1.toNat % (n + 1)
  let y := onCtr src.1 src.2 (fun x => { x with stall := wrap64 (x.stall + s), busy := wrap64 (x.busy + n),
                                                elapsed := wrap64 (x.elapsed + e), since := y.t.timeBase }) c.2
  { y with obs := { y.obs with worked := setDel y.obs.worked (workKey src) } }

/-- The counter that a mask bit selects (R548). -/
def ctrValue (x : Counters) (k : Nat) : Nat :=
  match k with
  | 0 => x.busy
  | 1 => x.stall
  | 2 => x.elapsed
  | 3 => x.used
  | 4 => x.late
  | 5 => x.wasted
  | _ => x.killed

/-- The values of a record (R546, R548). -/
def ctrValues (y : Sys) (sels : List Word64) : List Nat :=
  sels.flatMap (fun w => (selBits w).map (fun k => ctrValue (mapGet {} y.obs.ctr (ctrKey (selOf w).2.1 (selOf w).2.2)) k))

/-- Read the counters of a list of selections (R549). -/
def sampleNow (sels : List Word64) (y : Sys) : List Nat × Sys :=
  let y := (sourcesOf sels).foldl (fun z s => passCycles s z) y
  (ctrValues y sels, y)

/-- A multiple of k lies in (q, p] (R494, R549). -/
def multiples (k q p : Nat) : Nat := if k = 0 then 0 else p / k - q / k

/-- A counter set. -/
def ctrSet (y : Sys) (k : Nat) : CtrSet := mapGet {} y.obs.sets k

/-- Replace a counter set. -/
def setCtrSet (k : Nat) (x : CtrSet) (y : Sys) : Sys := { y with obs := { y.obs with sets := mapSet {} y.obs.sets k x } }

/-- The sample of a set that falls due at an advance from q to p applied at tb, its counters read then; further multiples
are skipped (R549, R550). -/
def sampleDue (q p tb k : Nat) (y : Sys) : Sys :=
  let x := ctrSet y k
  let n := multiples x.interval q p
  if x.running = false ∨ n = 0 then y
  else
    let r := sampleNow x.sels y
    let d : CtrDue := { pick := p, tb := tb, skipped := n - 1, seq := (x.taken + 1) % 2 ^ 32,
                        addr := x.ring + recBytes x.sels * (x.taken % 2 ^ x.ringLog2), size := recBytes x.sels, vals := r.1 }
    setCtrSet k { x with taken := (x.taken + 1) % 2 ^ 32, due := x.due ++ [d] } r.2

/-- Bytes that fill a record's last granule, which R550 leaves open (log 1). -/
def padding : Nat → Sys → List Byte × Sys
  | 0, y => ([], y)
  | n + 1, y =>
    let r := freshWord y
    let m := padding n r.2
    (leBytes 8 r.1.toNat ++ m.1, m.2)

/-- The bytes of a sample record (R550). -/
def sampleBytes (set seq : Nat) (manual : Bool) (pick skipped tb size : Nat) (vals : List Nat) (y : Sys) : List Byte × Sys :=
  let pad := padding ((size - 32 - 8 * vals.length) / 8) y
  let head := leBytes 1 0x10 ++ leBytes 1 (set + b2n manual * 2 ^ 7) ++ leBytes 2 vals.length ++ leBytes 4 seq ++ leBytes 6 pick ++
    leBytes 2 (satAt (umax 16) skipped) ++ leBytes 8 tb ++ leBytes 8 0
  (head ++ vals.flatMap (leBytes 8) ++ pad.1, pad.2)

end Sys2Proof.Machine
end

