-- ==== Sys2Proof/Machine/CmdGeneral.lean ====
section
/-! DEFINITION. NOP, FENCE, PICK_SET and TIME_READ, and what they share with the reading of creels: the cover of fences
and the advances that are scheduled (R479 to R481, R491 to R493, R502, R503). -/

namespace Sys2Proof.Machine

open Sys2Proof

/-- NOP (R456). -/
def execNop (pk : Packet) (s : State) : Host.Outcome State Fault Refusal :=
  onSys s (fun _ y => execCommand 0x0000 [] (fun _ => false) always noCheck (fun c y => finish c.id .ok [] y) pk y)

/-! ### FENCE (R502, R503) -/

/-- The cover of a FENCE is empty: every covered command has completed and no covered packet stands unread. -/
def coverEmpty (c : Cmd) : Bool := c.cover.isEmpty && c.coverLanes.isEmpty

/-- A CKPT_STREAM CANCEL, which waits for the reply of the stream it cancelled (R528). -/
def isCancel (c : Cmd) : Bool := c.op == 0x0943 && pf c.pkt 0 56 2 == 2

/-- Every running FENCE or CANCEL whose cover is empty completes its work (R503, R528). -/
def settleFences (y : Sys) : Sys :=
  (y.cm.cmds.filter (fun c => (c.op == 1 || isCancel c) && c.phase == .running && coverEmpty c)).foldl
    (fun z c => finish c.id .ok (if c.op = 1 then [BitVec.ofNat 64 (c.coverCount % 2 ^ 32)] else []) z) y

/-- A command that completed leaves every cover (R503). -/
def uncover (id : Nat) (y : Sys) : Sys :=
  settleFences { y with cm := { y.cm with cmds := y.cm.cmds.map (fun c => { c with cover := c.cover.filter (fun i => i != id) }) } }

/-- Packets discarded unread leave every cover, and no longer stand sealed (R503). -/
def uncoverLanes (lanes : Nat → Bool) (y : Sys) : Sys :=
  let drop := fun (c : Cmd) => { c with coverLanes := c.coverLanes.filter (fun p => !lanes p.1) }
  settleFences { y with cm := { y.cm with cmds := y.cm.cmds.map drop },
                        stp := { y.stp with sealLanes := y.stp.sealLanes.filter (fun p => !lanes p.1) } }

/-- A packet read from lane k becomes command id: in each cover that counts it, the command takes its place (R503). -/
def coverRead (k id : Nat) (y : Sys) : Sys :=
  let step := fun (c : Cmd) =>
    let n := mapGet 0 c.coverLanes k
    if n = 0 ∨ c.id = id then c else { c with coverLanes := mapSet 0 c.coverLanes k (n - 1), cover := c.cover ++ [id] }
  { y with cm := { y.cm with cmds := y.cm.cmds.map step } }

/-- FENCE names a creel or lanes that it may not (R502). -/
def badFence (pk : Packet) : Bool :=
  let scope := pf pk 0 16 2
  let mask := pf pk 0 8 8
  let creel := pf pk 0 0 8
  decide (63 < creel ∧ creel ≠ 0x80) ||
  (scope == 0 && (creel != 0 || mask != 0)) || (scope == 1 && mask != 0) ||
  (scope == 2 && (mask == 0 || (creel == 0x80 && decide (1 < mask))))

/-- FENCE (R502, R503): its cover was fixed when it was read. -/
def execFence (pk : Packet) (s : State) : Host.Outcome State Fault Refusal :=
  let check := fun (_ : Cmd) (_ : Sys) => firstFail [(badFence pk, .paramRange)]
  onSys s (fun _ y => execCommand 0x0001 [bits [(16, 2), (8, 8), (0, 8)]] (fun pk => badCode pk 0 16 2 [0, 1, 2]) always check
    (fun _ y => settleFences y) pk y)

/-! ### Advances (R477, R479 to R481) -/

/-- The count that will hold once every scheduled advance has been applied: q of R479. -/
def countAhead (t : TimeSt) : Nat := match t.sched.getLast? with
  | none => t.pick
  | some a => a.target

/-- Schedule an advance to a target, at least 64 ns after the previous one; the target pick u follows (R480, R481). -/
def schedule (target arrival : Nat) (pin load : Bool) (t : TimeSt) : TimeSt :=
  let at_ := arrival + t.applyDelay.toNat
  let apply := match t.lastApply with
    | none => at_
    | some l => Nat.max at_ (l + 64)
  let target := satAt (umax 48) target
  { t with sched := t.sched ++ [{ target := target, apply := apply, arrival := arrival, pin := pin, load := load }],
           lastApply := some apply, pinTarget := target + 1 }

/-- PICK_SET (R491, R492). -/
def execPickSet (pk : Packet) (s : State) : Host.Outcome State Fault Refusal :=
  let load := pf pk 0 63 1 == 1
  let pick := pf pk 0 0 48
  let delay := pf pk 1 32 12
  let check := fun (_ : Cmd) (y : Sys) =>
    let lowers := load && decide (pick < countAhead y.t)
    firstFail [(decide (delay < 200), .paramRange), (!load && pick != 0, .paramRange), (lowers && stepOpen y, .stepState),
      (lowers && (expireLocks y).lck.any (fun l => l.2.state == .held), .paramRange)]
  let effect := fun (c : Cmd) (y : Sys) =>
    let count := pickNow y
    let t := { y.t with source := BitVec.ofNat 2 (pf pk 1 56 2), applyDelay := BitVec.ofNat 12 delay,
                        echoEvery := BitVec.ofNat 32 (pf pk 1 0 32) }
    let t := if load then schedule pick y.t.timeBase false true t else { t with pinTarget := countAhead t + 1 }
    let applies := if load then (t.lastApply.getD 0) else 0
    finish c.id .ok [BitVec.ofNat 64 count, BitVec.ofNat 64 applies] { y with t := t }
  let layout := [bits [(63, 1), (0, 48)], bits [(56, 2), (32, 12), (0, 32)]]
  onSys s (fun _ y => execCommand 0x0010 layout (fun pk => badCode pk 1 56 2 [0, 1]) always check effect pk y)

/-- TIME_READ (R493). -/
def execTimeRead (pk : Packet) (s : State) : Host.Outcome State Fault Refusal :=
  let effect := fun (c : Cmd) (y : Sys) =>
    let st := stampNow y
    finish c.id .ok [BitVec.ofNat 64 (st.pick + b2n st.sat * 2 ^ 63), BitVec.ofNat 64 st.sub, BitVec.ofNat 64 y.t.timeBase] y
  onSys s (fun _ y => execCommand 0x0011 [] (fun _ => false) always noCheck effect pk y)

end Sys2Proof.Machine
end

