-- ==== Sys2Proof/Machine/Treadle.lean ====
section
/-! DEFINITION. Treadle and service frames: what is dropped, the sequence, sessions, creel writes, replies and notices on
their way out (R419 to R430, R438 to R442, R450, R455, R595 to R599). -/

namespace Sys2Proof.Machine

open Sys2Proof

/-! ### The image transfer ends (R598, R599) -/

/-- Send an IMAGE_STATUS and keep its result (R596, R598, R619). -/
def imageStatus (result : Nat) (y : Sys) : Sys :=
  let tr := y.sec.transfer
  let payload := leBytes 1 tr.typ ++ leBytes 1 result ++ leBytes 2 0 ++ leBytes 4 tr.received ++ leBytes 4 (at8 tr.header 12 4) ++ leBytes 4 0
  let y := { y with sec := { y.sec with transfer := { tr with result := result } } }
  if y.svc.state = .none then y else sendSeq true 0x43 payload y

/-- End the transfer in progress with a result; the alternate slot stays invalid (R599). -/
def endTransfer (result : Nat) (y : Sys) : Sys :=
  if y.sec.transfer.active then
    imageStatus result { y with sec := { y.sec with transfer := { y.sec.transfer with active := false, data := [] } } }
  else y

/-! ### What is dropped (R420, R423, R596) -/

/-- The device answers frames: it is out of reset, powered, and its active headstock works (R51, R54, R586). -/
def answers (y : Sys) : Bool :=
  (y.pwr.phase == .stage1 || y.pwr.phase == .ready || y.pwr.phase == .recovery) && !y.hs.silent && !y.hs.activeFaulted

/-- A session frame (R422). -/
def isSessionFrame (f : RxFrame) : Bool := [0x01, 0x04, 0x05].elem f.typ.toNat

/-- The frame is of the service port. -/
def onService (f : RxFrame) : Bool := f.port == .service

/-- Types that the device receives on the port of the frame (R422, R596). -/
def inboundTypes (f : RxFrame) : List Nat :=
  if onService f then [0x01, 0x04, 0x05, 0x10, 0x30, 0x40, 0x41, 0x42, 0x44] else [0x01, 0x04, 0x05, 0x10, 0x20, 0x30]

/-- The CRC of a received frame holds and its length is that of its payload (R421). -/
def frameGood (f : RxFrame) : Bool :=
  let h := leBytes 1 f.typ.toNat ++ leBytes 1 f.fflags.toNat ++ leBytes 2 f.length.toNat ++ leBytes 4 f.seq.toNat ++ leBytes 4 f.ack.toNat
  f.length.toNat == f.payload.length && decide (f.length.toNat ≤ 8192) && f.crc.toNat == crc32c (h ++ f.payload)

/-- The reserved fields of a session frame, FFLAGS apart, in its payload (R422). -/
def sessionReserved (f : RxFrame) : Nat :=
  if f.typ = 0x01 then at8 f.payload 10 1 / 2 + at8 f.payload 11 5
  else if f.typ = 0x04 then at8 f.payload 12 4
  else at8 f.payload 8 8

/-- A reserved field of a service frame holds something (R596). -/
def serviceReserved (f : RxFrame) : Bool :=
  f.fflags != 0 || (isSessionFrame f && sessionReserved f != 0) || (f.typ == 0x10 && at8 f.payload 4 4 != 0) ||
  (f.typ == 0x41 && at8 f.payload 4 4 != 0)

/-- The session is open for R423: open, and not lapsed. -/
def sessionOpenFor (y : Sys) (f : RxFrame) : Bool := (sessOf y (onService f)).state == .open

/-- The frame breaks the sequence rule (R420). -/
def outOfSequence (y : Sys) (f : RxFrame) : Bool := f.seq != 0 && f.seq.toNat != (sessOf y (onService f)).rxSeq + 1

/-- A creel write that names no creel or lane of its port, whose words do not fill it, or whose last end mark is clear
(R438, R439, R596). -/
def badCreelWrite (f : RxFrame) : Bool :=
  let creel := at8 f.payload 0 1
  let lane := at8 f.payload 1 1
  let n := at8 f.payload 2 2
  (if onService f then creel != 0x80 || lane != 0 else decide (63 < creel) || decide (7 < lane)) ||
  n == 0 || decide (64 < n) || f.payload.length != 16 + 64 * n || nfld (at8 f.payload 8 8) (n - 1) 1 == 0

/-- Where a dropped frame is counted (R423, R439, R471, R596). -/
inductive DropKind where
  | badFrame | standbyPort | noSession | incomplete
deriving DecidableEq, Repr

/-- Whether a frame is dropped, and where it is counted. -/
def dropOf (y : Sys) (f : RxFrame) : Option DropKind :=
  let free := isSessionFrame f || f.typ == 0x30
  if !(inboundTypes f).elem f.typ.toNat || !frameGood f || (onService f && serviceReserved f) then some .badFrame
  else if !free && !sessionOpenFor y f then some .noSession
  else if outOfSequence y f then some .badFrame
  else if !free && !onService f && f.port != y.trd.port then some .standbyPort
  else if f.typ = 0x10 ∧ badCreelWrite f = true then some .incomplete
  else if onService f ∧ (f.typ = 0x41 ∨ f.typ = 0x42) ∧ y.sec.transfer.active = false then some .badFrame
  else none

/-- Count a dropped frame; each field saturates (R471). -/
def countDrop (k : DropKind) (y : Sys) : Sys :=
  let c := y.cr
  match k with
  | .badFrame => { y with cr := { c with badFrame := satAt (umax 16) (c.badFrame + 1) } }
  | .standbyPort => { y with cr := { c with standbyPort := satAt (umax 16) (c.standbyPort + 1) } }
  | .noSession => { y with cr := { c with noSession := satAt (umax 16) (c.noSession + 1) } }
  | .incomplete => { y with cr := { c with incomplete := satAt (umax 8) (c.incomplete + 1) } }

/-- Frames acknowledged by the other side leave the session's store (R420). -/
def ackFrames (ack : Nat) (ss : Session) : Session := { ss with unacked := ss.unacked.filter (fun f => decide (ack < f.seq)) }

/-- What every frame that is not dropped does: the sequence, the acknowledgement, the session's timer (R420, R430). -/
def takeFrame (f : RxFrame) (y : Sys) : Sys :=
  let ss := sessOf y (onService f)
  let seq := if f.seq ≠ 0 ∧ isSessionFrame f = false ∧ f.typ ≠ 0x30 ∧ f.typ ≠ 0x20 then f.seq.toNat else ss.rxSeq
  setSess y (onService f) (ackFrames f.ack.toNat { ss with rxSeq := seq, lastRx := y.t.timeBase })

/-- A frame of one of the types listed takes effect, or is dropped and counted. -/
def onFrame (types : List Nat) (f : RxFrame) (effect : Sys → Sys) (y : Sys) : Sys :=
  if answers y && types.elem f.typ.toNat then
    match dropOf y f with
    | some k => countDrop k y
    | none => effect (takeFrame f y)
  else y

/-- DROPPED_FRAME (R423, R471, R596): a frame that is dropped has no other effect. -/
def execDroppedFrame (f : RxFrame) (s : State) : Host.Outcome State Fault Refusal :=
  onSys s (fun _ y =>
    if answers y then
      match dropOf y f with
      | some k => countDrop k y
      | none => y
    else y)

/-- KEEPALIVE (R420, R424). -/
def execKeepalive (f : RxFrame) (s : State) : Host.Outcome State Fault Refusal :=
  onSys s (fun _ y => onFrame [0x30] f (fun y => y) y)

/-- KEEPALIVE_SEND (R424): 100 µs after the last frame sent on the port; whether the port's link is up, which no register
shows, is the row's operand (log 117). -/
def execKeepaliveSend (k : KeepaliveTurn) (s : State) : Host.Outcome State Fault Refusal :=
  onSys s (fun _ y =>
    if answers y && k.linkUp && decide (lastTx y k.port + 100000 ≤ y.t.timeBase) then sendPlain (k.port == .service) k.port 0x30 [] y
    else y)

/-- FRAME_RESEND (R420): a sequenced frame that is not acknowledged is sent again. -/
def execFrameResend (svc : Bool) (seq : Nat) (s : State) : Host.Outcome State Fault Refusal :=
  onSys s (fun _ y =>
    let ss := sessOf y svc
    match ss.unacked.find? (fun f => f.seq == seq) with
    | none => y
    | some f =>
      if answers y && ss.state == .open then
        noteTx ss.port (setSess y svc { ss with wire := ss.wire ++ [{ f with port := ss.port, ack := ss.rxSeq }] })
      else y)

/-! ### Replies and notices on their way out (R450, R455) -/

/-- Bytes of the replies held (R450). -/
def heldReplies (ss : Session) : Nat := (ss.held.filter (fun h => !h.isNotice)).foldl (fun n h => n + h.bytes.length) 0

/-- Cut held items into frames: items of one kind that follow each other, at most 8,192 bytes (R421, R422, R455). -/
def framesOf (l : List HeldItem) : List (Bool × List Byte) :=
  l.foldl (fun fs h => match fs.getLast? with
    | none => [(h.isNotice, h.bytes)]
    | some (k, b) =>
      if k = h.isNotice ∧ b.length + h.bytes.length ≤ 8192 then fs.dropLast ++ [(k, b ++ h.bytes)] else fs ++ [(h.isNotice, h.bytes)]) []

/-- Send everything that a session holds, in its order. -/
def flushHeld (svc : Bool) (y : Sys) : Sys :=
  let ss := sessOf y svc
  (framesOf ss.held).foldl (fun z f => sendSeq svc (if f.1 then 0x12 else 0x11) f.2 z) (setSess y svc { ss with held := [] })

/-- Held items are due: replies of 4 KiB, an oldest item that has waited FLUSH_US, or a notice with no reply before it
(R450, R454). -/
def flushDue (y : Sys) (ss : Session) : Bool :=
  decide (4096 ≤ heldReplies ss) ||
  (match ss.held.head? with
   | none => false
   | some h => h.isNotice || decide (h.tb + y.cr.flushUs.toNat * 1000 ≤ y.t.timeBase))

/-- REPLY_FLUSH (R450, R455). -/
def execReplyFlush (svc : Bool) (s : State) : Host.Outcome State Fault Refusal :=
  onSys s (fun _ y =>
    let ss := sessOf y svc
    if answers y && ss.state == .open && flushDue y ss then flushHeld svc y else y)

/-! ### Creels (R426, R438 to R442) -/

/-- Lane k belongs to the creels of a session. -/
def laneOfSession (svc : Bool) (k : Nat) : Bool := if svc then k == laneKey 64 0 else decide (k < laneKey 64 0)

/-- Discard every packet of a session's creels that is not read; their number. The service lane, empty now, loses its OVERRUN
(R427, R429, R441). -/
def discardUnread (svc : Bool) (y : Sys) : Nat × Sys :=
  let mine := y.cr.lanes.filter (fun p => laneOfSession svc p.1)
  let n := mine.foldl (fun n p => n + (standing p.2).length) 0
  let clears := fun (p : Nat × Lane) => p.2.overrun && p.1 == laneKey 64 0
  let full := mine.any (fun p => decide (freeWords p.2 < 64) || clears p)
  let y := mine.foldl (fun z p => setLane p.1 { p.2 with queue := [], overrun := p.2.overrun && !clears p } z) y
  (n, uncoverLanes (laneOfSession svc) { y with cr := { y.cr with statusDue := y.cr.statusDue || full } })

/-- Empty a session's creels and clear their OVERRUN bits (R426). -/
def emptyCreels (svc : Bool) (y : Sys) : Sys :=
  let y := (discardUnread svc y).2
  let mine := y.cr.lanes.filter (fun p => laneOfSession svc p.1 && p.2.overrun)
  mine.foldl (fun z p => { setLane p.1 { p.2 with overrun := false } z with cr := { (setLane p.1 { p.2 with overrun := false } z).cr with statusDue := true } }) y

/-- The creel words of a creel write with their end marks (R439). -/
def writtenWords (f : RxFrame) : List (BitVec 512 × Bool) :=
  let marks := at8 f.payload 8 8
  (List.range (at8 f.payload 2 2)).map (fun i => (BitVec.ofNat 512 (at8 f.payload (16 + 64 * i) 64), marks.testBit i))

/-- Words arrive at lane k of a creel: appended at once, or ignored with OVERRUN (R439 to R441, R447). -/
def writeLane (creel lane : Nat) (ws : List (BitVec 512 × Bool)) (y : Sys) : Sys :=
  let k := laneKey creel lane
  let l := laneAt y k
  if l.overrun then y
  else if freeWords l < ws.length then
    let y := setLane k { l with overrun := true } y
    notice 2 (creelEnc creel + lane * 2 ^ 8) 0 ws.length 0 { y with cr := { y.cr with statusDue := true } }
  else
    let l' := { l with queue := l.queue ++ ws, timerStart := if l.queue = [] then y.t.timeBase else l.timerStart }
    let due := decide (64 ≤ freeWords l) && decide (freeWords l' < 64)
    let y := setLane k l' y
    { y with cr := { y.cr with statusDue := y.cr.statusDue || due } }

/-- The session is being ended: packets that arrive are discarded as those before them (R427, R429). -/
def sessionEnding (ss : Session) : Bool := ss.forced.isSome || ss.closing

/-- CREEL_WRITE (R427, R429, R439, R441). -/
def execCreelWrite (f : RxFrame) (s : State) : Host.Outcome State Fault Refusal :=
  let svc := onService f
  let ws := writtenWords f
  onSys s (fun _ y => onFrame [0x10] f (fun y =>
    let ss := sessOf y svc
    if sessionEnding ss then
      setSess y svc { ss with discarded := ss.discarded + (packetsOf ws.length ws).length }
    else writeLane (if svc then 64 else at8 f.payload 0 1) (at8 f.payload 1 1) ws y) y)

/-- Bytes of a bitmap over the treadle lanes (R422). -/
def laneBitmap (y : Sys) (test : Lane → Bool) : List Byte :=
  (List.range 64).map (fun c => BitVec.ofNat 8 ((List.range 8).foldl (fun n l => n + b2n (test (laneAt y (laneKey c l))) * 2 ^ l) 0))

/-- The payload of a CREEL_STATUS frame (R422, R440). -/
def statusPayload (y : Sys) : List Byte :=
  let full := fun (l : Lane) => decide (freeWords l < 64)
  let sl := laneAt y (laneKey 64 0)
  laneBitmap y full ++ laneBitmap y (fun l => l.overrun) ++ leBytes 8 (Config.serviceFlags (full sl) sl.overrun).toNat

/-- CREEL_STATUS (R440, R596): after a change of a flag, and every 100 µs while a session is open. -/
def execCreelStatus (s : State) : Host.Outcome State Fault Refusal :=
  onSys s (fun _ y =>
    let due := y.cr.statusDue || decide (y.cr.lastStatus + 100000 ≤ y.t.timeBase)
    if answers y && due && (y.trd.state == .open || y.svc.state == .open) then
      let p := statusPayload y
      let y := if y.trd.state = .open then sendSeq false 0x13 p y else y
      let y := if y.svc.state = .open then sendSeq true 0x13 p y else y
      { y with cr := { y.cr with statusDue := false, lastStatus := y.t.timeBase } }
    else y)

/-! ### Sessions (R425 to R430, R597) -/

/-- The value of HS.IDENT (R15). -/
def identReg : Nat := 0x0C610096A2011000

/-- SESSION_ID of a session frame (R422). -/
def sessionId (f : RxFrame) : Word64 := BitVec.ofNat 64 (at8 f.payload 0 8)

/-- Send SESSION_ACCEPT on a port (R422, R428). -/
def sendAccept (svc : Bool) (p : Port) (y : Sys) : Sys :=
  let ss := sessOf y svc
  sendPlain svc p 0x02 (leBytes 8 ss.id.toNat ++ leBytes 1 ss.version ++ leBytes 3 0 ++ leBytes 4 ss.rxSeq ++ leBytes 8 identReg) y

/-- Send SESSION_REJECT (R422, R425). -/
def sendReject (f : RxFrame) (reason : Nat) (y : Sys) : Sys :=
  sendPlain (onService f) f.port 0x03 (leBytes 8 (sessionId f).toNat ++ leBytes 1 reason ++ leBytes 1 0x10 ++ leBytes 6 0) y

/-- The reasons of R425 that every session frame may meet, in their order. -/
def commonReason (y : Sys) (f : RxFrame) : Option Nat :=
  let size := if f.typ = 0x01 ∨ f.typ = 0x04 ∨ f.typ = 0x05 then 16 else 0
  let bad := f.payload.length != size || sessionId f == 0 || sessionReserved f != 0 || f.fflags != 0 ||
    (f.typ == 0x01 && decide (at8 f.payload 9 1 < at8 f.payload 8 1))
  let ready := y.pwr.phase == .ready || (onService f && y.pwr.phase == .recovery)
  if bad then some 0x06 else if !ready then some 0x03 else if y.pwr.stopped then some 0x04 else none

/-- A session opens: empty creels, sequence numbers from 1 (R425, R426). -/
def openSession (svc : Bool) (id : Word64) (p : Port) (y : Sys) : Sys :=
  let ss := sessOf y svc
  let y := emptyCreels svc y
  let fresh : Session := { state := .open, id := id, version := 0x10, port := p, lastRx := y.t.timeBase, wire := ss.wire }
  sendAccept svc p (setSess y svc fresh)

/-- A session is to end for a new one: its creels are no longer read, unread packets go, replies go, its transfer ends
(R427, R430, R599). -/
def forceOut (svc : Bool) (id : Word64) (p : Port) (y : Sys) : Sys :=
  let y := if svc then endTransfer 0x25 y else y
  let d := discardUnread svc y
  let ss := sessOf d.2 svc
  setSess d.2 svc { ss with forced := some (id, p), closing := false, discarded := ss.discarded + d.1, held := [], unacked := [] }

/-- SESSION_OPEN while the session of another open is being forced out (R427). -/
def openDeferred (f : RxFrame) (ss : Session) (pid : Word64) (y : Sys) : Sys :=
  let id := sessionId f
  let force := nfld (at8 f.payload 10 1) 0 1 == 1
  if id ≠ pid ∧ (0x10 < at8 f.payload 8 1 ∨ at8 f.payload 9 1 < 0x10) then sendReject f 0x01 y
  else if id ≠ pid ∧ force = false then sendReject f 0x02 y
  else setSess y (onService f) { ss with deferred := ss.deferred ++ [(id, f.port)] }

/-- SESSION_OPEN that no common reason rejects (R425 to R427, R430, R597). -/
def openFrame (f : RxFrame) (y : Sys) : Sys :=
  let svc := onService f
  let ss := sessOf y svc
  let id := sessionId f
  let force := nfld (at8 f.payload 10 1) 0 1 == 1
  match ss.forced with
  | some q => openDeferred f ss q.1 y
  | none =>
    if 0x10 < at8 f.payload 8 1 ∨ at8 f.payload 9 1 < 0x10 then sendReject f 0x01 y
    else match ss.state with
      | .none => openSession svc id f.port y
      | .lapsed => forceOut svc id f.port y
      | .open =>
        if ss.id = id then sendAccept svc f.port y
        else if force then forceOut svc id f.port y
        else sendReject f 0x02 y

/-- A session frame of one type takes effect, is rejected, or is dropped (R423, R425). -/
def onSessionFrame (typ : Nat) (f : RxFrame) (effect : Sys → Sys) (y : Sys) : Sys :=
  if answers y && f.typ.toNat == typ then
    match dropOf y f with
    | some k => countDrop k y
    | none =>
      let ss := sessOf y (onService f)
      let y := if ss.state = .open ∧ ss.id = sessionId f then takeFrame f y else y
      match commonReason y f with
      | some r => sendReject f r y
      | none => effect y
  else y

/-- SESSION_OPEN (R425 to R427, R430, R597). -/
def execSessionOpen (f : RxFrame) (s : State) : Host.Outcome State Fault Refusal :=
  onSys s (fun _ y => onSessionFrame 0x01 f (openFrame f) y)

/-- Commands read from the creels of a session that have not completed. -/
def sessionBusy (y : Sys) (svc : Bool) : Bool := y.cm.cmds.any (fun c => (c.creel == 64) == svc)

/-- The fuse sequence of a creel of a session ends with it (R612). -/
def disarm (svc : Bool) (y : Sys) : Sys :=
  if y.sec.armed && (y.sec.armCreel == 64) == svc then { y with sec := { y.sec with armed := false } } else y

/-- SESSION_ENDED and what ends with every session: event record, fuse sequence (R422, R573, R612). -/
def sessionEnded (svc : Bool) (reason : Nat) (y : Sys) : Sys :=
  let ss := sessOf y svc
  let y := sendPlain svc ss.port 0x06 (leBytes 8 ss.id.toNat ++ leBytes 1 reason ++ leBytes 3 0 ++ leBytes 4 ss.discarded) y
  let y := disarm svc (recordEvent 0 0x0060 (b2n svc) (reason + ss.discarded % 2 ^ 32 * 2 ^ 32) y)
  let ss := sessOf y svc
  setSess y svc { port := ss.port, wire := ss.wire, forced := ss.forced, deferred := ss.deferred }

/-- The opens that waited for a forced end: repeats of the open that forced it are answered, and the next other one ends the
session again, the rest waiting for it (R427). -/
def runDeferred (svc : Bool) (l : List (Word64 × Port)) (y : Sys) : Sys :=
  let id := (sessOf y svc).id
  let y := (l.filter (fun q => q.1 == id)).foldl (fun z q => sendAccept svc q.2 z) y
  match l.filter (fun q => q.1 != id) with
  | [] => y
  | q :: r =>
    let y := forceOut svc q.1 q.2 y
    setSess y svc { sessOf y svc with deferred := r }

/-- SESSION_FORCE_END (R427, R465, R597). -/
def execSessionForceEnd (svc : Bool) (s : State) : Host.Outcome State Fault Refusal :=
  onSys s (fun _ y =>
    match (sessOf y svc).forced with
    | none => y
    | some q =>
      if answers y = false ∨ sessionBusy y svc = true then y
      else
        let y := sessionEnded svc 0x01 (breakLocks svc 2 y)
        let later := (sessOf y svc).deferred
        runDeferred svc later (openSession svc q.1 q.2 y))

/-- A session that closes ends once none of its commands runs: replies, locks, SESSION_ENDED (R429, R599). -/
def tryClose (svc : Bool) (y : Sys) : Sys :=
  let ss := sessOf y svc
  if ss.closing && !sessionBusy y svc then
    sessionEnded svc 0x00 (breakLocks svc 3 (flushHeld svc (if svc then endTransfer 0x25 y else y)))
  else y

/-- SESSION_CLOSE (R425, R429, R597). -/
def execSessionClose (f : RxFrame) (s : State) : Host.Outcome State Fault Refusal :=
  onSys s (fun _ y => onSessionFrame 0x05 f (fun y =>
    let svc := onService f
    let ss := sessOf y svc
    if ss.state = .none ∨ ss.id ≠ sessionId f ∨ ss.forced ≠ none then sendReject f 0x05 y
    else if ss.closing then y
    else
      let d := discardUnread svc y
      let ss := sessOf d.2 svc
      tryClose svc (setSess d.2 svc { ss with closing := true, discarded := ss.discarded + d.1 })) y)

/-- SESSION_RESUME (R425, R428, R597). -/
def execSessionResume (f : RxFrame) (s : State) : Host.Outcome State Fault Refusal :=
  onSys s (fun _ y => onSessionFrame 0x04 f (fun y =>
    let svc := onService f
    let ss := sessOf y svc
    if ss.state = .none ∨ ss.id ≠ sessionId f ∨ ss.forced ≠ none then sendReject f 0x05 y
    else
      let lapsed := ss.state == .lapsed
      let ss := ackFrames (at8 f.payload 8 4) { ss with state := .open, port := f.port, lastRx := y.t.timeBase }
      let y := sendAccept svc f.port (setSess y svc ss)
      let ss := sessOf y svc
      let again := ss.unacked.map (fun t => { t with port := f.port, ack := ss.rxSeq })
      let y := setSess y svc { ss with wire := ss.wire ++ again }
      if lapsed then flushHeld svc y else y) y)

/-- SESSION_LAPSE (R430, R465, R597, R599). -/
def execSessionLapse (svc : Bool) (s : State) : Host.Outcome State Fault Refusal :=
  onSys s (fun _ y =>
    let ss := sessOf y svc
    if answers y && ss.state == .open && !sessionEnding ss &&
        decide (ss.lastRx + y.cr.timeoutMs.toNat * 1000000 ≤ y.t.timeBase) then
      let y := if svc then endTransfer 0x25 y else y
      breakLocks svc 4 (setSess y svc { sessOf y svc with state := .lapsed })
    else y)

end Sys2Proof.Machine
end

