-- ==== Sys2Proof/Machine/Reader.lean ====
section
/-! DEFINITION. Reading creels and completing commands: PACKET_READ, STALL and COMMAND_COMPLETION (R29, R278, R311, R358,
R389, R402, R435, R445 to R451, R485, R498, R561, R569). -/

namespace Sys2Proof.Machine

open Sys2Proof

/-! ### PACKET_READ (R29, R435, R445, R446) -/

/-- What R29 says of a packet as it is read, before its unit sees it: framing, CRC, version, opcode (R22, R25, R435). -/
def readCheck (ws : List (BitVec 512)) : Option Status :=
  let b := wordsBytes ws
  if badFraming ws then some .packetFraming
  else if !crcHolds b then some .headerCrc
  else if at8 b 0 1 ≠ 0x10 then some .versionMismatch
  else if isOpcode (at8 b 2 2) then none
  else some .opcodeReserved

/-- The head packet of a lane is ready (R379, R445). -/
def headReady (y : Sys) (ws : List (BitVec 512)) (covered : Bool) : Bool :=
  let b := wordsBytes ws
  let pk := packetOf b
  let op := at8 b 2 2
  badFraming ws || !crcHolds b ||
  (released y pk && stepOutcome y op pk.step.toNat covered != .waits && unitRoom y op pk)

/-- A head stood in its lane when STEP_PREPARE was accepted (R379). -/
def headSealed (y : Sys) (k : Nat) : Bool := decide (0 < mapGet 0 y.stp.sealLanes k)

/-- The lane can be read, and its head is ready. -/
def laneReady (y : Sys) (creel lane : Nat) : Bool :=
  let k := laneKey creel lane
  let l := laneAt y k
  readsCreel y creel && !l.queue.isEmpty && !fenceHolds y creel lane && !laneForwarded y creel lane &&
  headReady y (headWords 32 l.queue) (headSealed y k)

/-- Creels in the order in which a lane level serves them: round robin from the one after the creel served last. -/
def creelOrder (y : Sys) (lane : Nat) : List Nat :=
  let next := mapGet 0 y.cr.rr lane
  (List.range 65).map (fun i => (next + i) % 65)

/-- The creel and lane to read: the highest lane with a ready head, creels in their order (R438, R445). -/
def nextHead (y : Sys) : Option (Nat × Nat) :=
  ((List.range 8).reverse.flatMap (fun l => ((creelOrder y l).filter (fun c => c != 64 || l == 0)).map (fun c => (c, l)))).find?
    (fun p => laneReady y p.1 p.2)

/-- A lane after its head was read: the words are free, STALLED is clear, the timer restarts (R441, R447, R474). -/
def afterRead (creel n now : Nat) (l : Lane) : Lane :=
  let q := l.queue.drop n
  { l with queue := q, stalled := false, timerStart := now, overrun := l.overrun && !(creel == 64 && q.isEmpty) }

/-- Read the head packet of a lane: it becomes a command, forwarded or refused; run-ahead copies for a refused load go
(R29, R242, R379, R435, R445, R449, R503). -/
def readHead (creel lane : Nat) (y : Sys) : Sys :=
  let k := laneKey creel lane
  let l := laneAt y k
  let ws := headWords 32 l.queue
  let l' := afterRead creel ws.length y.t.timeBase l
  let due := (decide (freeWords l < 64) != decide (freeWords l' < 64)) || l.overrun != l'.overrun
  let sealed := headSealed y k
  let y := setLane k l' y
  let y := { y with cr := { y.cr with rr := mapSet 0 y.cr.rr lane ((creel + 1) % 65), statusDue := y.cr.statusDue || due },
                    stp := { y.stp with sealLanes := mapMod 0 y.stp.sealLanes k (fun n => n - 1) } }
  let id := y.cm.nextId
  let y := coverRead k id y
  let y := newCmd (at8 (wordsBytes ws) 2 2) creel lane ws.length sealed (packetOf (wordsBytes ws)) y
  match readCheck ws with
  | some st => trimAll (finish id st [] y)
  | none => y

/-- PACKET_READ (R445). -/
def execPacketRead (s : State) : Host.Outcome State Fault Refusal :=
  onSys s (fun _ y =>
    match nextHead y with
    | none => y
    | some p => readHead p.1 p.2 y)

/-! ### STALL (R447) -/

/-- STALL (R447, R454). -/
def execStall (creel lane : Nat) (s : State) : Host.Outcome State Fault Refusal :=
  onSys s (fun _ y =>
    let k := laneKey creel lane
    let l := laneAt y k
    if isUp y && decide (creel ≤ 64 ∧ lane ≤ 7) && (creel != 64 || lane == 0) && !l.queue.isEmpty && !l.stalled &&
        l.stallTime != 0 && decide (l.timerStart + l.stallTime.toNat * 1000 ≤ y.t.timeBase) then
      let tag := at8 (wordsBytes (headWords 32 l.queue)) 4 4
      notice 1 (creelEnc creel + lane * 2 ^ 8) tag (packetsIn l) 0 (setLane k { l with stalled := true } y)
    else y)

/-! ### COMMAND_COMPLETION (R448, R498) -/

/-- The reply of a command (R448). -/
def replyBytes (version : Nat) (c : Cmd) (st : Status) (res : List Word64) (s : Stamp) : List Byte :=
  leBytes 1 version ++ leBytes 1 (b2n s.sat) ++ leBytes 2 (statusCode st) ++ leBytes 4 c.pkt.tag.toNat ++ leBytes 2 c.op ++
  leBytes 1 (creelEnc c.creel) ++ leBytes 1 c.lane ++ leBytes 1 res.length ++ leBytes 1 c.words ++ leBytes 2 0 ++
  leBytes 6 s.pick ++ leBytes 3 s.sub ++ leBytes 3 0 ++ leBytes 4 0 ++ res.flatMap (fun w => leBytes 8 w.toNat)

/-- The trace trigger that a reply with a status is (R561). -/
def triggerOf (st : Status) : Option Nat :=
  if isStepFatal st || isDeviceFatal st then some 2
  else if isContained st then some 3
  else if st = .tileReplayed then some 4
  else if st = .bucketTwinTaken then some 5
  else none

/-- The trace of a completion: its trigger, then its COMPLETE record (R556, R561). -/
def traceCompletion (c : Cmd) (st : Status) (s : Stamp) (y : Sys) : Sys :=
  let u := traceUnitOf c.op c.pkt
  let y := match triggerOf st with
    | none => y
    | some k => traceFire k 0 u s y
  traceRec u 2 s c.op c.pkt.tag.toNat (statusCode st) (creelEnc c.creel) c.lane c.pkt.step.toNat y

/-- Add one census contribution, with its alert (R307, R311). -/
def censusIn (c : Cmd) (d : CensusDelta) (y : Sys) : Sys :=
  let before := (censusSlot y d.slot).nonfinite
  let y := addCensus d y
  if (censusCtl y d.slot).alert && before == 0 && decide (0 < (censusSlot y d.slot).nonfinite) then
    notice 3 d.slot c.pkt.tag.toNat 0 c.pkt.step.toNat y
  else y

/-- A watch slot observes a readout of a tensor and step (R568). -/
def watches (w : WatchSlot) (tid step : Nat) : Bool := w.armed && w.tid == tid && (w.step == 0 || w.step == step)

/-- Add one exponent to a watch part (R569). -/
def watchExp (p : WatchPart) (e : Int) : WatchPart :=
  { p with expValid := true, emax := if p.expValid && decide (e ≤ p.emax) then p.emax else e,
           emin := if p.expValid && decide (p.emin ≤ e) then p.emin else e }

/-- A readout's contribution to one watch part (R569). -/
def watchPartIn (w : WatchSlot) (d : WatchDelta) (p : WatchPart) : WatchPart :=
  let add := fun (a b : Nat) => satAt (umax 64) (a + b)
  let p := if w.stats then
      d.exps.foldl watchExp { p with readouts := add p.readouts 1, elements := add p.elements d.elements, zero := add p.zero d.zero,
                                     nonfinite := add p.nonfinite d.nonfinite }
    else p
  if w.digest then { p with digest := p.digest + d.digest } else p

/-- A readout enters every slot that watches it (R568 to R570). -/
def watchIn (step : Nat) (d : WatchDelta) (y : Sys) : Sys :=
  (List.range 16).foldl (fun z k =>
    let w := mapGet {} z.obs.watch k
    if watches w d.tid step then
      { z with obs := { z.obs with wparts := mapMod {} z.obs.wparts (16 * d.die + k) (watchPartIn w d) } }
    else z) y

/-- The record that a completed command leaves: a bucket command that an abort ended before its acceptance leaves one of
its packet (R358, R402). -/
def recordLeft (c : Cmd) (st : Status) : Option BucketRec :=
  match c.record with
  | some r => some r
  | none =>
    if st = .stepAborted ∧ c.op = 0x0410 then some (recordOf (reduceOf c.pkt) false false 0 0)
    else if st = .stepAborted ∧ c.op = 0x0411 then some (recordOf (gatherOf c.pkt) false false 0 0)
    else none

/-- The bucket record of a completed command goes to the open step, to the shadow, or to the step that ended last, where
the record of a command that an abort ended belongs even when a replay has begun (R358, R367, R400, R408). -/
def keepRecord (c : Cmd) (st : Status) (y : Sys) : Sys :=
  match recordLeft c st with
  | none => y
  | some r =>
    let r := if isSuccess st then r else { r with flags := r.flags ||| 16, dSent := 0, dRecv := 0 }
    if c.shadow then { y with coll := { y.coll with recsShadow := y.coll.recsShadow ++ [r] } }
    else if stepOpen y && r.step == openStep y && !c.exempt then { y with coll := { y.coll with recsOpen := y.coll.recsOpen ++ [r] } }
    else { y with coll := { y.coll with recsLast := (y.coll.recsLast ++ [r]).take 16384 } }

/-- Dirty bits and the STEP_FATAL notice of a completion (R389, R402, R454). -/
def stepEffects (c : Cmd) (st : Status) (y : Sys) : Sys :=
  let y := if boundToOpen y c.pkt then
      { y with stp := { y.stp with dirty := y.stp.dirty ||| dirtyOf c.exempt st } }
    else y
  if isStepFatal st && !c.exempt && c.pkt.step != 0 then
    notice 6 (creelEnc c.creel + c.lane * 2 ^ 8) c.pkt.tag.toNat (statusCode st + c.op * 2 ^ 16) c.pkt.step.toNat y
  else y

/-- What a completion adds to the census, the watch slots and the bucket records. -/
def contribute (c : Cmd) (st : Status) (y : Sys) : Sys :=
  let y := if isSuccess st then c.watch.foldl (fun z d => watchIn c.pkt.step.toNat d z) (c.census.foldl (fun z d => censusIn c d z) y) else y
  keepRecord c st y

/-- A device-fatal completion stops the device (R403, R451, R580). -/
def fatalEffects (st : Status) (y : Sys) : Sys :=
  let y := if st = .thermalTrip then onLife (fun l => { l with thermalTrips := inc32 l.thermalTrips }) y else y
  if isDeviceFatal st then { y with pwr := { y.pwr with stopped := true } } else y

/-- The command leaves the list, its work noted; the lane keeps its stamp; a commit lets the creels go (R392, R498, R544). -/
def dropCmd (c : Cmd) (s : Stamp) (y : Sys) : Sys :=
  let k := laneKey c.creel c.lane
  let y := noteWork c (setLane k { laneAt y k with last := s } y)
  { y with cm := { y.cm with cmds := y.cm.cmds.filter (fun d => d.id != c.id),
                             commitWait := if y.cm.commitWait = some c.id then none else y.cm.commitWait } }

/-- A command completes: stamp, reply, then its trace, contributions and notices, and whatever waited for it (R101, R201,
R448, R455, R485, R498, R499). -/
def complete (c : Cmd) (st : Status) (res : List Word64) (y : Sys) : Sys :=
  let last := (laneAt y (laneKey c.creel c.lane)).last
  let now := stampNow y
  let s := if stampLt now last then last else now
  let svc := c.creel == 64
  let y := releaseBehind c.id st (closeEnded c (dropCmd c s y))
  let y := traceCompletion c st s (holdReply svc (replyBytes (sessOf y svc).version c st res s) y)
  let y := fatalEffects st (stepEffects c st (contribute c st y))
  tryClose true (tryClose false (uncover c.id y))

/-- The oldest command of a lane that has not completed. -/
def oldest (y : Sys) (creel lane : Nat) : Option Cmd := y.cm.cmds.find? (fun c => c.creel == creel && c.lane == lane)

/-- COMMAND_COMPLETION (R498): the oldest command of a lane, once its work has finished. -/
def execCommandCompletion (creel lane : Nat) (s : State) : Host.Outcome State Fault Refusal :=
  onSys s (fun _ y =>
    match oldest y creel lane with
    | none => y
    | some c => match c.phase with
      | .done st res => if answers y then complete c st res y else y
      | _ => y)

end Sys2Proof.Machine
end

