-- ==== Sys2Proof/Machine/Regs.lean ====
section
/-! DEFINITION. The registers: blocks, instances, values, what a read clears, which bits are reserved, when a write is
refused, and what it writes (R12 to R15, R24, R27, R57 to R60, R64, R130, R131, R143, R144, R169, R264 to R267, R302,
R314, R315, R370 to R375, R415 to R417, R444, R458 to R462, R467 to R474, R495 to R497, R534 to R537, R554, R559,
R564 to R567, R577, R617 to R620, R651 to R653). -/

namespace Sys2Proof.Machine

open Sys2Proof

/-- What a register has one of (R460, R461). -/
inductive InstKind where
  | single | die | shuttle | tile | port | creel | lane | lock | unit | set | image
deriving DecidableEq, Repr

/-- The instance kind of a register, where block and index name one (R460). -/
def regKind (b r : Nat) : Option InstKind :=
  match b, r with
  | 0x01, 0x00 | 0x01, 0x01 | 0x01, 0x02 | 0x02, 0x00 => some .single
  | 0x03, 0x00 | 0x03, 0x01 => some .die
  | 0x04, 0x00 | 0x04, 0x01 | 0x04, 0x02 => some .single
  | 0x04, 0x10 => some .shuttle
  | 0x04, 0x11 | 0x04, 0x12 => some .tile
  | 0x05, 0x00 | 0x05, 0x01 | 0x05, 0x02 | 0x06, 0x00 => some .die
  | 0x07, 0x00 | 0x07, 0x01 | 0x08, 0x00 => some .single
  | 0x09, 0x00 | 0x09, 0x01 => some .port
  | 0x0A, 0x00 | 0x0A, 0x01 | 0x0A, 0x02 | 0x0A, 0x03 | 0x0A, 0x04 => some .single
  | 0x0B, 0x00 | 0x0B, 0x01 | 0x0C, 0x00 => some .single
  | 0x0D, 0x00 => some .creel
  | 0x0D, 0x01 | 0x0D, 0x02 => some .lane
  | 0x0E, 0x00 | 0x0E, 0x01 => some .lock
  | 0x0F, 0x00 | 0x0F, 0x01 | 0x0F, 0x02 | 0x10, 0x00 | 0x10, 0x01 | 0x10, 0x02 => some .single
  | 0x11, 0x00 | 0x11, 0x02 | 0x11, 0x03 => some .single
  | 0x11, 0x01 => some .die
  | 0x12, 0x00 | 0x12, 0x01 => some .single
  | 0x12, 0x02 | 0x12, 0x03 => some .unit
  | 0x12, 0x04 => some .set
  | 0x13, 0x00 | 0x13, 0x01 | 0x14, 0x00 | 0x14, 0x01 | 0x14, 0x02 => some .single
  | 0x14, 0x03 => some .image
  | 0x15, 0x00 | 0x15, 0x02 => some .single
  | 0x15, 0x01 => some .die
  | _, _ => none

/-- Creels in their encoding (R432, R438). -/
def creelCodes : List Nat := List.range 64 ++ [0x80]

/-- The instances of a kind in the encoding of R461. -/
def instances : InstKind → List Nat
  | .single => [0]
  | .die => List.range 18
  | .shuttle => List.range 2304
  | .tile => (List.range 2304).flatMap (fun n => (List.range 8).map (fun t => n + 4096 * t))
  | .port => List.range 64
  | .creel => creelCodes
  | .lane => (List.range 64).flatMap (fun c => (List.range 8).map (fun l => c + 256 * l)) ++ [0x80]
  | .lock => List.range 64
  | .unit => List.range 27
  | .set => List.range 8
  | .image => [1, 2, 3, 4, 5]

/-- An instance exists; a logical shuttle that lost its position may not be named (R461, R519). -/
def goodInstance (y : Sys) (k : InstKind) (i : Nat) : Bool :=
  match k with
  | .single => i == 0
  | .die => decide (i < 18)
  | .shuttle => !badShuttle y i
  | .tile => decide (i < 0x8000) && !badShuttle y (i % 4096)
  | .port => decide (i < 64)
  | .creel => decide (i < 64) || i == 0x80
  | .lane => (decide (i % 256 < 64) && decide (i < 0x800)) || i == 0x80
  | .lock => decide (i < 64)
  | .unit => decide (i < 27)
  | .set => decide (i < 8)
  | .image => decide (1 ≤ i ∧ i ≤ 5)

/-- The VERSION field of a register (R21). -/
def regVersion : Nat := 0x10 * 2 ^ 56

/-! ### Values -/

/-- Position q of reed r has failed; reeds count over the device (R520). -/
def posFailed (p : Perm) (reed q : Nat) : Bool := p.failed.elem (17 * reed + q)

/-- The positions that the slots of a reed use (R41). -/
def usedPositions (y : Sys) (reed : Nat) : List Nat := (List.range 16).filterMap (fun j => positionOf y (16 * reed + j))

/-- The spare position of a reed, where one is still available (R60, R531). -/
def spareOf (p : Perm) (y : Sys) (reed : Nat) : Option Nat :=
  (List.range 17).find? (fun q => !(usedPositions y reed).elem q && !posFailed p reed q)

/-- ACTIVE_SHUTTLES of a die (R60). -/
def activeShuttles (y : Sys) (d : Nat) : Nat :=
  ((List.range 8).map (fun r => (usedPositions y (8 * d + r)).length)).foldl (fun a b => a + b) 0

/-- SPARES_LEFT of a die (R60). -/
def sparesLeft (p : Perm) (y : Sys) (d : Nat) : Nat := ((List.range 8).filter (fun r => (spareOf p y (8 * d + r)).isSome)).length

/-- SHORT_REEDS of a die (R60). -/
def shortReeds (y : Sys) (d : Nat) : Nat :=
  (List.range 8).foldl (fun n r => n + b2n (decide ((usedPositions y (8 * d + r)).length < 16)) * 2 ^ r) 0

/-- LD.CAPACITY (R60). -/
def capacityReg (p : Perm) (y : Sys) (d : Nat) : Nat :=
  activeShuttles y d * 2 ^ 40 + sparesLeft p y d * 2 ^ 32 + shortReeds y d * 2 ^ 24

/-- The code of the standby's state (R58). -/
def standbyCode : Standby → Nat
  | .absent => 0
  | .booting => 1
  | .ready => 2
  | .reset => 3

/-- The active treadle port as a bit (R58, R469). -/
def portBit (y : Sys) : Nat := b2n (y.trd.port == .tb)

/-- HS.ROLE (R58). -/
def roleReg (y : Sys) : Nat :=
  y.hs.takeovers * 2 ^ 24 + standbyCode y.hs.standby * 2 ^ 12 + portBit y * 2 ^ 8 + b2n y.hs.takeoverEvent * 2 + y.hs.active

/-- LD.IDENT; mesh column and row under R33 (R59). -/
def ldIdentReg (d : Nat) : Nat := 0xC0 * 2 ^ 32 + d / 6 * 2 ^ 12 + d % 6 * 2 ^ 8 + d

/-- A tile is open (R101). -/
def tileOpen (st : TileStatus) : Bool := st != .closed

/-- The four flags of one narrow-tile field as a number. -/
def narrowBits (p : TilePos) (f : NarrowTile → Bool) : Nat :=
  p.narrow.zipIdx.foldl (fun n q => n + b2n (f q.1) * 2 ^ q.2) 0

/-- The flags of ACC.TILE_STATE for one position: OPEN, GUARDED, OVF, INEXACT, NOREPLAY, NONFINITE (R130, R170). -/
def posFlags (p : TilePos) : List Bool :=
  if p.guarded then
    [p.narrow.any (fun x => tileOpen x.status), true, false, p.narrow.any (fun x => x.marked), false, p.narrow.any (fun x => x.nonfinite)]
  else
    [tileOpen p.exact.status, false, p.exact.ovf, p.exact.inexact, p.exact.noReplay, p.exact.nonfinite]

/-- ACC.TILE_STATE (R130, R170). -/
def tileStateReg (y : Sys) (n : Nat) : Nat :=
  let flags := (List.range 8).map (fun t => posFlags (tileAt y n t))
  let field := fun (i lo : Nat) => flags.zipIdx.foldl (fun s q => s + b2n (q.1.getD i false) * 2 ^ (lo + q.2)) 0
  field 0 0 + field 1 8 + field 2 24 + field 3 32 + field 4 40 + field 5 48

/-- ACC.TILE_INFO (R131, R170). -/
def tileInfoReg (p : TilePos) : Nat :=
  if p.guarded then 0 else p.exact.groups % 2 ^ 31 * 2 ^ 25 + p.exact.entries % 2 ^ 9 * 2 ^ 16 + lowBits p.exact.base 16

/-- ACC.NARROW_STATE (R169). -/
def narrowStateReg (p : TilePos) : Nat :=
  p.narrow.zipIdx.foldl (fun n q => n + q.1.shape % 16 * 2 ^ (32 + 4 * q.2)) 0 + narrowBits p (fun x => x.nonfinite) * 2 ^ 16 +
  narrowBits p (fun x => x.marked) * 2 ^ 8 + narrowBits p (fun x => tileOpen x.status)

/-- A die's memory registers. -/
def memDie (y : Sys) (d : Nat) : MemDie := mapGet {} y.mem.dies d

/-- UPD.MICRO_SLOTS.LOADED (R314). -/
def microSlots (y : Sys) : Nat := (List.range 8).foldl (fun n k => n + b2n (mapGet [] y.upd.slots k != []) * 2 ^ k) 0

/-- State-map entries in a state (R315). -/
def entriesIn (y : Sys) (st : EntryState) : Nat := (y.smap.entries.filter (fun p => p.2.state == st)).length

/-- The code of the step state (R415). -/
def stepCode : StepState → Nat
  | .idle => 0
  | .opened => 1
  | .sealed => 2
  | .prepared => 3

/-- STEP.STATE (R415). -/
def stepStateReg (y : Sys) : Nat :=
  y.stp.dirty.toNat * 2 ^ 16 + b2n y.stp.weave.isSome * 2 ^ 12 + b2n y.stp.shadow * 2 ^ 11 + b2n y.stp.abortPending * 2 ^ 10 +
  b2n y.stp.undoValid * 2 ^ 9 + stepCode y.stp.state

/-- TWIN.CTL (R417). -/
def twinReg (y : Sys) : Nat :=
  b2n y.stp.agreed * 2 ^ 26 + twinCode y.stp.twinMode * 2 ^ 24 + b2n y.stp.twinValid * 2 ^ 10 + y.stp.twinDev.toNat

/-- The creel index of a creel code (R432, R438). -/
def creelIndex (i : Nat) : Nat := if i % 256 = 0x80 then 64 else i % 256

/-- The lane that an instance of a lane register names (R461). -/
def laneOfInst (i : Nat) : Nat := laneKey (creelIndex i) (i / 256)

/-- CREEL.LANE_STATE (R440, R441, R447, R474). -/
def laneStateReg (l : Lane) : Nat :=
  b2n l.stalled * 2 ^ 42 + b2n l.overrun * 2 ^ 41 + b2n (decide (freeWords l < 64)) * 2 ^ 40 + packetsIn l * 2 ^ 16 + freeWords l

/-- The code of a lock's state (R467). -/
def lockCode : LockState → Nat
  | .free => 0
  | .held => 1
  | .broken => 2

/-- LOCK.STATE (R467). -/
def lockStateReg (l : Lock) : Nat := l.cause * 2 ^ 16 + lockCode l.state * 2 ^ 12 + creelEnc l.owner

/-- TRD.SESSION (R469). -/
def sessionReg (y : Sys) : Nat :=
  let st := match y.trd.state with
    | .none => 0
    | .open => 1
    | .lapsed => 2
  y.trd.version * 2 ^ 48 + b2n (y.svc.state == .open) * 2 ^ 10 + portBit y * 2 ^ 3 + (if y.pwr.stopped then 3 else st)

/-- BURL.FAIL_INFO (R536). -/
def failInfoReg (b : BurlerSt) : Nat :=
  b2n b.failValid * 2 ^ 55 + b2n b.failOverrun * 2 ^ 54 + b.failShuttle * 2 ^ 32 + b.failPart * 2 ^ 24 +
  b.failPosition / 17 / 8 * 2 ^ 16 + b.failPosition / 17 % 8 * 2 ^ 8 + b.failPosition % 17

/-- The code of the trace state (R564). -/
def traceCode : TraceState → Nat
  | .stopped => 0
  | .running => 1
  | .triggered => 2
  | .done => 3

/-- OBS.TRACE_CTL (R564). -/
def traceCtlReg (t : TraceSt) : Nat :=
  let s := t.t.getD {}
  s.sub * 2 ^ 32 + t.cause * 2 ^ 24 + t.user * 2 ^ 16 + b2n s.sat * 2 ^ 7 + b2n t.trigger * 2 ^ 4 + traceCode t.state

/-- SEC.BOOT (R618). -/
def bootReg (y : Sys) : Nat :=
  let b := bootOf y y.hs.active
  Config.romVersion.toNat * 2 ^ 32 + b2n b.recovery * 2 ^ 16 + b.fallback.toNat * 2 ^ 8 + b2n b.clean * 4 + b.slot * 2

/-- SEC.STAGE (R619). -/
def stageReg (t : Transfer) : Nat := t.result * 2 ^ 40 + b2n t.active * 2 ^ 38 + t.typ * 2 ^ 32 + t.received

/-- PWR.THERM_STATE (R652). -/
def thermReg (t : ThermDie) : Nat :=
  t.dram.toNat * 2 ^ 32 + t.logic.toNat * 2 ^ 16 + t.stretch * 2 ^ 8 + b2n t.currentLimit * 4 + b2n t.tripped * 2 +
  b2n (decide (0 < t.stretch))

/-- The fields of a register below its VERSION field (R27). -/
def regFields (p : Perm) (y : Sys) (b r i : Nat) : Nat :=
  match b, r with
  | 0x01, 0x02 => roleReg y
  | 0x03, 0x00 => ldIdentReg i
  | 0x03, 0x01 => capacityReg p y i
  | 0x04, 0x00 => y.acc.srThreshold.toNat
  | 0x04, 0x01 => y.acc.srSeedLo.toNat
  | 0x04, 0x02 => y.acc.srSeedHi.toNat
  | 0x04, 0x10 => tileStateReg y i
  | 0x04, 0x11 => tileInfoReg (tileAt y (i % 4096) (i / 4096))
  | 0x04, 0x12 => narrowStateReg (tileAt y (i % 4096) (i / 4096))
  | 0x05, 0x00 => (memDie y i).uncorr * 2 ^ 32 + (memDie y i).corr
  | 0x05, 0x01 =>
    b2n (memDie y i).errValid * 2 ^ 55 + b2n (memDie y i).errOverrun * 2 ^ 54 + (memDie y i).errGranule * 2 ^ 8 + (memDie y i).errSource
  | 0x05, 0x02 => b2n (memDie y i).scrubEn * 2 ^ 16 + (memDie y i).scrubPeriod.toNat
  | 0x06, 0x00 => (memDie y i).defaultKib.toNat * 2 ^ 16 + b2n (memDie y i).runaheadEn
  | 0x07, 0x00 => y.upd.lossScale.toNat
  | 0x07, 0x01 => microSlots y
  | 0x08, 0x00 => entriesIn y .loading * 2 ^ 32 + entriesIn y .active * 2 ^ 16 + y.smap.flips
  | 0x09, 0x00 => portStateReg y i % 2 ^ 56
  | 0x09, 0x01 => (portAt y i).badHdr * 2 ^ 48 + (portAt y i).retries * 2 ^ 32 + (portAt y i).corrCw
  | 0x0A, 0x00 => b2n y.coll.selfValid * 2 ^ 10 + y.coll.selfDev.toNat
  | 0x0A, 0x01 => y.coll.latePicks.toNat
  | 0x0A, 0x02 => y.coll.keyLo.toNat
  | 0x0A, 0x03 => y.coll.keyHi.toNat
  | 0x0A, 0x04 => y.coll.twinDiff * 2 ^ 48 + y.coll.lateCompared * 2 ^ 32 + y.coll.twinTaken * 2 ^ 16 + y.coll.resends
  | 0x0B, 0x00 => stepStateReg y
  | 0x0B, 0x01 => y.stp.lastCommit
  | 0x0C, 0x00 => twinReg y
  | 0x0D, 0x00 => b2n (setHas y.cr.mode (creelIndex i))
  | 0x0D, 0x01 => (laneAt y (laneOfInst i)).stallTime.toNat
  | 0x0D, 0x02 => laneStateReg (laneAt y (laneOfInst i))
  | 0x0E, 0x00 => lockStateReg (mapGet {} y.lck i)
  | 0x0E, 0x01 => nfld (mapGet ({} : Lock) y.lck i).expires 0 48
  | 0x0F, 0x00 => sessionReg y
  | 0x0F, 0x01 => y.cr.timeoutMs.toNat * 2 ^ 16 + y.cr.flushUs.toNat
  | 0x0F, 0x02 => y.cr.incomplete * 2 ^ 48 + y.cr.badFrame * 2 ^ 32 + y.cr.standbyPort * 2 ^ 16 + y.cr.noSession
  | 0x10, 0x00 => y.t.source.toNat * 2 ^ 48 + y.t.applyDelay.toNat * 2 ^ 32 + y.t.echoEvery.toNat
  | 0x10, 0x01 => pickNow y
  | 0x10, 0x02 => y.t.bad * 2 ^ 48 + y.t.pinMismatch * 2 ^ 40 + y.t.stale * 2 ^ 16 + y.t.missed
  | 0x11, 0x00 => y.bur.fraction.toNat
  | 0x11, 0x01 => (burDie y i).delayed * 2 ^ 48 + (burDie y i).fails * 2 ^ 40 + nextSlot y i (burDie y i).testing * 2 ^ 24 + (burDie y i).rounds
  | 0x11, 0x02 => failInfoReg y.bur
  | 0x11, 0x03 => y.bur.failClean
  | 0x12, 0x00 => traceCtlReg y.obs.trace
  | 0x12, 0x01 => (y.obs.trace.t.getD {}).pick
  | 0x12, 0x02 => (mapGet ({} : TraceUnit) y.obs.units i).wp * 2 ^ 28 + (mapGet ({} : TraceUnit) y.obs.units i).rp
  | 0x12, 0x03 => (mapGet ({} : TraceUnit) y.obs.units i).bufDropped * 2 ^ 32 + (mapGet ({} : TraceUnit) y.obs.units i).postDropped
  | 0x12, 0x04 => b2n (mapGet ({} : CtrSet) y.obs.sets i).running * 2 ^ 32 + (mapGet ({} : CtrSet) y.obs.sets i).seq
  | 0x13, 0x00 => y.nv.evr.length * 2 ^ 32 + y.nv.evrSeq
  | 0x13, 0x01 => y.nv.evrChg
  | 0x14, 0x00 => fuseReg p y % 2 ^ 56
  | 0x14, 0x01 => bootReg y
  | 0x14, 0x02 => stageReg y.sec.transfer
  | 0x14, 0x03 => floorOf p i
  | 0x15, 0x00 => y.pwr.dramThrottle.toNat * 2 ^ 32 + y.pwr.logicThrottle.toNat * 2 ^ 16
  | 0x15, 0x01 => thermReg (mapGet {} y.pwr.therm i)
  | 0x15, 0x02 => y.pwr.sdSource.toNat * 4 + b2n y.pwr.sdDone * 2
  | _, _ => 0

/-- The value of a register (R12). -/
def regValue (p : Perm) (y : Sys) (b r i : Nat) : Word64 :=
  BitVec.ofNat 64 (match b, r with
    | 0x01, 0x00 => identReg
    | 0x01, 0x01 => 0x10123688C08882C0
    | 0x02, 0x00 => 0x10000007003F03FF
    | _, _ => regVersion + regFields p y b r i)

/-- A read clears the RC fields of a register (R13). -/
def clearRead (b r i : Nat) (y : Sys) : Sys :=
  match b, r with
  | 0x05, 0x00 => onDie i (fun m => { m with corr := 0, uncorr := 0 }) y
  | 0x09, 0x01 => onPort i (fun p => { p with badHdr := 0, retries := 0, corrCw := 0 }) y
  | 0x0A, 0x04 => { y with coll := { y.coll with twinDiff := 0, lateCompared := 0, twinTaken := 0, resends := 0 } }
  | 0x0F, 0x02 => { y with cr := { y.cr with incomplete := 0, badFrame := 0, standbyPort := 0, noSession := 0 } }
  | 0x10, 0x02 => { y with t := { y.t with bad := 0, pinMismatch := 0, stale := 0, missed := 0 } }
  | 0x11, 0x01 => { y with bur := { y.bur with dies := mapMod {} y.bur.dies i (fun d => { d with delayed := 0 }) } }
  | _, _ => y

/-! ### Writes -/

/-- The reserved bits of a register (R24, R27). -/
def reservedBits (b r : Nat) : Nat :=
  let used := match b, r with
    | 0x01, 0x00 => [(8, 56)]
    | 0x01, 0x01 | 0x13, 0x01 => if b = 1 then [(0, 64)] else [(56, 8), (0, 32)]
    | 0x01, 0x02 => [(56, 8), (24, 8), (12, 4), (8, 1), (0, 2)]
    | 0x02, 0x00 => [(56, 8), (0, 48)]
    | 0x03, 0x00 => [(56, 8), (32, 8), (8, 8), (0, 5)]
    | 0x03, 0x01 => [(56, 8), (24, 24)]
    | 0x04, 0x00 | 0x04, 0x01 | 0x04, 0x02 => [(56, 8), (0, 32)]
    | 0x04, 0x10 => [(24, 40), (0, 16)]
    | 0x04, 0x11 => [(0, 64)]
    | 0x04, 0x12 => [(56, 8), (32, 16), (16, 4), (8, 4), (0, 4)]
    | 0x05, 0x00 => [(56, 8), (0, 48)]
    | 0x05, 0x01 => [(54, 10), (0, 40)]
    | 0x05, 0x02 => [(56, 8), (0, 17)]
    | 0x06, 0x00 => [(56, 8), (16, 16), (0, 1)]
    | 0x07, 0x00 | 0x07, 0x01 => [(56, 8), (0, 8)]
    | 0x08, 0x00 => [(56, 8), (32, 9), (0, 25)]
    | 0x09, 0x00 => [(56, 8), (40, 10), (24, 14), (16, 2), (8, 1), (0, 2)]
    | 0x09, 0x01 => [(0, 64)]
    | 0x0A, 0x00 => [(56, 8), (0, 11)]
    | 0x0A, 0x01 | 0x0A, 0x02 | 0x0A, 0x03 => [(56, 8), (0, 32)]
    | 0x0A, 0x04 => [(0, 64)]
    | 0x0B, 0x00 => [(56, 8), (16, 8), (9, 4), (0, 2)]
    | 0x0B, 0x01 => [(56, 8), (0, 48)]
    | 0x0C, 0x00 => [(56, 8), (24, 3), (0, 11)]
    | 0x0D, 0x00 => [(56, 8), (0, 1)]
    | 0x0D, 0x01 => [(56, 8), (0, 32)]
    | 0x0D, 0x02 => [(56, 8), (40, 3), (16, 10), (0, 10)]
    | 0x0E, 0x00 => [(56, 8), (16, 4), (12, 2), (0, 8)]
    | 0x0E, 0x01 => [(56, 8), (0, 48)]
    | 0x0F, 0x00 => [(48, 16), (10, 1), (3, 1), (0, 2)]
    | 0x0F, 0x01 => [(56, 8), (16, 16), (0, 8)]
    | 0x0F, 0x02 => [(0, 64)]
    | 0x10, 0x00 => [(56, 8), (48, 2), (0, 44)]
    | 0x10, 0x01 => [(56, 8), (0, 48)]
    | 0x10, 0x02 => [(40, 24), (0, 32)]
    | 0x11, 0x00 => [(56, 8), (0, 3)]
    | 0x11, 0x01 => [(40, 24), (0, 31)]
    | 0x11, 0x02 => [(54, 10), (32, 12), (24, 4), (16, 5), (8, 3), (0, 5)]
    | 0x11, 0x03 => [(56, 8), (0, 48)]
    | 0x12, 0x00 => [(16, 48), (7, 1), (4, 1), (0, 2)]
    | 0x12, 0x01 => [(56, 8), (0, 48)]
    | 0x12, 0x02 | 0x12, 0x03 => [(0, 64)]
    | 0x12, 0x04 => [(56, 8), (0, 33)]
    | 0x13, 0x00 => [(56, 8), (0, 48)]
    | 0x14, 0x00 => [(56, 8), (16, 4), (8, 2), (4, 2), (0, 1)]
    | 0x14, 0x01 => [(56, 8), (32, 16), (16, 1), (8, 5), (1, 2)]
    | 0x14, 0x02 => [(56, 8), (38, 10), (0, 35)]
    | 0x14, 0x03 => [(56, 8), (0, 16)]
    | 0x15, 0x00 => [(56, 8), (32, 8), (16, 8)]
    | 0x15, 0x01 => [(56, 8), (16, 32), (8, 4), (0, 3)]
    | 0x15, 0x02 => [(56, 8), (0, 4)]
    | _, _ => [(0, 64)]
  allBits - bits used

/-- The value that a masked write would leave where every field may be written (R459). -/
def mergeBits (old data mask : Word64) : Word64 := (old &&& ~~~mask) ||| (data &&& mask)

/-- CREEL.CTL.MODE may not be written now (R444, R472). -/
def badMode (y : Sys) (from_ i : Nat) : Bool :=
  i == 0x80 || creelIndex i == from_ || (List.range 8).any (fun l => !(laneAt y (laneKey (creelIndex i) l)).queue.isEmpty)

/-- Records of a trace region (R558). -/
def regionRecords (t : TraceSt) : Nat := 2 ^ (t.regionLog2 - 5)

/-- TRACE_PTR.RP may not take a value (R559). -/
def badRp (y : Sys) (i rp : Nat) : Bool :=
  y.obs.trace.trigger ||
  decide (regionRecords y.obs.trace < ((mapGet ({} : TraceUnit) y.obs.units i).wp + 2 ^ 28 - rp) % 2 ^ 28)

/-- A condition of the owning chapter refuses the write of one instance, with PARAM_RANGE (R266, R267, R444, R462, R470,
R472, R559, R651). -/
def badWrite (p : Perm) (y : Sys) (from_ b r i : Nat) (data mask : Word64) : Bool :=
  let v := mergeBits (regValue p y b r i) data mask
  let sel := fun (lo len : Nat) => fld mask lo len != 0
  match b, r with
  | 0x05, 0x02 => fld v 0 16 == 0
  | 0x06, 0x00 => fld v 16 16 == 0 || decide (256 < fld v 16 16)
  | 0x0D, 0x00 => sel 0 1 && badMode y from_ i
  | 0x0F, 0x01 => fld v 16 16 == 0 || fld v 0 8 == 0
  | 0x12, 0x02 => sel 0 28 && badRp y i (fld v 0 28)
  | 0x15, 0x00 => decide (fld v 32 8 < 75) || decide (93 < fld v 32 8) || decide (fld v 16 8 < 85) || decide (103 < fld v 16 8)
  | _, _ => false

/-- Clearing RUNAHEAD_EN cancels the run-ahead of a die's yarn engines (R242, R267). -/
def cancelRunahead (d : Nat) (y : Sys) : Sys :=
  ((y.yarn.map (fun p => p.1)).filter (fun n => n / 128 == d)).foldl (fun z n => dropCopies n (fun _ => true) false z) y

/-- Write one instance of a register under the access codes of its fields (R13, R459). -/
def writeReg (p : Perm) (b r i : Nat) (data mask : Word64) (y : Sys) : Sys :=
  let v := mergeBits (regValue p y b r i) data mask
  let one := fun (k : Nat) => flag (data &&& mask) k
  let w32 := BitVec.ofNat 32 (fld v 0 32)
  match b, r with
  | 0x01, 0x02 => { y with hs := { y.hs with takeoverEvent := y.hs.takeoverEvent && !one 1 } }
  | 0x04, 0x00 => { y with acc := { y.acc with srThreshold := w32 } }
  | 0x04, 0x01 => { y with acc := { y.acc with srSeedLo := w32 } }
  | 0x04, 0x02 => { y with acc := { y.acc with srSeedHi := w32 } }
  | 0x05, 0x01 => onDie i (fun m => { m with errValid := m.errValid && !one 55, errOverrun := m.errOverrun && !one 54 }) y
  | 0x05, 0x02 => onDie i (fun m => { m with scrubEn := flag v 16, scrubPeriod := BitVec.ofNat 16 (fld v 0 16) }) y
  | 0x06, 0x00 =>
    let y := onDie i (fun m => { m with runaheadEn := flag v 0, defaultKib := BitVec.ofNat 16 (fld v 16 16) }) y
    if flag v 0 then y else cancelRunahead i y
  | 0x07, 0x00 => { y with upd := { y.upd with lossScale := BitVec.ofNat 8 (fld v 0 8) } }
  | 0x09, 0x00 => onPort i (fun q => { q with faultEvent := q.faultEvent && !one 8 }) y
  | 0x0A, 0x00 =>
    if fld mask 0 10 = 0 then y
    else
      let y := { y with coll := { y.coll with selfDev := BitVec.ofNat 10 (fld v 0 10), selfValid := true } }
      setAgreed (sendIdentities (List.range 64) y)
  | 0x0A, 0x01 => { y with coll := { y.coll with latePicks := w32 } }
  | 0x0A, 0x02 => { y with coll := { y.coll with keyLo := w32 } }
  | 0x0A, 0x03 => { y with coll := { y.coll with keyHi := w32 } }
  | 0x0D, 0x00 =>
    let c := creelIndex i
    { y with cr := { y.cr with mode := if flag v 0 then setAdd y.cr.mode c else setDel y.cr.mode c } }
  | 0x0D, 0x01 => setLane (laneOfInst i) { laneAt y (laneOfInst i) with stallTime := w32 } y
  | 0x0D, 0x02 =>
    let l := laneAt y (laneOfInst i)
    let y := setLane (laneOfInst i) { l with overrun := l.overrun && !one 41 } y
    { y with cr := { y.cr with statusDue := y.cr.statusDue || (l.overrun && one 41) } }
  | 0x0F, 0x01 => { y with cr := { y.cr with timeoutMs := BitVec.ofNat 16 (fld v 16 16), flushUs := BitVec.ofNat 8 (fld v 0 8) } }
  | 0x11, 0x02 => { y with bur := { y.bur with failValid := y.bur.failValid && !one 55, failOverrun := y.bur.failOverrun && !one 54 } }
  | 0x12, 0x02 => { y with obs := { y.obs with units := mapMod {} y.obs.units i (fun u => { u with rp := fld v 0 28 }) } }
  | 0x15, 0x00 => { y with pwr := { y.pwr with dramThrottle := BitVec.ofNat 8 (fld v 32 8), logicThrottle := BitVec.ofNat 8 (fld v 16 8) } }
  | _, _ => y

end Sys2Proof.Machine
end

