-- ==== Sys2Proof/Machine/Shutdown.lean ====
section
/-! DEFINITION. The shutdown sequence (R625, R653). -/

namespace Sys2Proof.Machine

open Sys2Proof

/-- The command was read from a creel of the session. -/
def ofSession (svc : Bool) (c : Cmd) : Bool := (c.creel == 64) == svc

/-- Steps 1 and 2 for one session: its unread packets go, and they and its commands are counted (R625). -/
def stopSession (svc : Bool) (y : Sys) : Sys :=
  let d := discardUnread svc y
  let n := d.1 + (y.cm.cmds.filter (ofSession svc)).length
  let ss := sessOf d.2 svc
  setSess d.2 svc { ss with discarded := ss.discarded + n, held := [], forced := none, deferred := [] }

/-- Step 2: every running command stops, and the units are free (R625). -/
def stopCommands (y : Sys) : Sys :=
  let y := abortEngines (y.cm.cmds.map (fun c => c.id)) y
  { y with cm := { y.cm with cmds := [], commitWait := none, handover := none },
           stp := { y.stp with prep := none, weave := none, ckpts := [], sealLanes := [] },
           mem := { y.mem with remote := [], retrain := none },
           coll := { y.coll with buckets := [], holding := [] },
           lnk := { y.lnk with reset := none },
           obs := { y.obs with reads := [] },
           sec := { y.sec with resets := [], transfer := { y.sec.transfer with active := false, data := [] } } }

/-- Step 3 for one session (R469, R625). -/
def endOpen (svc : Bool) (y : Sys) : Sys := if (sessOf y svc).state = .open then sessionEnded svc 0x02 y else y

/-- The clean-shutdown marker in the MRAM of a headstock (R625). -/
def markClean (h : Nat) (y : Sys) : Sys := onOwn h (fun o => { o with clean := true }) y

/-- Steps 4 and 5: the marker in the active headstock's MRAM, and in the standby's while it is READY, DONE and PWRDN_ACK_N
(R625). -/
def finishShutdown (y : Sys) : Sys :=
  let y := markClean y.hs.active (if y.hs.standby = .ready then markClean (1 - y.hs.active) y else y)
  { y with pwr := { y.pwr with sdDone := true, pwrdnAck := true, stopped := true } }

/-- A shutdown in progress takes steps 3 to 5, on the headstock that is active then: the new one after a takeover (R625;
log 67). -/
def continueShutdown (y : Sys) : Sys :=
  if y.pwr.sdSource = 0 ∨ y.pwr.sdDone = true ∨ answers y = false then y
  else finishShutdown (endOpen true (endOpen false y))

/-- Steps 1 and 2 of the shutdown sequence with its source, 1 for the register and 2 for the pin. A second request has no
effect, but both in one cycle, before time passes, read as PIN (R625). -/
def shutDown (source : BitVec 2) (y : Sys) : Sys :=
  if y.pwr.sdDone then y
  else if y.pwr.sdSource ≠ 0 then (if source = 2 then { y with pwr := { y.pwr with sdSource := 2 } } else y)
  else
    let y := { y with pwr := { y.pwr with sdSource := source } }
    stopCommands (stopSession true (stopSession false y))

/-- The reply of the REG_WRITE that requests a shutdown leaves before the sequence begins (R625). -/
def requestShutdown (c : Cmd) (y : Sys) : Sys :=
  let y := complete c .ok [1] y
  shutDown 1 (flushHeld (c.creel == 64) y)

/-- SHDN_REQ_N (R625): low for at least 1 µs. -/
def execShdnReqN (ns : Nat) (s : State) : Host.Outcome State Fault Refusal :=
  onSys s (fun _ y => if answers y && decide (1000 ≤ ns) then shutDown 2 y else y)

end Sys2Proof.Machine
end

