-- ==== Sys2Proof/Machine/CmdInteg.lean ====
section
/-! DEFINITION. The burler, mending, the step-digest log, checkpoints and unit failures (R506 to R538). -/

namespace Sys2Proof.Machine

open Sys2Proof

/-! ### BURLER_SET, MEND_READ, STEPLOG_READ (R530 to R532) -/

/-- BURLER_SET (R513, R530): under OFF the slice in progress ends, and with it its hold of a tile position. -/
def execBurlerSet (pk : Packet) (s : State) : Host.Outcome State Fault Refusal :=
  let effect := fun (c : Cmd) (y : Sys) =>
    let off := fun (m : SMap BurlerDie) (d : Nat) => mapMod {} m d (fun b => { b with holds := none })
    let dies := if pf pk 0 0 3 = 0 then (List.range 18).foldl off y.bur.dies else y.bur.dies
    finish c.id .ok [BitVec.ofNat 64 y.bur.fraction.toNat]
      { y with bur := { y.bur with fraction := BitVec.ofNat 3 (pf pk 0 0 3), dies := dies } }
  onSys s (fun _ y => execCommand 0x0940 [bits [(0, 3)]] (fun pk => badCode pk 0 0 3 [0, 1, 2, 3, 4]) always noCheck effect pk y)

/-- Bitmap over the 17 positions of a reed. -/
def positionMap (test : Nat → Bool) : Nat := (List.range 17).foldl (fun n q => n + b2n (test q) * 2 ^ q) 0

/-- The part of a mending record for one reed (R531). -/
def reedRecord (p : Perm) (y : Sys) (reed : Nat) : List Byte :=
  (List.range 16).flatMap (fun j => leBytes 1 ((positionOf y (16 * reed + j)).getD 0xFF)) ++
  leBytes 3 (positionMap (posFailed p reed)) ++ leBytes 1 ((spareOf p y reed).getD 0xFF) ++
  leBytes 3 (positionMap (fun q => p.factory.elem (17 * reed + q))) ++ leBytes 1 0

/-- The 208-byte mending record of a die (R531). -/
def mendRecord (p : Perm) (y : Sys) (d : Nat) : List Byte :=
  leBytes 1 0x10 ++ leBytes 1 d ++ leBytes 1 (activeShuttles y d) ++ leBytes 1 (sparesLeft p y d) ++
  leBytes 4 (mapGet 0 y.nv.mends d) ++ leBytes 8 0 ++ (List.range 8).flatMap (fun r => reedRecord p y (8 * d + r))

/-- Write a record on behalf of a command, unless it falls on a face range (R178, R277). -/
def writeOut (c : Cmd) (a : Nat) (bs : List Byte) (res : List Word64) (y : Sys) : Sys :=
  if protectedHit y true a bs.length then finish c.id .stateFaceWrite [] y
  else finish c.id .ok res (writeBytes (some c.id) a bs y)

/-- A command that writes n bytes at a can go on: no channel of them retrains (R254). -/
def writeReady (a : Nat) (n : Sys → Nat) (_ : Cmd) (y : Sys) : Bool := !rangeHeld y a (n y)

/-- MEND_READ (R254, R531). -/
def execMendRead (pk : Packet) (s : State) : Host.Outcome State Fault Refusal :=
  let d := pf pk 0 0 5
  let dst := pw pk 1
  let check := fun (_ : Cmd) (_ : Sys) => firstFail [(decide (17 < d), .paramRange), (!aligned64 dst || !inDram dst 208, .addrRange)]
  onSys s (fun p y => execCommand 0x0941 [bits [(0, 5)], allBits] (fun _ => false) (writeReady dst (fun _ => 208)) check
    (fun c y => writeOut c dst (mendRecord p y d) [BitVec.ofNat 64 (activeShuttles y d + sparesLeft p y d * 2 ^ 8)] y) pk y)

/-- The 64 bytes of an entry of the step-digest log (R522). -/
def stepLogBytes (e : StepLog) : List Byte :=
  leBytes 1 0x10 ++ leBytes 1 e.outcome ++ leBytes 1 e.dirty.toNat ++ leBytes 1 e.twinDirty.toNat ++ leBytes 4 e.seq ++
  leBytes 6 e.step ++ leBytes 1 e.mode ++ leBytes 1 0 ++ leBytes 8 e.sd.toNat ++ leBytes 8 e.cd.toNat ++ leBytes 8 e.st.toNat ++
  leBytes 8 e.twinDigest.toNat ++ leBytes 6 e.preparePick ++ leBytes 2 0 ++ leBytes 6 e.endPick ++ leBytes 2 0

/-- STEPLOG_READ (R254, R532): executed in the sequence of the step commands. -/
def execSteplogRead (pk : Packet) (s : State) : Host.Outcome State Fault Refusal :=
  let max := pf pk 1 0 13
  let dst := pw pk 2
  let es := fun (y : Sys) => (y.nv.steplog.filter (fun e => decide (pf pk 0 0 48 ≤ e.step))).take max
  let check := fun (_ : Cmd) (y : Sys) => firstFail
    [(max == 0 || decide (4096 < max), .paramRange), (!aligned64 dst || !inDram dst (64 * (es y).length), .addrRange)]
  let newest := fun (y : Sys) => match y.nv.steplog.getLast? with
    | none => 0
    | some e => e.seq
  onSys s (fun _ y => execCommand 0x0942 [bits [(0, 48)], bits [(0, 13)], allBits] (fun _ => false)
    (fun c y => stepTurn c y && writeReady dst (fun y => 64 * (es y).length) c y) check
    (fun c y => writeOut c dst ((es y).flatMap stepLogBytes) [BitVec.ofNat 64 (es y).length, BitVec.ofNat 64 (newest y)] y) pk y)

/-! ### Checkpoints (R524 to R528, R533) -/

/-- Bytes 0 to 27 of a checkpoint header (R524). -/
def ckptHead (y : Sys) (cflags entry step offset n : Nat) : List Byte :=
  leBytes 1 0x10 ++ leBytes 1 cflags ++ leBytes 1 entry ++ leBytes 1 (entryAt y entry).kind ++ leBytes 2 y.coll.selfDev.toNat ++
  leBytes 6 step ++ leBytes 4 0 ++ leBytes 8 offset ++ leBytes 4 n

/-- A checkpoint packet: header with its CRC, and payload (R524). -/
def ckptPacket (y : Sys) (cflags entry step offset : Nat) (payload : List Byte) : WarpMsg :=
  let h := ckptHead y cflags entry step offset payload.length
  .ckpt (h ++ leBytes 4 (crc32c (h ++ payload)) ++ payload)

/-- The DATA packets of a range in ascending offset (R526). -/
def sendData (x : Ckpt) : Nat → Nat → Sys → Sys
  | 0, _, y => y
  | fuel + 1, o, y =>
    if x.offset + x.length ≤ o then y
    else
      let n := Nat.min 4096 (x.offset + x.length - o)
      let bs := readBytes y ((entryAt y x.entry).face + o) n
      sendData x fuel (o + n) (sendWarp x.port (ckptPacket y 1 x.entry x.step o bs) y)

/-- Begin a stream. -/
def addCkpt (x : Ckpt) (y : Sys) : Sys := { y with stp := { y.stp with ckpts := y.stp.ckpts ++ [x] } }

/-- A stream is over. -/
def dropCkpt (id : Nat) (y : Sys) : Sys := { y with stp := { y.stp with ckpts := y.stp.ckpts.filter (fun d => d.cmd != id) } }

/-- DIR OUT (R228, R525, R526). -/
def streamOut (x : Ckpt) (y : Sys) : Sys :=
  let a := (entryAt y x.entry).face
  match consume 5 (a + x.offset) x.length y with
  | some z => finish x.cmd .memUncorrectable [] z
  | none =>
    let x := { x with moved := x.length, digest := contentDigest y x.entry (a + x.offset) x.offset x.length }
    let y := sendData x (cdiv x.length 4096) x.offset (addCkpt x y)
    sendWarp x.port (ckptPacket y 2 x.entry x.step x.offset (leBytes 8 x.length ++ leBytes 8 x.digest.toNat)) y

/-- DIR IN: one REQUEST packet leaves; its STEP is a free value (R524, R526; log 1). -/
def streamIn (x : Ckpt) (y : Sys) : Sys :=
  let r := freshWord y
  let m := ckptPacket y 4 x.entry (r.1.toNat % 2 ^ 48) x.offset (leBytes 8 x.length ++ leBytes 8 0)
  sendWarp x.port m (addCkpt x r.2)

/-- The stream of a port is cancelled; the CANCEL waits for its reply (R528). -/
def cancelStream (c : Cmd) (port : Nat) (y : Sys) : Sys :=
  match y.stp.ckpts.find? (fun d => d.port == port) with
  | none => y
  | some d =>
    let y := modCmd c.id (fun e => { e with cover := [d.cmd] }) y
    finish d.cmd .ckptCancelled [] (dropCkpt d.cmd y)

/-- A stream runs on the port (R528). -/
def streamOn (y : Sys) (port : Nat) : Bool := y.stp.ckpts.any (fun d => d.port == port)

/-- CKPT_STREAM (R254, R526 to R528, R533). -/
def execCkptStream (pk : Packet) (s : State) : Host.Outcome State Fault Refusal :=
  let dir := pf pk 0 56 2
  let port := pf pk 0 8 6
  let e := pf pk 0 0 8
  let off := pf pk 1 0 40
  let len := fun (y : Sys) => if pf pk 2 0 40 = 0 then (entryAt y e).length - off else pf pk 2 0 40
  let check := fun (_ : Cmd) (y : Sys) =>
    let st := (entryAt y e).state
    if dir = 2 then firstFail [(e != 0 || off != 0 || pf pk 2 0 40 != 0, .paramRange), (!streamOn y port, .ckptState)]
    else firstFail
      [(off % 4096 != 0 || pf pk 2 0 40 % 64 != 0 || decide ((entryAt y e).length < off + len y) || twinPorts.elem port ||
          y.coll.routes.any (fun r => r.2.loaded && (strandPorts r.2).elem port), .paramRange),
       (if dir = 0 then st != .active else st != .loading, .stateMap),
       (!portUp y port || weaving y || (dir == 1 && stepOpen y), .ckptState)]
  let ready := fun (c : Cmd) (y : Sys) => dir == 2 || (check c y).isSome ||
    (!streamOn y port && (dir == 1 || !rangeHeld y ((entryAt y e).face + off) (len y)))
  let effect := fun (c : Cmd) (y : Sys) =>
    let x : Ckpt := { cmd := c.id, inward := dir == 1, port := port, entry := e, offset := off, length := len y, step := y.stp.lastCommit,
                      device := y.coll.selfDev.toNat }
    match dir with
    | 0 => streamOut x y
    | 1 => streamIn x y
    | _ => cancelStream c port y
  onSys s (fun _ y => execCommand 0x0943 [bits [(56, 2), (8, 6), (0, 8)], bits [(0, 40)], bits [(0, 40)]]
    (fun pk => badCode pk 0 56 2 [0, 1, 2]) ready check effect pk y)

/-- A checkpoint packet that R524 drops: header checks, flags, payload bytes. -/
def badCkpt (x : Ckpt) (b : List Byte) : Bool :=
  let n := at8 b 24 4
  decide (b.length < 32) || at8 b 28 4 != crc32c (b.take 28 ++ b.drop 32) || at8 b 0 1 != 0x10 || at8 b 12 4 != 0 ||
  at8 b 21 3 != 0 || !([1, 2].elem (at8 b 1 1)) || at8 b 4 2 != x.device || at8 b 2 1 != x.entry ||
  b.length != 32 + n || (if at8 b 1 1 = 1 then n % 64 != 0 || decide (n < 64) || decide (4096 < n) else n != 16)

/-- Drop a checkpoint packet (R524). -/
def dropPacket (port : Nat) (y : Sys) : Sys := onPort port (fun p => { p with badHdr := satAt (umax 8) (p.badHdr + 1) }) y

/-- A checkpoint packet arrives on a port (R524): a packet that no stream takes is dropped and counted. -/
def onCkpt (cflags port : Nat) (m : WarpMsg) (effect : Ckpt → List Byte → Sys → Sys) (y : Sys) : Sys :=
  match m with
  | .ckpt b =>
    if isUp y && portUp y port then
      match y.stp.ckpts.find? (fun c => c.port == port && c.inward) with
      | none => dropPacket port y
      | some x => if badCkpt x b then dropPacket port y else if at8 b 1 1 = cflags then effect x b y else y
    else y
  | _ => y

/-- The content digest of bytes of an entry at an offset (R525). -/
def bytesDigest (y : Sys) (entry o : Nat) (bs : List Byte) : Word64 :=
  (List.range (bs.length / 4)).foldl (fun d i => d + mix (digestKey y) entry (o / 4 + i) (at8 bs (4 * i) 4)) 0

/-- DATA is written through the face range of the LOADING entry (R525, R526); a packet outside the entry, or of an entry
that no longer loads, is not written (log 36), and one whose channel retrains waits (R254). -/
def takeData (x : Ckpt) (b : List Byte) (y : Sys) : Sys :=
  let o := at8 b 16 5
  let bs := b.drop 32
  let e := entryAt y x.entry
  if rangeHeld y (e.face + o) bs.length then y
  else if e.state = .loading ∧ o + bs.length ≤ e.length then
    let x' := { x with moved := x.moved + bs.length, digest := x.digest + bytesDigest y x.entry o bs }
    let y := writeBytes none (e.face + o) bs y
    { y with stp := { y.stp with ckpts := y.stp.ckpts.map (fun d => if d.cmd = x.cmd then x' else d) } }
  else y

/-- CKPT_DATA (R524 to R526). -/
def execCkptData (port : Nat) (m : WarpMsg) (s : State) : Host.Outcome State Fault Refusal :=
  onSys s (fun _ y => onCkpt 1 port m takeData y)

/-- CKPT_END (R524, R526, R533). -/
def execCkptEnd (port : Nat) (m : WarpMsg) (s : State) : Host.Outcome State Fault Refusal :=
  onSys s (fun _ y => onCkpt 2 port m (fun x b y =>
    finish x.cmd .ok [BitVec.ofNat 64 x.moved, x.digest, BitVec.ofNat 64 (at8 b 6 6), BitVec.ofNat 64 (at8 b 40 8)] (dropCkpt x.cmd y)) y)

/-! ### The burler (R510 to R515) -/

/-- Replace the burler of a die. -/
def setBur (d : Nat) (x : BurlerDie) (y : Sys) : Sys := { y with bur := { y.bur with dies := mapSet {} y.bur.dies d x } }

/-- The logical shuttle at a position, positions numbered over the device; none for a spare (R41). -/
def shuttleAt (y : Sys) (pos : Nat) : Option Nat :=
  ((List.range 16).map (fun j => 16 * (pos / 17) + j)).find? (fun n => positionOf y n == some (pos % 17))

/-- The position of logical shuttle n over the device. -/
def devicePos (y : Sys) (n : Nat) : Option Nat := (positionOf y n).map (fun q => 17 * (n / 16) + q)

/-- The position under test: the first out-of-turn one, else that of the rotation (R511, R512). -/
def underTest (y : Sys) (d : Nat) : Option Nat :=
  match (burDie y d).outOfTurn with
  | p :: _ => some p
  | [] => devicePos y (128 * d + nextSlot y d (burDie y d).testing)

/-- The burler of a die runs tests (R486, R512, R518, R530). -/
def burlerRuns (y : Sys) (d : Nat) : Bool :=
  isUp y && decide (d < 18) && !dieStopped y d && y.bur.fraction != 0 && (burDie y d).mend.isNone

/-- No accumulation holds the tile position (R101, R513). -/
def tileClosed (p : TilePos) : Bool := p.exact.status == .closed && p.narrow.all (fun t => t.status == .closed)

/-- BURLER_SLICE (R513): the slice before it ends; a slice that needs a tile position takes a closed one or waits. -/
def execBurlerSlice (die : Nat) (wantsTile : Bool) (s : State) : Host.Outcome State Fault Refusal :=
  onSys s (fun _ y =>
    if burlerRuns y die then
      let b := burDie y die
      match (underTest y die).bind (shuttleAt y) with
      | none => setBur die { b with holds := none } y
      | some n =>
        if wantsTile then
          match (List.range 8).find? (fun t => tileClosed (tileAt y n t)) with
          | none => setBur die { b with holds := none, delayed := satAt (umax 8) (b.delayed + 1) } y
          | some t => setBur die { b with holds := some (n, t) } y
        else setBur die { b with holds := none } y
    else y)

/-- The test under way is over: the next position of the rotation, or what an out-of-turn test interrupted (R511, R512). -/
def endTest (d : Nat) (y : Sys) : Sys :=
  let b := burDie y d
  match b.outOfTurn with
  | _ :: r => setBur d { b with outOfTurn := r, holds := none } y
  | [] =>
    let k := nextSlot y d b.testing
    let n := nextSlot y d (k + 1)
    setBur d { b with testing := n, holds := none, rounds := if n ≤ k then satAt (umax 24) (b.rounds + 1) else b.rounds } y

/-- SOURCE and ARG of a BURLER_FAIL notice (R538). -/
def failArg (pos part : Nat) : Nat := pos % 17 + pos / 17 % 8 * 2 ^ 8 + pos / 17 / 8 * 2 ^ 16 + part * 2 ^ 24

/-- What a failed test does at once, the mend apart (R515, R561, R573, R580). -/
def reportFail (n : Option Nat) (pos part : Nat) (y : Sys) : Sys :=
  let src := n.getD 0xFFFF
  let clean := mapGet 0 y.bur.cleanPicks pos - 1
  let bur := if y.bur.failValid then { y.bur with failOverrun := true }
    else { y.bur with failValid := true, failShuttle := n.getD 0xFFF, failPart := part, failPosition := pos, failClean := clean }
  let y := { y with bur := bur }
  let y := if stepOpen y then setDirty 7 y else y
  let st := if stepOpen y then openStep y else 0
  let y := traceFire 6 0 26 (stampNow y) (notice 0x0A src 0 (failArg pos part) st y)
  let y := onLife (fun l => { l with burlerFails := inc32 l.burlerFails }) (recordEvent 3 0x0031 src (failArg pos part) y)
  let d := pos / 17 / 8
  setBur d { burDie y d with fails := satAt (umax 8) ((burDie y d).fails + 1) } y

/-- Mark a position failed, for good (R518, R520). -/
def markFailed (pos : Nat) (p : Perm) : Perm := { p with failed := setAdd p.failed pos }

/-- ARG of a MENDING notice (R538). -/
def mendArg (failed : Nat) (spare : Option Nat) : Nat :=
  failed % 17 + (spare.getD 0x1F) * 2 ^ 8 + b2n spare.isNone * 2 ^ 16

/-- Slot n moves to a spare position or is lost, with the notice and the record (R518, R519, R538, R573). -/
def moveSlot (n failed : Nat) (spare : Option Nat) (y : Sys) : Sys :=
  let v := match spare with
    | none => 99
    | some q => if q = n % 16 then 0 else q + 1
  let nv := { y.nv with slots := mapSet 0 y.nv.slots n v, mends := if spare.isSome then mapMod 0 y.nv.mends (n / 128) inc32 else y.nv.mends }
  let st := if stepOpen y then openStep y else 0
  let arg := mendArg failed spare
  recordEvent 1 0x0032 n arg (notice 0x09 n 0 arg st { y with nv := nv })

/-- Start the mend of logical shuttle n, whose position failed (R518, R519). -/
def startMend (p : Perm) (n pos : Nat) (y : Sys) : Sys :=
  match spareOf p y (pos / 17) with
  | none => moveSlot n pos none y
  | some q =>
    let d := n / 128
    setBur d { burDie y d with mend := some { slot := n % 128, failed := pos, spare := q } } y

/-- BURLER_TEST_DONE (R510, R511, R515): the digest of the position under test against the expected one. -/
def execBurlerTestDone (die : Nat) (part : Nat) (digest : Word64) (expected : Word64) (s : State) :
    Host.Outcome State Fault Refusal :=
  onAll s (fun p y =>
    match underTest y die with
    | none => (p, y)
    | some pos =>
      if burlerRuns y die && decide (1 ≤ part ∧ part ≤ 5) then
        let n := shuttleAt y pos
        let y := endTest die y
        if digest = expected then (p, { y with bur := { y.bur with cleanPicks := mapPut y.bur.cleanPicks pos (pickNow y + 1) } })
        else
          let p := markFailed pos p
          let y := reportFail n pos part y
          match n with
          | none => (p, y)
          | some n => (p, startMend p n pos (failTiles n y))
      else (p, y))

/-- The die has a mend in progress, and the device and the die's clocks run (R486). -/
def mendOf (y : Sys) (d : Nat) : Option Mend := if isUp y && !dieStopped y d then (burDie y d).mend else none

/-- MEND_DONE (R518, R519, R537): the test of the spare ends; the part that failed is a free value (log 1). -/
def execMendDone (die : Nat) (pass : Bool) (s : State) : Host.Outcome State Fault Refusal :=
  onAll s (fun p y =>
    match mendOf y die with
    | none => (p, y)
    | some m =>
      let n := 128 * die + m.slot
      let y := setBur die { burDie y die with mend := none } y
      if pass then
        let clean := mapPut y.bur.cleanPicks (17 * (n / 16) + m.spare) (pickNow y + 1)
        (p, moveSlot n m.failed (some m.spare) { y with bur := { y.bur with cleanPicks := clean } })
      else
        let pos := 17 * (n / 16) + m.spare
        let r := freshWord y
        (markFailed pos p, moveSlot n m.failed none (failTiles n (reportFail none pos (r.1.toNat % 5 + 1) r.2))))

/-! ### Unit failures (R403, R451, R508) -/

/-- Opcodes that run on a die's bobbin engines. -/
def bobbinOps : List Nat := [0x0100, 0x0101, 0x0500, 0x0510, 0x0511, 0x0512]

/-- A running command that occupies the bobbin engines of a die: it is executed there, reduces there, or is a bucket in
conversion (R214, R335, R359, R508). -/
def onBobbins (y : Sys) (d : Nat) (c : Cmd) : Bool :=
  (traceUnitOf c.op c.pkt == d && (bobbinOps.elem c.op || (decide (0x0310 ≤ c.op ∧ c.op ≤ 0x0312) && pf c.pkt 0 56 2 == 1))) ||
  y.coll.buckets.any (fun b => b.cmd == c.id && b.die == d && !b.gather && !b.converted && !b.finished)

/-- A running command that a failed unit executes: class 5 a bobbin engine, 6 a command processor, 8 and 9 a router, 0xA
the link adder of a port (R508, R547). -/
def onFailedUnit (y : Sys) (cls inst : Nat) (c : Cmd) : Bool :=
  c.phase == .running && (match cls with
  | 5 => onBobbins y (inst / 64) c
  | 6 => traceUnitOf c.op c.pkt == inst
  | 0xA => (c.op == 0x0410 || c.op == 0x0411) && (strandPorts (routeAt y (pf c.pkt 0 40 4))).any (fun w => w / 8 == inst / 16)
  | _ => false)

/-- Instances of the classes whose units check their control state (R508, R547). -/
def checkedUnits (cls : Nat) : Nat := match cls with
  | 5 => 1152
  | 6 => 18
  | 8 => 54
  | 9 => 20
  | 0xA => 128
  | _ => 0

/-- A command ends with UNIT_FAILED. -/
def failCmd (y : Sys) (c : Cmd) : Sys :=
  match y.coll.buckets.find? (fun b => b.cmd == c.id && !b.finished) with
  | some b => failBucket b .unitFailed y
  | none => finish c.id .unitFailed [] y

/-- UNIT_FAILURE (R242, R451, R508, R573). -/
def execUnitFailure (cls : Nat) (inst : Nat) (s : State) : Host.Outcome State Fault Refusal :=
  onSys s (fun _ y =>
    if isUp y && decide (inst < checkedUnits cls) then
      let cs := y.cm.cmds.filter (onFailedUnit y cls inst)
      let y := trimAll (abortEngines (cs.map (fun c => c.id)) (cs.foldl failCmd y))
      recordEvent 4 0x0030 0 (inst + cls * 2 ^ 32) { y with pwr := { y.pwr with stopped := true } }
    else y)

end Sys2Proof.Machine
end

