-- ==== Sys2Proof/Machine/CmdFw.lean ====
section
/-! DEFINITION. Firmware commands, attestation, the debug fuse, unit resets, handover and takeover, and the end of a
retraining (R47 to R54, R253 to R255, R263, R482, R587 to R616). -/

namespace Sys2Proof.Machine

open Sys2Proof

/-! ### FW_QUERY, ATTEST, MEASURE_READ (R609 to R611, R615) -/

/-- The two result words of an image type (R615). -/
def fwWords (y : Sys) (t : Nat) : List Word64 :=
  let v := runningVersions y t
  let x := imagesOf y t
  [BitVec.ofNat 64 (v.1 * 2 ^ 32 + v.2),
   BitVec.ofNat 64 (pendingVersion y t * 2 ^ 32 + x.current * 2 ^ 20 + b2n (slotAt x (altOf x)).valid * 2 ^ 16 + pendingUnits y t)]

/-- FW_QUERY (R615). -/
def execFwQuery (pk : Packet) (s : State) : Host.Outcome State Fault Refusal :=
  onSys s (fun _ y => execCommand 0x0800 [] (fun _ => false) always noCheck
    (fun c y => finish c.id .ok ([1, 2, 3, 4, 5].flatMap (fwWords y)) y) pk y)

/-- Bytes cut or filled with zero to a length. -/
def fixLen (n : Nat) (l : List Byte) : List Byte := (l ++ List.replicate n 0).take n

/-- The sum of a count over the loom dies. -/
def overDies (f : Nat → Nat) : Nat := (List.range 18).foldl (fun n d => n + f d) 0

/-- The 16 bytes of an image type in a report (R610). -/
def reportFw (p : Perm) (y : Sys) (t : Nat) : List Byte :=
  let v := runningVersions y t
  leBytes 4 v.1 ++ leBytes 4 v.2 ++ leBytes 2 (floorOf p t) ++ leBytes 4 (pendingVersion y t) ++ leBytes 2 0

/-- Bytes 0 to 511 of a report (R610). -/
def reportBody (p : Perm) (y : Sys) (nonce : List Byte) (seq : Nat) : List Byte :=
  let l := y.nv.life
  leBytes 1 0x10 ++ leBytes 1 0x01 ++ leBytes 2 0 ++ leBytes 4 seq ++ leBytes 8 identReg ++ nonce ++ sha256 Config.identityKey ++
  (List.range 8).flatMap (measOf y y.hs.active) ++ [1, 2, 3, 4, 5].flatMap (reportFw p y) ++
  leBytes 8 (regValue p y 0x14 0x00 0).toNat ++ leBytes 8 (regValue p y 0x14 0x01 0).toNat ++ leBytes 4 l.hours ++
  leBytes 4 l.pcycles ++ leBytes 4 l.unclean ++ leBytes 4 l.takeovers ++ leBytes 4 l.burlerFails ++
  leBytes 4 (overDies (mapGet 0 y.nv.mends)) ++ leBytes 2 (overDies (activeShuttles y)) ++ leBytes 2 (overDies (sparesLeft p y)) ++
  leBytes 1 y.hs.active ++ leBytes 51 0

/-- The 896 bytes of a report (R610). -/
def reportBytes (p : Perm) (y : Sys) (nonce : List Byte) (seq : Nat) : List Byte :=
  let b := reportBody p y nonce seq
  b ++ fixLen 384 (Config.reportSignature b)

/-- The device certificate, at most 2,048 bytes (R608). -/
def certificate : List Byte := Config.deviceCertificate.take 2048

/-- Deliver a report, and the certificate where asked, as a REPORT frame on the service port (R596, R609). -/
def sendReport (tag : Nat) (rep cert : List Byte) (y : Sys) : Sys :=
  if y.svc.state = .none then y
  else sendSeq true 0x45 (leBytes 4 tag ++ leBytes 2 rep.length ++ leBytes 2 cert.length ++ rep ++ cert) y

/-- ATTEST (R254, R591, R609, R610). -/
def execAttest (pk : Packet) (s : State) : Host.Outcome State Fault Refusal :=
  let frame := pf pk 0 0 1 == 1
  let cert := if pf pk 0 1 1 = 1 then certificate else []
  let dst := pw pk 5
  let nonce := (List.range 4).flatMap (fun i => leBytes 8 (pw pk (i + 1)))
  let check := fun (c : Cmd) (_ : Sys) => firstFail
    [(frame && (c.creel != 64 || dst != 0), .paramRange), (!frame && (!aligned64 dst || !inDram dst (896 + cert.length)), .addrRange)]
  let effect := fun (p : Perm) (c : Cmd) (y : Sys) =>
    let seq := (y.sec.reportSeq + 1) % 2 ^ 32
    let y := { y with sec := { y.sec with reportSeq := seq } }
    let rep := reportBytes p y nonce seq
    let res := [BitVec.ofNat 64 (seq * 2 ^ 32 + cert.length * 2 ^ 16 + rep.length)]
    if frame then finish c.id .ok res (sendReport c.pkt.tag.toNat rep cert y)
    else writeOut c dst (rep ++ cert) res y
  let layout := [bits [(1, 1), (0, 1)], allBits, allBits, allBits, allBits, allBits]
  onSys s (fun p y => execCommand 0x0820 layout (fun _ => false)
    (fun c y => frame || writeReady dst (fun _ => 896 + cert.length) c y) check (effect p) pk y)

/-- MEASURE_READ (R254, R588, R611). -/
def execMeasureRead (pk : Packet) (s : State) : Host.Outcome State Fault Refusal :=
  let max := pf pk 0 0 11
  let dst := pw pk 1
  let evs := fun (y : Sys) => ((y.sec.log.filter (fun e => e.1 == y.hs.active)).map (fun e => e.2)).take max
  let check := fun (_ : Cmd) (y : Sys) => firstFail
    [(decide (1040 < max), .paramRange), (!aligned64 dst || !inDram dst (256 + 64 * (evs y).length), .addrRange)]
  let effect := fun (c : Cmd) (y : Sys) =>
    let h := y.hs.active
    let res := [(evs y).length + mapGet 0 y.sec.logged h % 2 ^ 32 * 2 ^ 16, mapGet 0 y.sec.lost h % 2 ^ 32]
    writeOut c dst ((List.range 8).flatMap (measOf y h) ++ (evs y).flatten) (res.map (BitVec.ofNat 64)) y
  onSys s (fun _ y => execCommand 0x0821 [bits [(0, 11)], allBits] (fun _ => false)
    (writeReady dst (fun y => 256 + 64 * (evs y).length)) check effect pk y)

/-! ### FUSE_DEBUG_OFF (R612, R613) -/

/-- The confirming command matches the ARM: creel, time and CODE (R612). -/
def confirms (c : Cmd) (y : Sys) (code : Nat) : Bool :=
  y.sec.armed && y.sec.armCreel == c.creel && decide (y.t.timeBase ≤ y.sec.armTb + 10000000000) && y.sec.code == code

/-- PHASE of SEC.FUSE becomes IDLE (R612, R617). -/
def idleFuse (y : Sys) : Sys := { y with sec := { y.sec with armed := false } }

/-- ARM: the creel, the time base and a free CODE (R612; log 1). -/
def armFuse (c : Cmd) (y : Sys) : Sys :=
  let r := freshWord y
  let code := r.1.toNat % 2 ^ 32
  finish c.id .ok [BitVec.ofNat 64 code]
    { r.2 with sec := { r.2.sec with armed := true, armCreel := c.creel, armTb := r.2.t.timeBase, code := code } }

/-- CONFIRM: the elements that read blown afterwards are a free value, never fewer than before (R612, R613; log 1). -/
def blowFuse (c : Cmd) (p : Perm) (y : Sys) : Perm × Sys :=
  let r := freshWord (idleFuse y)
  let e := Nat.min 3 (p.elements + r.1.toNat % 4)
  let p' := { p with elements := Nat.max p.elements e }
  let y := if p'.elements = p.elements then r.2 else fuseChanged p' r.2
  (p', finish c.id (if 2 ≤ e then .ok else .fuseSequence) [BitVec.ofNat 64 e] y)

/-- FUSE_DEBUG_OFF (R612, R613). -/
def execFuseDebugOff (pk : Packet) (s : State) : Host.Outcome State Fault Refusal :=
  let phase := pf pk 0 0 2
  let code := pf pk 0 32 32
  onAll s (fun p y =>
    let check := fun (_ : Cmd) (z : Sys) => firstFail
      [(phase != 1 && code != 0, .paramRange), (debugOff p, .debugClosed),
       (phase == 0 && z.sec.armed, .fuseSequence), (phase == 2 && !z.sec.armed, .fuseSequence)]
    match meetUnit 0x0830 [bits [(0, 2), (32, 32)]] (fun pk => badCode pk 0 0 2 [0, 1, 2]) always check pk y with
    | (z, none) => (p, z)
    | (z, some c) =>
      match phase with
      | 0 => (p, armFuse c z)
      | 1 => if confirms c z code then blowFuse c p z else (p, finish c.id .fuseSequence [] (idleFuse z))
      | _ => (p, finish c.id .ok [] (idleFuse z)))

/-! ### Unit resets (R55, R600 to R602) -/

/-- An accumulation is open on a die (R101, R600). -/
def dieOpen (y : Sys) (d : Nat) : Bool := y.acc.tiles.any (fun p => p.1 / 1024 == d && !tileClosed p.2)

/-- A reset of the unit is in progress (R600). -/
def resetting (y : Sys) (standby : Bool) (die : Nat) : Bool :=
  y.sec.resets.any (fun r => r.standby == standby && (standby || r.die == die))

/-- The measurement registers of a headstock and its log start afresh (R587, R588). -/
def clearMeas (h : Nat) (y : Sys) : Sys :=
  { y with sec := { y.sec with meas := y.sec.meas.filter (fun m => m.1 / 8 != h), log := y.sec.log.filter (fun e => e.1 != h),
                               logged := mapSet 0 y.sec.logged h 0, lost := mapSet 0 y.sec.lost h 0 } }

/-- The unit enters reset (R49, R445, R587, R600). -/
def beginReset (c : Cmd) (standby : Bool) (die : Nat) (y : Sys) : Sys :=
  let now := y.t.timeBase
  let r : UnitReset := { cmd := c.id, standby := standby, die := die, start := now, began := now }
  let y := { y with sec := { y.sec with resets := y.sec.resets ++ [r] } }
  if standby then partMram (clearMeas (1 - y.hs.active) { y with hs := { y.hs with standby := .reset } })
  else { y with sec := { y.sec with heldInReset := setAdd y.sec.heldInReset die } }

/-- UNIT_RESET (R600, R602). -/
def execUnitReset (pk : Packet) (s : State) : Host.Outcome State Fault Refusal :=
  let standby := pf pk 0 8 2 == 1
  let die := pf pk 0 0 5
  let check := fun (_ : Cmd) (y : Sys) => firstFail
    [(if standby then die != 0 else decide (17 < die), .paramRange),
     (resetting y standby die || (!standby && (stepOpen y || dieOpen y die)), .unitBusy)]
  let earlier := fun (c : Cmd) (y : Sys) =>
    y.cm.cmds.any (fun d => decide (d.id < c.id) && d.phase == .running && traceUnitOf d.op d.pkt == die)
  let ready := fun (c : Cmd) (y : Sys) => standby || (check c y).isSome || !earlier c y
  onSys s (fun _ y => execCommand 0x0810 [bits [(8, 2), (0, 5)]] (fun pk => badCode pk 0 8 2 [0, 1]) ready check
    (fun c y => beginReset c standby die y) pk y)

/-- The reset of a unit is over. -/
def dropReset (r : UnitReset) (y : Sys) : Sys := { y with sec := { y.sec with resets := y.sec.resets.filter (fun q => q.cmd != r.cmd) } }

/-- Results of a UNIT_RESET (R602). -/
def resetWords (y : Sys) (r : UnitReset) : List Word64 :=
  let v := if r.standby then unitVersion y 1 (1 - y.hs.active) else unitVersion y 2 r.die
  [BitVec.ofNat 64 (v * 2 ^ 32 + b2n r.second), BitVec.ofNat 64 ((y.t.timeBase - r.start) / 1000 % 2 ^ 32)]

/-- UNIT_REPORTS_READY (R592, R600 to R602): the standby reports it once it is READY. -/
def execUnitReportsReady (standby : Bool) (die : Nat) (s : State) : Host.Outcome State Fault Refusal :=
  onAll s (fun p y =>
    match y.sec.resets.find? (fun r => r.standby == standby && (standby || r.die == die)) with
    | none => (p, y)
    | some r =>
      if isUp y = false ∨ (standby = true ∧ y.hs.standby ≠ .ready) then (p, y)
      else
        let x := if standby || r.second then (p, y) else activateUnit 3 die true (activateUnit 2 die true (p, y))
        let y := dropReset r x.2
        let y := if standby then y else { y with sec := { y.sec with heldInReset := setDel y.sec.heldInReset die } }
        (x.1, finish r.cmd .ok (resetWords y r) y))

/-- The time within which a reset unit reports ready, in ns (R600). -/
def readyWithin (standby : Bool) : Nat := if standby then 3000000000 else 50000000

/-- The records of a fallback to the image that the unit ran before (R594, R600). -/
def fallbackRecords (y : Sys) (r : UnitReset) : Sys :=
  let one := fun (z : Sys) (t u : Nat) =>
    if (imagesFor z t u).waiting && !runsPending z t u then activatedRecord t u (unitVersion z t u) true z else z
  if r.standby then one y 1 (1 - y.hs.active) else one (one y 2 r.die) 3 r.die

/-- READY_TIME_EXPIRY (R600): a second attempt from the former image, or UNIT_RESET_FAILED. -/
def execReadyTimeExpiry (standby : Bool) (die : Nat) (s : State) : Host.Outcome State Fault Refusal :=
  onSys s (fun _ y =>
    match y.sec.resets.find? (fun r => r.standby == standby && (standby || r.die == die)) with
    | none => y
    | some r =>
      if y.t.timeBase < r.began + readyWithin standby then y
      else if r.second then finish r.cmd .unitResetFailed [] (dropReset r y)
      else
        let again := y.sec.resets.map (fun q => if q.cmd = r.cmd then { q with second := true, began := y.t.timeBase } else q)
        fallbackRecords { y with sec := { y.sec with resets := again } } r)

/-! ### Migration and the standby (R49, R58, R586, R605, R606) -/

/-- The record types whose records are older than those that the active headstock's image keeps, where it may migrate them:
the standby runs the same image, or is not READY (R605, R606). -/
def toMigrate (y : Sys) : List Nat :=
  let v := unitImage y 1 y.hs.active
  if y.hs.standby = .ready ∧ unitImage y 1 (1 - y.hs.active) ≠ v then []
  else [1, 2, 3, 4, 5].filter (fun t => decide (recordsAt y.nv t < recordVersionOf v t))

/-- Records of a type: entries of the event recorder and of the step-digest log; the manual does not count those of the other
types, whose number is a free value (R605, R606; log 1). -/
def recordCount (t : Nat) (y : Sys) : Nat × Sys :=
  if t = 2 then (y.nv.evr.length, y)
  else if t = 3 then (y.nv.steplog.length, y)
  else
    let r := freshWord y
    (r.1.toNat % 2 ^ 32, r.2)

/-- The records of a type are migrated to the running image's version; every value stays (R573, R606). -/
def migrateOne (t : Nat) (y : Sys) : Sys :=
  let n := recordCount t y
  let new := recordVersionOf (unitImage y 1 y.hs.active) t
  let data := recordsAt y.nv t % 256 + new * 2 ^ 8 + n.1 * 2 ^ 32
  recordEvent 0 0x0051 t data { n.2 with nv := { n.2.nv with recVersion := mapSet 0x10 n.2.nv.recVersion t new } }

/-- Migrate every record type that is older, in ascending order (R605, R606). -/
def migrate (y : Sys) : Sys := (toMigrate y).foldl (fun z t => migrateOne t z) y

/-- 32 free bytes: a digest of records whose layout the manual does not give (log 1). -/
def freeDigest (y : Sys) : List Byte × Sys :=
  let a := freshWord y
  let b := freshWord a.2
  let c := freshWord b.2
  let d := freshWord c.2
  ([a.1, b.1, c.1, d.1].flatMap (fun w => leBytes 8 w.toNat), d.2)

/-- A headstock measures what its boot runs: ROM and fuses, the headstock image, the records, the unit images
(R586 to R588). -/
def measureBoot (p : Perm) (h : Nat) (migrated : Bool) (y : Sys) : Sys :=
  let fuses := fuseReg p y % 2 ^ 16
  let rom := measEvent 0 1 0 Config.romVersion.toNat 0 fuses (sha256 Config.romImage)
  let y := measureImage h 1 1 (unitSlot y 1 h) (extendMeas h 0 rom y)
  let d := if migrated then freeDigest y else (sha256 [], y)
  let y := extendMeas h 6 (measEvent 6 3 0 0 0 0 d.1) d.2
  [2, 3, 4, 5].foldl (fun z t => measureImage h t t (imagesOf z t).current z) y

/-- The records in the MRAM of HS0 and of HS1 (R49). -/
def mramOf (y : Sys) : MramSt × MramSt :=
  if y.hs.active = 0 then (y.nv, y.copy.getD y.nv) else (y.copy.getD y.nv, y.nv)

/-! ### The boot ROM of a headstock (R50, R586, R590, R592, R607) -/

/-- Slot k of a headstock starts: it holds an image that verifies, the slots of a list failing, and that knows the records in
the headstock's MRAM (R583, R590, R607). -/
def slotStarts (bad : List Nat) (y : Sys) (h k : Nat) : Bool :=
  let v := slotAt (ownOf y h).images k
  v.valid && !bad.elem k && knowsRecords v (if h = 0 then (mramOf y).1 else (mramOf y).2)

/-- A headstock fell back to another HEADSTOCK slot (R590, R618). -/
def fellBackAt (h t : Nat) (y : Sys) : Sys := onBoot h (fun b => { b with fallback := b.fallback ||| BitVec.ofNat 5 (2 ^ (t - 1)) }) y

/-- The boot ROM of a headstock runs the pending HEADSTOCK image, else the current one, else the alternate; none where no
slot starts (R590, R592, R607). -/
def bootRom (bad : List Nat) (h : Nat) (y : Sys) : Option Sys :=
  let im := (ownOf y h).images
  let runs := fun (k : Nat) (z : Sys) => some (onBoot h (fun b => { b with slot := k }) z)
  let drop := onOwn h (fun o => { o with images := { setSlot (altOf im) {} o.images with waiting := false } }) (fellBackAt h 1 y)
  let turn := onOwn h (fun o => { o with images := { o.images with current := altOf im } }) (fellBackAt h 1 y)
  if im.waiting then
    (if slotStarts bad y h (altOf im) then
      runs (altOf im) { y with sec := { y.sec with onPending := setAdd y.sec.onPending (unitKey 1 h) } }
    else if slotStarts bad y h im.current then runs im.current drop
    else none)
  else if slotStarts bad y h im.current then runs im.current y
  else if slotStarts bad y h (altOf im) then runs (altOf im) turn
  else none

/-- The standby comes up: it boots after PERST_N, or its unit reset is in progress; one that failed its reset stays in
reset (R58, R600). -/
def standbyComes (y : Sys) : Bool :=
  y.hs.standby == .booting || (y.hs.standby == .reset && y.sec.resets.any (fun r => r.standby))

/-- The boot ROM of a standby that comes out of its reset: the image that it ran before at the second attempt, FALLBACK set;
else the pending image, which so activates, the current one or the alternate; none where no slot starts (R58, R590, R592,
R600, R607). -/
def standbyBoots (bad : List Nat) (x : Perm × Sys) : Option (Perm × Sys) :=
  let y := x.2
  let h := 1 - y.hs.active
  let k := unitSlot y 1 h
  let was := runsPending y 1 h
  let idle := fun (y : Sys) => { y with sec := { y.sec with onPending := setDel y.sec.onPending (unitKey 1 h) } }
  if y.sec.resets.any (fun r => r.standby && r.second) then
    (if slotStarts bad y h k then some (x.1, onBoot h (fun _ => { slot := k, fallback := 1 }) y) else none)
  else (bootRom bad h (onBoot h (fun _ => {}) (idle y))).map (fun z =>
    if runsPending z 1 h && !was then activateUnit 1 h true (x.1, idle z) else (x.1, settleType 1 z))

/-- A standby that has booted is READY; it copies the records, which are migrated once both headstocks run the same image
(R49, R58, R586, R606). -/
def standbyUp (x : Perm × Sys) : Perm × Sys :=
  let y := { x.2 with hs := { x.2.hs with standby := .ready }, copy := none }
  (x.1, migrate (measureBoot x.1 (1 - y.hs.active) false y))

/-- STANDBY_READY (R49, R58, R586, R590, R592, R600, R606, R618): bad: the standby's HEADSTOCK slots that fail verification
where it comes out of a reset; a standby whose boot ROM starts no slot does not come up. -/
def execStandbyReady (bad : List Nat) (s : State) : Host.Outcome State Fault Refusal :=
  onAll s (fun p y =>
    if isUp y && !y.hs.activeFaulted && standbyComes y then
      if y.hs.standby == .reset then
        (match standbyBoots bad (p, y) with
         | some x => standbyUp x
         | none => (p, y))
      else standbyUp (p, y)
    else (p, y))

/-! ### Handover and takeover (R47 to R54, R431, R482, R574, R599, R603) -/

/-- A command that Usdon firmware executes and has not finished (R53). -/
def deviceLevel (c : Cmd) : Bool := c.phase == .running && traceUnitOf c.op c.pkt == 26 && c.op != 0x0410 && c.op != 0x0411

/-- The notice of a change of the active headstock (R454, R455). -/
def takeoverNotice (y : Sys) : Sys := notice 0x07 y.hs.active 0 y.hs.takeovers 0 y

/-- The READY standby becomes the active headstock, and the former active a READY standby (R594, R599, R603, R606). -/
def handOver (id : Nat) (y : Sys) : Sys :=
  let y := endTransfer 0x25 { y with cm := { y.cm with handover := none } }
  let y := migrate (payOwed (takeoverNotice { y with hs := { y.hs with active := 1 - y.hs.active } }))
  finish id .ok [BitVec.ofNat 64 y.hs.active] y

/-- A handover in progress takes place once the running device-level commands have completed, and within 5 ms; where the
standby is no longer READY it ends with HS_TAKEOVER (R53, R603; log 115). -/
def tryHandOver (y : Sys) : Sys :=
  match y.cm.handover with
  | none => y
  | some (id, tb) =>
    if y.hs.standby ≠ .ready then finish id .hsTakeover [] { y with cm := { y.cm with handover := none } }
    else if y.cm.cmds.any (fun d => d.id != id && deviceLevel d) && decide (y.t.timeBase < tb + 5000000) then y
    else handOver id y

/-- HS_HANDOVER (R599, R603): once it is accepted no creel is read. -/
def execHsHandover (pk : Packet) (s : State) : Host.Outcome State Fault Refusal :=
  let check := fun (_ : Cmd) (y : Sys) =>
    firstFail [(y.hs.standby != .ready || stepOpen y || weaving y || y.sec.armed, .unitBusy)]
  let effect := fun (c : Cmd) (y : Sys) => tryHandOver { y with cm := { y.cm with handover := some (c.id, y.t.timeBase) } }
  onSys s (fun _ y => execCommand 0x0811 [] (fun _ => false) always check effect pk y)

/-- A headstock's watchdog declares it faulted, and sets the fault latch in that headstock's MRAM (R51, R54, R574). A READY
standby that faults while the active headstock has faulted and no takeover has taken place becomes ABSENT, and nothing more
happens: the manual does not say what it does then (DESIGN CHOICE; log 108). -/
def faultHeadstock (h : Nat) (y : Sys) : Sys :=
  let ready := y.hs.standby == .ready
  let y := onOwn h (fun o => { o with latch := some ready }) y
  if h = y.hs.active then
    (if ready then { y with hs := { y.hs with activeFaulted := true } } else { y with hs := { y.hs with silent := true } })
  else partMram { y with hs := { y.hs with standby := .absent } }

/-- HS_FAULT (R51, R54, R574). -/
def execHsFault (h : Nat) (s : State) : Host.Outcome State Fault Refusal :=
  onSys s (fun _ y =>
    let out := if h = y.hs.active then y.hs.silent || y.hs.activeFaulted else y.hs.standby == .absent
    if powered y && decide (h < 2) && y.pwr.phase != .failed && !out then faultHeadstock h y else y)

/-- Opcodes that may complete with HS_TAKEOVER: PICK_SET and TIME_READ, the step and twin commands, and those of firmware and
observation (R53, R417, R505, R533, R543, R616). -/
def takeoverOp (op : Nat) : Bool :=
  op == 0x0010 || op == 0x0011 || decide (0x0600 ≤ op ∧ op < 0x0700) || decide (0x0800 ≤ op ∧ op < 0x0A00)

/-- A device-level command of which nothing has taken effect yet: one that waits for its unit, a prepare before its digests,
a commit or undo that waits, a SHADOW_END that waits, a weave or stream that has moved nothing, a CTR_READ, a handover
(R53). -/
def untouched (y : Sys) (c : Cmd) : Bool :=
  if c.phase = .forwarded then true
  else if c.op = 0x0601 then y.stp.prep.any (fun q => q.cmd == c.id && !q.digested)
  else if c.op = 0x0621 then y.stp.weave.any (fun w => w.cmd == c.id && !w.started && w.early.isEmpty)
  else if c.op = 0x0943 then y.stp.ckpts.any (fun d => d.cmd == c.id && d.moved == 0)
  else c.op == 0x0602 || c.op == 0x0604 || c.op == 0x0612 || c.op == 0x0811 || c.op == 0x0901

/-- A device-level command ends with HS_TAKEOVER and without effect (R53). -/
def undoCommand (c : Cmd) (y : Sys) : Sys :=
  let mine := fun (o : Option Nat) => o == some c.id
  let y := if mine (y.stp.prep.map (fun q => q.cmd)) then onStep (fun t => { t with prep := none, state := .opened, sealLanes := [] }) y else y
  let y := if mine y.cm.commitWait then { y with cm := { y.cm with commitWait := none } } else y
  let y := if mine (y.cm.handover.map (fun h => h.1)) then { y with cm := { y.cm with handover := none } } else y
  let y := if mine (y.stp.weave.map (fun w => w.cmd)) then sendTwin 0 0 (.weaveResult false) (onStep (fun t => { t with weave := none }) y) else y
  let y := { y with obs := { y.obs with reads := y.obs.reads.filter (fun r => r.cmd != c.id) } }
  finish c.id .hsTakeover [] (dropCkpt c.id y)

/-- Each device-level command in progress completes on the new headstock or with HS_TAKEOVER, as a free value says where its
status may be that and nothing of it has taken effect; a handover cannot complete any more (R53, R505; log 1). -/
def settleDevice (y : Sys) : Sys :=
  let held := fun (c : Cmd) => deviceLevel c || (c.phase == .forwarded && traceUnitOf c.op c.pkt == 26)
  (y.cm.cmds.filter held).foldl (fun z c =>
    let r := freshWord z
    if takeoverOp c.op && untouched z c && (r.1.toNat % 2 == 1 || (c.op == 0x0811 && c.phase == .running)) then undoCommand c r.2
    else r.2) y

/-- A takeover loses the scheduled advances that were not yet distributed: all but a free number of them (R482; log 1). -/
def loseAdvances (y : Sys) : Sys :=
  let r := freshWord y
  let kept := r.2.t.sched.take (r.1.toNat % (r.2.t.sched.length + 1))
  let last := match kept.getLast? with
    | some a => a.apply
    | none => r.2.t.pickTb
  { r.2 with t := { r.2.t with sched := kept, lastApply := some last } }

/-- The new active headstock sends again what is not acknowledged, on the session's port, acknowledging what it has received
(R420, R424, R431). -/
def resendAll (svc : Bool) (y : Sys) : Sys :=
  let ss := sessOf y svc
  if ss.state = .open ∧ ss.unacked ≠ [] then
    noteTx ss.port (setSess y svc { ss with wire := ss.wire ++ ss.unacked.map (fun f => { f with port := ss.port, ack := ss.rxSeq }) })
  else y

/-- TAKEOVER (R49, R51 to R53, R431, R455, R466, R482, R573, R580, R599, R606, R625): the new active headstock works with the
records in its MRAM, which are those of the former. -/
def execTakeover (s : State) : Host.Outcome State Fault Refusal :=
  onSys s (fun _ y =>
    if powered y && y.hs.activeFaulted && y.hs.standby == .ready then
      let h := 1 - y.hs.active
      let hs := { y.hs with active := h, standby := .absent, takeovers := satAt (umax 8) (y.hs.takeovers + 1), takeoverEvent := true,
                            activeFaulted := false }
      let y := endTransfer 0x25 { partMram y with hs := hs }
      let y := onLife (fun l => { l with takeovers := inc32 l.takeovers }) y
      let y := takeoverNotice (recordEvent 4 0x0002 h y.hs.takeovers y)
      expireLocks (migrate (payOwed (settleDevice (loseAdvances (resendAll true (resendAll false y))))))
    else y)

/-! ### Retraining (R253 to R255, R263, R592) -/

/-- MEM_RETRAIN_DONE (R254, R255, R263, R573, R592): the channel trains within 40 µs, or its training is restored. -/
def execMemRetrainDone (ok : Bool) (pause : Nat) (s : State) : Host.Outcome State Fault Refusal :=
  onAll s (fun p y =>
    match y.mem.retrain with
    | none => (p, y)
    | some r =>
      if powered y = false ∨ 40000 < pause then (p, y)
      else
        let y := { y with mem := { y.mem with retrain := none } }
        let y := recordEvent 1 0x0011 (r.stack * 2 ^ 8 + r.channel) (pause + b2n (!ok) * 2 ^ 32) y
        let x := if ok then activateUnit 5 (256 * r.stack + r.channel) true (p, y) else (p, y)
        (x.1, finish r.cmd (if ok then .ok else .retrainFailed) [BitVec.ofNat 64 pause] x.2))

end Sys2Proof.Machine
end

