-- ==== Sys2Proof/Machine/Picks.lean ====
section
/-! DEFINITION. Pick markers, edges, advances and echoes, and the expiry of leases (R465, R466, R477 to R482, R489, R494,
R549, R633). -/

namespace Sys2Proof.Machine

open Sys2Proof

/-- Change the time state. -/
def onTime (f : TimeSt → TimeSt) (y : Sys) : Sys := { y with t := f y.t }

/-- Add to PICK.STAT.MISSED, which saturates (R497). -/
def addMissed (n : Nat) (t : TimeSt) : TimeSt := { t with missed := satAt (umax 16) (t.missed + n) }

/-- A marker naming pick p arrives while SOURCE is TREADLE (R479). -/
def markerTreadle (p now : Nat) (t : TimeSt) : TimeSt :=
  let q := countAhead t
  if q < p then addMissed (p - q - 1) (schedule p now false false t)
  else { t with stale := satAt (umax 16) (t.stale + 1), staleTotal := satAt (umax 32) (t.staleTotal + 1) }

/-- A marker naming pick p is checked against the count and the target pick while SOURCE is PIN (R481). -/
def markerPin (p : Nat) (t : TimeSt) : TimeSt :=
  if p < countAhead t then { t with pinMismatch := satAt (umax 8) (t.pinMismatch + 1) }
  else if t.pinTarget < p then { addMissed (p - t.pinTarget) t with pinTarget := p }
  else t

/-- PICK (R423, R478, R479, R481). -/
def execPick (f : RxFrame) (s : State) : Host.Outcome State Fault Refusal :=
  onSys s (fun _ y => onFrame [0x20] f (fun y =>
    if f.payload.length ≠ 8 ∨ at8 f.payload 6 2 ≠ 0 ∨ f.fflags ≠ 0 then
      onTime (fun t => { t with bad := satAt (umax 8) (t.bad + 1) }) y
    else if y.t.source = 1 then onTime (markerPin (at8 f.payload 0 6)) y
    else onTime (markerTreadle (at8 f.payload 0 6) y.t.timeBase) y) y)

/-- PICK_IN_EDGE (R481, R633): an edge less than 250 ns after the previous accepted one is ignored. -/
def execPickInEdge (s : State) : Host.Outcome State Fault Refusal :=
  onSys s (fun _ y =>
    let now := y.t.timeBase
    let soon := match y.t.lastEdge with
      | none => false
      | some e => decide (now < e + 250)
    if answers y && y.t.source == 1 && !soon then
      onTime (fun t => { schedule t.pinTarget now true false t with lastEdge := some now }) y
    else y)

/-- The echo of an advance from q, where one is due (R494). -/
def echoOf (t : TimeSt) (q : Nat) (a : Advance) : List Echo :=
  let k := t.echoEvery.toNat
  if k ≠ 0 ∧ (a.load = true ∨ 0 < multiples k q a.target) then
    [{ pick := a.target, pin := a.pin, jump := decide (q + 1 < a.target), load := a.load, arrival := a.arrival, apply := a.apply }]
  else []

/-- Apply an advance: the count, the samples and leases due at it, its echo and its trace record (R465, R466, R477, R479,
R480, R489, R494, R549, R556). -/
def applyAdvance (a : Advance) (rest : List Advance) (y : Sys) : Sys :=
  let q := y.t.pick
  let echoes := if y.trd.state = .open ∧ y.hs.silent = false then echoOf y.t q a else []
  let y := onTime (fun t => { t with pick := a.target, pickTb := a.apply, sched := rest, echoes := t.echoes ++ echoes }) y
  let y := (List.range 8).foldl (fun z k => sampleDue q a.target a.apply k z) y
  let y := if answers y then expireLocks y else y
  traceRec 26 4 { pick := a.target } 0 0 0 0 0 a.apply y

/-- The next scheduled advance, once its apply time is reached (R479, R480). -/
def nextAdvance (y : Sys) : Sys :=
  match y.t.sched with
  | [] => y
  | a :: r => if a.apply ≤ y.t.timeBase then applyAdvance a r y else y

/-- PICK_ADVANCE (R479, R480). -/
def execPickAdvance (s : State) : Host.Outcome State Fault Refusal := onSys s (fun _ y => nextAdvance y)

/-- Every scheduled advance whose apply time is reached: time passes none of them by (R480, R489). -/
def dueAdvances (y : Sys) : Sys := y.t.sched.foldl (fun z _ => nextAdvance z) y

/-- The 28 bytes of a PICK_ECHO (R494). -/
def echoBytes (t : TimeSt) (e : Echo) : List Byte :=
  leBytes 6 e.pick ++ leBytes 1 (b2n e.pin + 2 * b2n e.jump + 4 * b2n e.load) ++ leBytes 1 0 ++ leBytes 8 e.arrival ++
  leBytes 8 e.apply ++ leBytes 4 t.missed ++ leBytes 4 t.staleTotal

/-- PICK_ECHO (R54, R494): sent only while a treadle session is open; no echo is held. -/
def execPickEcho (s : State) : Host.Outcome State Fault Refusal :=
  onSys s (fun _ y =>
    match y.t.echoes with
    | [] => y
    | e :: r =>
      let y := onTime (fun t => { t with echoes := r }) y
      if answers y && y.trd.state == .open then sendPlain false y.trd.port 0x21 (echoBytes y.t e) y else y)

/-- LOCK_EXPIRED (R465, R466). -/
def execLockExpired (k : Nat) (s : State) : Host.Outcome State Fault Refusal :=
  onSys s (fun _ y => if answers y && decide (k < 64) then expireOne k y else y)

end Sys2Proof.Machine
end

