-- ==== Sys2Proof/Machine/CmdObs.lean ====
section
/-! DEFINITION. Counters, trace, tensor watch, the event recorder and the life counters: their commands and what they do
on their own (R541 to R580). -/

namespace Sys2Proof.Machine

open Sys2Proof

/-- A destination, ring or region that R542 refuses: n bytes at a. -/
def badObsAddr (y : Sys) (a n : Nat) : Bool := !aligned64 a || !inDram a n || mapHit y a n

/-! ### Counters (R544 to R553) -/

/-- Instances of a counter class; zero for a reserved class (R547). -/
def classSize (c : Nat) : Nat :=
  if c = 0x01 ∨ c = 0x02 ∨ c = 0x03 ∨ c = 0x04 then 2304
  else if c = 0x05 then 1152 else if c = 0x06 then 18 else if c = 0x07 then 4608 else if c = 0x08 then 54
  else if c = 0x09 then 20 else if c = 0x0A then 128 else if c = 0x0B then 2 else 0

/-- A selection holds a reserved class (R552). -/
def reservedClass (w : Word64) : Bool := classSize (selOf w).2.1 == 0

/-- A selection that R552 refuses with PARAM_RANGE; a shuttle that lost its position may not be named (R519). -/
def badSel (y : Sys) (w : Word64) : Bool :=
  let (m, c, i) := selOf w
  decide (classSize c ≤ i) || m == 0 || (c != 4 && nfld m 3 4 != 0) || fld w 16 8 != 0 || fld w 39 25 != 0 ||
  (decide (c ≤ 4) && badShuttle y i)

/-- A set that starts anew; records of its former run that are not yet written keep their slots (R549, R551). -/
def startSet (k : Nat) (x : CtrSet) (y : Sys) : Sys :=
  setCtrSet k { x with due := (ctrSet y k).due.map (fun d => { d with fresh := false }) } y

/-- CTR_CONFIG (R254, R542, R551, R552, R613). -/
def execCtrConfig (pk : Packet) (s : State) : Host.Outcome State Fault Refusal :=
  let k := pf pk 0 0 3
  let stop := pf pk 0 8 2 == 1
  let sel := pw pk 2
  let nsel := pf pk 3 0 11
  let sels := fun (y : Sys) => words8 nsel (readBytes y sel (8 * nsel))
  let read := fun (y : Sys) => (consume 8 sel (8 * nsel) y).isNone
  let check := fun (p : Perm) (_ : Cmd) (y : Sys) =>
    if stop then firstFail [((List.range 5).any (fun i => pw pk (i + 1) != 0), .paramRange)]
    else firstFail
      [(pf pk 1 0 32 == 0 || nsel == 0 || decide (1024 < nsel) || decide (20 < pf pk 5 0 5), .paramRange),
       (fileClosed p [(sel, 8 * nsel)], .debugClosed),
       (!aligned64 sel || !inDram sel (8 * nsel), .addrRange),
       (read y && (sels y).any reservedClass, .encodingReserved),
       (read y && ((sels y).any (badSel y) || decide (1024 < valueCount (sels y))), .paramRange),
       (read y && badObsAddr y (pw pk 4) (recBytes (sels y) * 2 ^ pf pk 5 0 5), .addrRange)]
  let effect := fun (c : Cmd) (y : Sys) =>
    if stop then finish c.id .ok [] (setCtrSet k { ctrSet y k with running := false } y)
    else match consume 8 sel (8 * nsel) y with
      | some z => finish c.id .memUncorrectable [] z
      | none =>
        let ws := sels y
        let x : CtrSet := { started := true, running := true, sels := ws, interval := pf pk 1 0 32, ring := pw pk 4, ringLog2 := pf pk 5 0 5 }
        finish c.id .ok [BitVec.ofNat 64 (valueCount ws * 2 ^ 16 + recBytes ws)] (startSet k x y)
  let ready := fun (_ : Cmd) (y : Sys) => stop || !rangeHeld y sel (8 * nsel)
  let layout := [bits [(8, 2), (0, 3)], bits [(0, 32)], allBits, bits [(0, 11)], allBits, bits [(0, 5)]]
  onSys s (fun p y => execCommand 0x0900 layout (fun pk => badCode pk 0 8 2 [0, 1]) ready (check p) effect pk y)

/-- CTR_READ (R542, R553): the sample is taken at the time base of acceptance plus APPLY_DELAY_NS. -/
def execCtrRead (pk : Packet) (s : State) : Host.Outcome State Fault Refusal :=
  let k := pf pk 0 0 3
  let dst := pw pk 1
  let check := fun (_ : Cmd) (y : Sys) => firstFail
    [(!(ctrSet y k).started, .paramRange), (badObsAddr y dst (recBytes (ctrSet y k).sels), .addrRange)]
  let effect := fun (c : Cmd) (y : Sys) =>
    let r : CtrRead := { cmd := c.id, set := k, tb := y.t.timeBase + y.t.applyDelay.toNat, dst := dst, sels := (ctrSet y k).sels }
    { y with obs := { y.obs with reads := y.obs.reads ++ [r] } }
  onSys s (fun _ y => execCommand 0x0901 [bits [(0, 3)], allBits] (fun _ => false) always check effect pk y)

/-- A CTR_READ whose sample time has come reads its counters (R553). -/
def takeRead (r : CtrRead) (y : Sys) : CtrRead × Sys :=
  if r.taken.isSome || decide (y.t.timeBase < r.tb) then (r, y)
  else
    let v := sampleNow r.sels y
    ({ r with taken := some (pickNow y, v.1) }, v.2)

/-- A CTR_READ whose sample is taken writes its record and completes; a range that now meets the state map is not written
(R61, R254, R542, R553; log 114). -/
def writeRead (r : CtrRead) (y : Sys) : Sys :=
  match r.taken with
  | none => { y with obs := { y.obs with reads := y.obs.reads ++ [r] } }
  | some (pick, vals) =>
    if rangeHeld y r.dst (recBytes r.sels) then { y with obs := { y.obs with reads := y.obs.reads ++ [r] } }
    else if mapHit y r.dst (recBytes r.sels) then finish r.cmd .stateFaceWrite [] y
    else
      let b := sampleBytes r.set 0 true pick 0 r.tb (recBytes r.sels) vals y
      finish r.cmd .ok [BitVec.ofNat 64 r.tb] (writeBytes (some r.cmd) r.dst b.1 b.2)

/-- The CTR_READ commands in progress take their samples and write their records as their time comes (R553). -/
def serveReads (y : Sys) : Sys :=
  y.obs.reads.foldl (fun z r => let t := takeRead r z; writeRead t.1 t.2) { y with obs := { y.obs with reads := [] } }

/-- CTR_SAMPLE (R61, R254, R549, R550): the record of the oldest sample that an advance made due is written, unless its slot
meets the state map now (log 114). -/
def execCtrSample (set : Nat) (s : State) : Host.Outcome State Fault Refusal :=
  onSys s (fun _ y =>
    let x := ctrSet y set
    match x.due with
    | [] => y
    | d :: rest =>
      if isUp y && !rangeHeld y d.addr d.size then
        if mapHit y d.addr d.size then setCtrSet set { x with due := rest } y
        else
          let b := sampleBytes set d.seq false d.pick d.skipped d.tb d.size d.vals y
          setCtrSet set { x with seq := if d.fresh then d.seq else x.seq, due := rest } (writeBytes none d.addr b.1 b.2)
      else y)

/-! ### Trace (R557 to R563) -/

/-- Change the trace settings. -/
def onTrace (f : TraceSt → TraceSt) (y : Sys) : Sys := { y with obs := { y.obs with trace := f y.obs.trace } }

/-- A trace unit. -/
def unitAt (y : Sys) (u : Nat) : TraceUnit := mapGet {} y.obs.units u

/-- Replace a trace unit. -/
def setUnit (u : Nat) (x : TraceUnit) (y : Sys) : Sys := { y with obs := { y.obs with units := mapSet {} y.obs.units u x } }

/-- Enabled units (R560). -/
def enabledUnits (t : TraceSt) : List Nat := (List.range 27).filter (fun u => t.units.testBit u)

/-- Records of a region (R558). -/
def regionCap (t : TraceSt) : Nat := 2 ^ (t.regionLog2 - 5)

/-- First byte of an enabled unit's region (R558). -/
def regionOf (t : TraceSt) (u : Nat) : Nat :=
  t.base + ((enabledUnits t).filter (fun v => decide (v < u))).length * 2 ^ t.regionLog2

/-- Write a record at an index of a region; the drain writes its granule whole (R558). -/
def writeRecord (a : Nat) (rec : List Byte) (y : Sys) : Sys :=
  let g := a / 64 * 64
  let old := readBytes y g 64
  writeBytes none g (if a % 64 = 0 then rec ++ old.drop 32 else old.take 32 ++ rec) y

/-- Drain the oldest record of a unit's buffer, where its region takes it; a granule that the state map has come to hold is
not written, and the record is lost (R61, R254, R558, R559, R562; log 114). -/
def drainOne (u : Nat) (y : Sys) : Sys :=
  let t := y.obs.trace
  let x := unitAt y u
  match x.buf with
  | [] => y
  | (b, post) :: rest =>
    if t.trigger = false ∧ (x.wp + 2 ^ 28 - x.rp) % 2 ^ 28 = regionCap t then y
    else if t.trigger && post && decide (regionCap t ≤ x.drainedPost) then
      setUnit u { x with buf := rest, postDropped := satAt (umax 32) (x.postDropped + 1) } y
    else if rangeHeld y (regionOf t u + 32 * (x.wp % regionCap t)) 32 then y
    else if mapHit y (regionOf t u + 32 * (x.wp % regionCap t)) 32 then
      setUnit u { x with buf := rest, bufDropped := satAt (umax 24) (x.bufDropped + 1) } y
    else
      let y := writeRecord (regionOf t u + 32 * (x.wp % regionCap t)) b y
      setUnit u { x with buf := rest, wp := (x.wp + 1) % 2 ^ 28, drainedPost := x.drainedPost + b2n post } y

/-- Drain up to n records of a unit. -/
def drainMany : Nat → Nat → Sys → Sys
  | 0, _, y => y
  | n + 1, u, y => drainMany n u (drainOne u y)

/-- Drain the buffers of every enabled unit as far as their regions take it. -/
def drainAll (y : Sys) : Sys := (enabledUnits y.obs.trace).foldl (fun z u => drainMany (unitAt z u).buf.length u z) y

/-- TRACE_CONFIG STOP completes once every buffer is drained (R560). -/
def tryStop (y : Sys) : Sys :=
  match y.obs.trace.stopping with
  | none => y
  | some id =>
    if y.obs.units.all (fun p => p.2.buf.isEmpty) then
      finish id .ok [] (onTrace (fun t => { t with state := .stopped, stopping := none }) y)
    else y

/-- TRACE_CONFIG (R542, R560). -/
def execTraceConfig (pk : Packet) (s : State) : Host.Outcome State Fault Refusal :=
  let stop := pf pk 0 8 2 == 1
  let trig := pf pk 0 16 1 == 1
  let mask := pf pk 1 0 27
  let post := pf pk 2 32 32
  let tm := pf pk 2 0 8
  let log2 := pf pk 4 0 6
  let t : TraceSt := { state := .running, trigger := trig, units := mask, types := pf pk 0 24 5, post := post, base := pw pk 3,
                       regionLog2 := log2, trigMask := tm }
  let check := fun (_ : Cmd) (y : Sys) =>
    if stop then firstFail [(pf pk 0 24 5 != 0 || trig || (List.range 4).any (fun i => pw pk (i + 1) != 0), .paramRange)]
    else firstFail
      [(mask == 0 || (if trig then post == 0 else post != 0 || tm != 0) || decide (log2 < 16) || decide (32 < log2), .paramRange),
       (badObsAddr y (pw pk 3) ((enabledUnits t).length * 2 ^ log2), .addrRange),
       (y.obs.trace.state != .stopped, .traceBusy)]
  let effect := fun (c : Cmd) (y : Sys) =>
    if stop then
      (if y.obs.trace.state = .stopped then finish c.id .ok [] y
       else tryStop (drainAll (onTrace (fun t => { t with stopping := some c.id }) y)))
    else finish c.id .ok [] { y with obs := { y.obs with trace := t, units := [] } }
  let ready := fun (_ : Cmd) (y : Sys) => !stop || y.obs.trace.stopping.isNone
  let layout := [bits [(24, 5), (16, 1), (8, 2)], bits [(0, 27)], bits [(32, 32), (0, 8)], allBits, bits [(0, 6)]]
  onSys s (fun _ y => execCommand 0x0910 layout (fun pk => badCode pk 0 8 2 [0, 1]) ready check effect pk y)

/-- TRACE_TRIGGER (R561, R563). -/
def execTraceTrigger (pk : Packet) (s : State) : Host.Outcome State Fault Refusal :=
  let effect := fun (c : Cmd) (y : Sys) =>
    let z := traceFire 1 (pf pk 0 0 8) 26 (stampNow y) y
    finish c.id .ok [if y.obs.trace.t = z.obs.trace.t then 0 else 1] z
  onSys s (fun _ y => execCommand 0x0911 [bits [(0, 8)]] (fun _ => false) always noCheck effect pk y)

/-- TRACE_DRAIN (R558, R559, R562): the records of one granule. -/
def execTraceDrain (u : Nat) (s : State) : Host.Outcome State Fault Refusal :=
  onSys s (fun _ y =>
    let t := y.obs.trace
    if isUp y && unitOn y u && (t.state == .running || t.state == .triggered) then
      tryStop (drainMany (2 - (unitAt y u).wp % 2) u y)
    else y)

/-- TRACE_GAP (R557). -/
def execTraceGap (u : Nat) (s : State) : Host.Outcome State Fault Refusal :=
  onSys s (fun _ y =>
    if isUp y && unitOn y u then setUnit u (writeGap y.obs.trace u (stampNow y) (unitAt y u)) y else y)

/-- TRACE_WINDOW_END (R562). -/
def execTraceWindowEnd (s : State) : Host.Outcome State Fault Refusal :=
  onSys s (fun _ y =>
    let t := y.obs.trace
    if isUp y && t.state == .triggered && t.stopping.isNone && decide (windowEnd t ≤ pickNow y) then
      onTrace (fun t => { t with state := .done }) (drainAll y)
    else y)

/-! ### Tensor watch (R568 to R571) -/

/-- The combined part of two dies of a watch slot (R309, R570). -/
def joinWatch (a b : WatchPart) : WatchPart :=
  let add := fun (x z : Nat) => satAt (umax 64) (x + z)
  { readouts := add a.readouts b.readouts, elements := add a.elements b.elements, zero := add a.zero b.zero,
    nonfinite := add a.nonfinite b.nonfinite, digest := a.digest + b.digest,
    emax := if a.expValid && (!b.expValid || decide (b.emax ≤ a.emax)) then a.emax else b.emax,
    emin := if a.expValid && (!b.expValid || decide (a.emin ≤ b.emin)) then a.emin else b.emin,
    expValid := a.expValid || b.expValid }

/-- The combined values of a watch slot (R570). -/
def watchSlot (y : Sys) (k : Nat) : WatchPart :=
  (List.range 18).foldl (fun a d => joinWatch a (mapGet {} y.obs.wparts (16 * d + k))) {}

/-- The 64-byte record of a watch slot (R571). -/
def watchRecord (y : Sys) (k : Nat) : List Byte :=
  let w := mapGet ({} : WatchSlot) y.obs.watch k
  let p := watchSlot y k
  leBytes 1 0x10 ++ leBytes 1 (b2n w.stats + 2 * b2n w.digest + 4 * b2n p.expValid + 8 * b2n w.armed) ++ leBytes 1 k ++ leBytes 1 0 ++
  leBytes 4 w.tid ++ leBytes 6 w.step ++ leBytes 2 (lowBits p.emax 16) ++ leBytes 8 p.readouts ++ leBytes 8 p.elements ++
  leBytes 8 p.zero ++ leBytes 8 p.nonfinite ++ leBytes 8 p.digest.toNat ++ leBytes 2 (lowBits p.emin 16) ++ leBytes 6 0

/-- ARM: the slot's settings, with its values cleared on every die (R571). -/
def armSlot (k : Nat) (w : WatchSlot) (y : Sys) : Sys :=
  { y with obs := { y.obs with watch := mapSet {} y.obs.watch k w, wparts := y.obs.wparts.filter (fun p => p.1 % 16 != k) } }

/-- WATCH_SET (R254, R542, R571). -/
def execWatchSet (pk : Packet) (s : State) : Host.Outcome State Fault Refusal :=
  let k := pf pk 0 0 4
  let action := pf pk 0 8 2
  let stats := pf pk 0 16 1 == 1
  let dig := pf pk 0 17 1 == 1
  let dst := pw pk 3
  let check := fun (_ : Cmd) (y : Sys) => firstFail
    [(if action = 0 then (!stats && !dig) || dst != 0
      else stats || dig || pw pk 1 != 0 || pw pk 2 != 0 || (action == 1 && dst != 0), .paramRange),
     (action == 2 && badObsAddr y dst 64, .addrRange)]
  let effect := fun (c : Cmd) (y : Sys) =>
    finish c.id .ok [] (match action with
      | 0 => armSlot k { armed := true, stats := stats, digest := dig, tid := pf pk 1 32 32, step := pf pk 2 0 48 } y
      | 1 => { y with obs := { y.obs with watch := mapMod {} y.obs.watch k (fun w => { w with armed := false }) } }
      | _ => writeBytes (some c.id) dst (watchRecord y k) y)
  let layout := [bits [(17, 1), (16, 1), (8, 2), (0, 4)], bits [(32, 32)], bits [(0, 48)], allBits]
  onSys s (fun _ y => execCommand 0x0920 layout (fun pk => badCode pk 0 8 2 [0, 1, 2])
    (fun _ y => action != 2 || !rangeHeld y dst 64) check effect pk y)

/-! ### Event recorder and life counters (R576, R580) -/

/-- The records that an EVLOG_READ copies (R576). -/
def evlogRecords (y : Sys) (from_ max : Nat) : List EventRec := (y.nv.evr.filter (fun r => decide (from_ ≤ r.seq))).take max

/-- EVLOG_READ (R254, R542, R576). -/
def execEvlogRead (pk : Packet) (s : State) : Host.Outcome State Fault Refusal :=
  let max := pf pk 1 0 16
  let dst := pw pk 2
  let recs := fun (y : Sys) => evlogRecords y (pf pk 0 0 32) max
  let check := fun (_ : Cmd) (y : Sys) => firstFail
    [(max == 0 || decide (32768 < max), .paramRange), (badObsAddr y dst (32 * (recs y).length), .addrRange)]
  let effect := fun (c : Cmd) (y : Sys) =>
    let oldest := match y.nv.evr.head? with
      | none => 0
      | some r => r.seq
    let ws := [(recs y).length, y.nv.evrChg + y.nv.evrChg * 2 ^ 32, oldest % 2 ^ 32 * 2 ^ 32 + y.nv.evrSeq % 2 ^ 32]
    finish c.id .ok (ws.map (BitVec.ofNat 64)) (writeBytes (some c.id) dst ((recs y).flatMap eventBytes) y)
  onSys s (fun _ y => execCommand 0x0930 [bits [(0, 32)], bits [(0, 16)], allBits] (fun _ => false)
    (fun _ y => !rangeHeld y dst (32 * (recs y).length)) check effect pk y)

/-- Key of a histogram bin: die, kind (0 logic, 1 DRAM, 2 VCORE) and bin (R579, R580). -/
def binKey (d kind bin : Nat) : Nat := 48 * d + 16 * kind + bin

/-- The 4,288-byte life record (R580). -/
def lifeRecord (l : LifeSt) : List Byte :=
  leBytes 1 0x10 ++ leBytes 3 0 ++ leBytes 4 l.hours ++ leBytes 4 l.pcycles ++ leBytes 4 l.unclean ++ leBytes 4 l.takeovers ++
  leBytes 4 l.burlerFails ++ leBytes 4 l.thermalTrips ++ leBytes 4 0 ++
  (List.range (48 * 18)).flatMap (fun k => leBytes 4 (mapGet 0 l.bins k)) ++
  (List.range 18).flatMap (fun k => leBytes 8 (mapGet 0 l.eccCorr k) ++ leBytes 8 (mapGet 0 l.eccUncorr k)) ++
  (List.range 64).flatMap (fun k => leBytes 4 (mapGet 0 l.retrains k) ++ leBytes 4 (mapGet 0 l.faults k))

/-- LIFE_READ (R254, R542, R580). -/
def execLifeRead (pk : Packet) (s : State) : Host.Outcome State Fault Refusal :=
  let dst := pw pk 0
  let check := fun (_ : Cmd) (y : Sys) => firstFail [(badObsAddr y dst 4288, .addrRange)]
  let effect := fun (c : Cmd) (y : Sys) =>
    finish c.id .ok [BitVec.ofNat 64 (y.nv.life.hours + y.nv.life.pcycles * 2 ^ 32)]
      (writeBytes (some c.id) dst (lifeRecord y.nv.life) y)
  onSys s (fun _ y => execCommand 0x0931 [allBits] (fun _ => false) (fun _ y => !rangeHeld y dst 4288) check effect pk y)

end Sys2Proof.Machine
end

