-- ==== Sys2Proof/Machine/Power.lean ====
section
/-! DEFINITION. Heat, life samples, the SMBus target and the test access port (R104, R151, R578, R579, R612, R613,
R634 to R639, R647 to R649). -/

namespace Sys2Proof.Machine

open Sys2Proof

/-! ### Thermal samples (R634 to R639, R652) -/

/-- A reading in the encoding of R648. -/
def encTemp (v : Int) : BitVec 16 := BitVec.ofNat 16 (lowBits v 16)

/-- A temperature in °C in units of 1/128 °C (R634). -/
def deg (c : Nat) : Int := Int.ofNat (128 * c)

/-- Event, cause and reading of a THERMAL notice (R639). -/
def thermArg (temp : Nat) (cause stretch event : Nat) : Nat := event + stretch * 2 ^ 8 + cause * 2 ^ 12 + temp * 2 ^ 16

/-- One THERMAL notice; events 0x01 and 0x03 also write a record and assert SMB_ALERT_N (R639, R649). -/
def thermNotice (die arg : Nat) (y : Sys) : Sys :=
  let y := notice 0x0C die 0 arg 0 y
  if nfld arg 0 8 = 2 then y else recordEvent 2 0x0040 die arg { y with pwr := { y.pwr with smbAlert := true } }

/-- Replace a loom die's thermal state. -/
def setTherm (d : Nat) (t : ThermDie) (y : Sys) : Sys := { y with pwr := { y.pwr with therm := mapSet {} y.pwr.therm d t } }

/-- The reading reaches its throttle threshold: 1 logic, 2 DRAM, 3 current (R636, R639). -/
def throttleCause (y : Sys) (r : ThermReading) : Option Nat :=
  if deg y.pwr.logicThrottle.toNat ≤ r.logic then some 1
  else if deg y.pwr.dramThrottle.toNat ≤ r.dram then some 2
  else if 520 < r.current then some 3
  else none

/-- Every reading lies below its release level (R636). -/
def throttleFree (y : Sys) (r : ThermReading) : Bool :=
  decide (r.logic < deg (y.pwr.logicThrottle.toNat - 2)) && decide (r.dram < deg (y.pwr.dramThrottle.toNat - 2)) && decide (r.current ≤ 480)

/-- The stretch level of the next interval (R636). -/
def nextStretch (y : Sys) (r : ThermReading) (s : Nat) : Nat :=
  if (throttleCause y r).isSome then Nat.min 15 (s + 1) else if throttleFree y r then s - 1 else s

/-- The reading that a cause names; for current it is a free value (R639; log 1). -/
def causeTemp (r : ThermReading) (cause : Nat) (y : Sys) : Nat × Sys :=
  if cause = 1 then ((encTemp r.logic).toNat, y)
  else if cause = 2 then ((encTemp r.dram).toNat, y)
  else
    let w := freshWord y
    (w.1.toNat % 2 ^ 16, w.2)

/-- The notices of a change of stretch level; R639 does not state TEMP and CAUSE of the end of throttling (log 1). -/
def stretchNotices (d : Nat) (r : ThermReading) (old new : Nat) (y : Sys) : Sys :=
  if old = 0 ∧ 0 < new then
    let c := (throttleCause y r).getD 1
    let t := causeTemp r c y
    thermNotice d (thermArg t.1 c new 1) t.2
  else if 0 < old ∧ new = 0 then
    let w := freshWord y
    thermNotice d (thermArg (fld w.1 0 16) (fld w.1 16 2) 0 2) w.2
  else y

/-- The cause of a trip: 1 logic, 2 DRAM (R638). -/
def tripCause (loom : Bool) (r : ThermReading) : Option Nat :=
  if deg 108 ≤ r.logic then some 1 else if loom && decide (deg 98 ≤ r.dram) then some 2 else none

/-- The bucket of a command sends over the twin link: its halves join there, or it asked the twin for copies (R341, R347). -/
def overTwin (y : Sys) (c : Cmd) : Bool :=
  (routeAt y (pf c.pkt 0 40 4)).split || y.coll.buckets.any (fun b => b.cmd == c.id && !b.asked.isEmpty)

/-- Commands that a trip completes: those that a loom die has accepted, or the bucket commands that use a link die's ports
(R638). -/
def tripHits (y : Sys) (die : Nat) (c : Cmd) : Bool :=
  isAccepted c &&
  (if die < 18 then traceUnitOf c.op c.pkt == die || (c.op == 0x0410 && pf c.pkt 0 32 5 == die)
   else (c.op == 0x0410 || c.op == 0x0411) &&
     (strandPorts (routeAt y (pf c.pkt 0 40 4)) ++ (if overTwin y c then twinPorts else [])).any (fun w => w / 8 == die - 18))

/-- A command ends with THERMAL_TRIP, also where its work is done and it waits for its lane. -/
def tripCmd (y : Sys) (c : Cmd) : Sys :=
  match y.coll.buckets.find? (fun b => b.cmd == c.id && !b.finished) with
  | some b => failBucket b .thermalTrip y
  | none => overrule c.id .thermalTrip (finish c.id .thermalTrip [] y)

/-- The clocks of a die stop: its engines lose their commands, and the ports of a link die are DOWN (R242, R638; log 113). -/
def stopClocks (die : Nat) (ids : List Nat) (y : Sys) : Sys :=
  if die < 18 then trimAll (abortEngines ids y)
  else if die < 26 then (diePorts (die - 18)).foldl (fun z w => downPort w z) y
  else y

/-- A thermal trip (R451, R638, R639). -/
def tripDie (die cause temp stretch : Nat) (y : Sys) : Sys :=
  let cs := y.cm.cmds.filter (tripHits y die)
  let y := stopClocks die (cs.map (fun c => c.id)) (cs.foldl tripCmd y)
  let y := { y with pwr := { y.pwr with stopped := true, thermTrip := true } }
  thermNotice die (thermArg temp cause stretch 3) y

/-- The sample of a loom die (R636, R638, R652). -/
def sampleLoom (d : Nat) (r : ThermReading) (y : Sys) : Sys :=
  let t := thermAt y d
  match tripCause true r with
  | some c =>
    let temp := (encTemp (if c = 1 then r.logic else r.dram)).toNat
    tripDie d c temp t.stretch (setTherm d { t with tripped := true, logic := 0x8000, dram := 0x8000 } y)
  | none =>
    let s := nextStretch y r t.stretch
    let lim := decide (520 < r.current) && decide (t.stretch < s)
    stretchNotices d r t.stretch s (setTherm d { t with logic := encTemp r.logic, dram := encTemp r.dram, stretch := s, currentLimit := lim } y)

/-- The sample of a link die (18 + L) or a headstock (26 + h) (R51, R54, R634, R638). -/
def sampleOther (d : Nat) (r : ThermReading) (y : Sys) : Sys :=
  match tripCause false r with
  | none => { y with pwr := { y.pwr with other := mapPut y.pwr.other d (encTemp r.logic) } }
  | some c =>
    let y := tripDie d c (encTemp r.logic).toNat 0 { y with pwr := { y.pwr with other := mapPut y.pwr.other d 0x8000 } }
    if 26 ≤ d then faultHeadstock (d - 26) y else y

/-- THERMAL_SAMPLE (R634, R636, R638, R639): at the end of each interval of 100 µs. -/
def execThermalSample (die : Nat) (r : ThermReading) (s : State) : Host.Outcome State Fault Refusal :=
  onSys s (fun _ y =>
    if powered y && decide (die < 28) && !dieStopped y die && decide (mapGet 0 y.pwr.lastSample die + 100000 ≤ y.t.timeBase) then
      let y := { y with pwr := { y.pwr with lastSample := mapSet 0 y.pwr.lastSample die y.t.timeBase } }
      if die < 18 then sampleLoom die r y else sampleOther die r y
    else y)

/-! ### Life samples (R578, R579) -/

/-- The bin of a temperature in units of 1/128 °C (R579). -/
def tempBin (v : Int) : Nat := if v < deg 30 then 0 else Nat.min 15 ((v - deg 25) / deg 5).toNat

/-- The bin of a voltage in mV (R579). -/
def voltBin (mv : Nat) : Nat := if mv < 600 then 0 else Nat.min 15 ((mv - 590) / 10)

/-- One sample of a loom die (R579). -/
def sampleBins (y : Sys) (d mv : Nat) (m : SMap Nat) : SMap Nat :=
  let t := thermAt y d
  let add := fun (m : SMap Nat) (k : Nat) => mapMod 0 m k (fun v => v + 1)
  add (add (add m (binKey d 0 (tempBin (sext t.logic.toNat 16)))) (binKey d 1 (tempBin (sext t.dram.toNat 16)))) (binKey d 2 (voltBin mv))

/-- LIFE_SAMPLE (R579): once each second; the VCORE readings of dies 0 to 17 in mV. -/
def execLifeSample (vcore : List Nat) (s : State) : Host.Outcome State Fault Refusal :=
  onSys s (fun _ y =>
    if answers y && decide (y.pwr.lastLife + 1000000000 ≤ y.t.timeBase) && vcore.length == 18 then
      let bins := vcore.zipIdx.foldl (fun m p => sampleBins y p.2 p.1 m) y.pwr.bins
      let vc := vcore.zipIdx.foldl (fun m p => mapSet 0 m p.2 (p.1 % 2 ^ 16)) y.pwr.vcore
      { y with pwr := { y.pwr with bins := bins, vcore := vc, lastLife := y.t.timeBase } }
    else y)

/-- HOURS_TICK (R578, R579): HOURS and the histograms are stored every 0.1 h. -/
def execHoursTick (s : State) : Host.Outcome State Fault Refusal :=
  onSys s (fun _ y =>
    if answers y && decide (y.pwr.lastHour + 360000000000 ≤ y.t.timeBase) then
      let add := fun (m : SMap Nat) (p : Nat × Nat) => mapMod 0 m p.1 (fun v => satAt (umax 32) (v + p.2))
      let y := onLife (fun l => { l with hours := inc32 l.hours, bins := y.pwr.bins.foldl add l.bins }) y
      { y with pwr := { y.pwr with bins := [], lastHour := y.pwr.lastHour + 360000000000 } }
    else y)

/-! ### SMBus (R647 to R649) -/

/-- The SMBus target answers with bytes; it runs whenever VAUX is up (R647). -/
def smbAnswer (bytes : Sys → List Byte) (y : Sys) : Sys :=
  if y.pwr.vaux then { y with pin := { y.pin with smbOut := bytes y } } else y

/-- The largest of readings in the encoding of R648. -/
def hottest (l : List (BitVec 16)) : BitVec 16 := l.foldl (fun a b => if a.toInt < b.toInt then b else a) 0x8000

/-- The bytes of a Read Word. -/
def wordBytes (w : BitVec 16) : List Byte := leBytes 2 w.toNat

/-- SMB_VERSION (R648). -/
def execSmbVersion (s : State) : Host.Outcome State Fault Refusal := onSys s (fun _ y => smbAnswer (fun _ => leBytes 1 0x10) y)

/-- The status byte of code 0x01 (R648). -/
def smbStatusByte (y : Sys) : Nat :=
  b2n (isUp y && !y.hs.activeFaulted && !y.pwr.stopped) +
  2 * b2n ((List.range 18).any (fun d => decide (0 < (thermAt y d).stretch))) + 4 * b2n y.pwr.thermTrip + 8 * b2n y.pwr.sdDone +
  16 * y.hs.active + 32 * b2n (bootOf y y.hs.active).recovery

/-- SMB_STATUS (R648). -/
def execSmbStatus (s : State) : Host.Outcome State Fault Refusal := onSys s (fun _ y => smbAnswer (fun y => leBytes 1 (smbStatusByte y)) y)

/-- SMB_HOTTEST_LOGIC (R648). -/
def execSmbHottestLogic (s : State) : Host.Outcome State Fault Refusal :=
  onSys s (fun _ y => smbAnswer (fun y => wordBytes (hottest ((List.range 18).map (fun d => (thermAt y d).logic)))) y)

/-- SMB_HOTTEST_DRAM (R648). -/
def execSmbHottestDram (s : State) : Host.Outcome State Fault Refusal :=
  onSys s (fun _ y => smbAnswer (fun y => wordBytes (hottest ((List.range 18).map (fun d => (thermAt y d).dram)))) y)

/-- SMB_HOTTEST_OTHER (R648). -/
def execSmbHottestOther (s : State) : Host.Outcome State Fault Refusal :=
  onSys s (fun _ y => smbAnswer (fun y => wordBytes (hottest (y.pwr.other.map (fun p => p.2)))) y)

/-- A Read Word of a code that names die d; a code outside the table is not acknowledged (R648). -/
def smbDie (d : Nat) (w : Sys → BitVec 16) (y : Sys) : Sys := smbAnswer (fun y => if d < 18 then wordBytes (w y) else []) y

/-- SMB_DIE_LOGIC_TEMP (R648). -/
def execSmbDieLogicTemp (d : Nat) (s : State) : Host.Outcome State Fault Refusal := onSys s (fun _ y => smbDie d (fun y => (thermAt y d).logic) y)

/-- SMB_STACK_TEMP (R648). -/
def execSmbStackTemp (d : Nat) (s : State) : Host.Outcome State Fault Refusal := onSys s (fun _ y => smbDie d (fun y => (thermAt y d).dram) y)

/-- SMB_VCORE (R648). -/
def execSmbVcore (d : Nat) (s : State) : Host.Outcome State Fault Refusal :=
  onSys s (fun _ y => smbDie d (fun y => BitVec.ofNat 16 (mapGet 0 y.pwr.vcore d)) y)

/-- SMB_IDENT (R648). -/
def execSmbIdent (s : State) : Host.Outcome State Fault Refusal := onSys s (fun _ y => smbAnswer (fun _ => leBytes 8 identReg) y)

/-- SMB_LIFE (R648). -/
def execSmbLife (s : State) : Host.Outcome State Fault Refusal :=
  onSys s (fun _ y => smbAnswer (fun y =>
    let l := y.nv.life
    leBytes 4 l.hours ++ leBytes 4 l.pcycles ++ leBytes 4 l.unclean ++ leBytes 4 l.thermalTrips) y)

/-- The 7-bit address of the target (R647). -/
def smbAddress : Nat := 0x4C + Config.smbStraps.toNat

/-- SMB_ALERT_RESPONSE (R649): the target answers while it asserts SMB_ALERT_N, and releases it. -/
def execSmbAlertResponse (s : State) : Host.Outcome State Fault Refusal :=
  onSys s (fun _ y =>
    if y.pwr.vaux && y.pwr.smbAlert then
      smbAnswer (fun _ => leBytes 1 smbAddress) { y with pwr := { y.pwr with smbAlert := false } }
    else y)

/-! ### Test access port (R104, R151, R612, R613) -/

/-- The 8 bytes of a narrow element in the debug view (R151). -/
def narrowBytes (v : Narrow) : List Byte :=
  let cls := match v.cls with
    | .finite => 0
    | .posInf => 1
    | .negInf => 2
    | .nan => 3
  leBytes 8 (cls * 2 ^ 62 + b2n v.inx * 2 ^ 61 + lowBits v.x 12 * 2 ^ 48 + lowBits v.a 48)

/-- The 32 bytes of the debug view at an address of tile t of shuttle n, o bytes into the tile position; none where
nothing has been written (R104, R151). -/
def viewBytes (p : TilePos) (o : Nat) : Option (List Byte) :=
  if p.guarded then
    let x := p.narrow.getD (o / 0x8000) {}
    if x.slots = [] then none
    else some ((List.range 4).flatMap (fun k => narrowBytes (x.slots.getD (o % 0x8000 / 8 + k) {})))
  else
    let i := o / 32 / 64
    let j := o / 32 % 64
    if i < p.exact.m ∧ j < p.exact.n then
      (p.exact.elems[i * p.exact.n + j]?).map (fun e => leBytes 32 (elemContent e).toNat)
    else none

/-- A debug read of the accumulator files; what no accumulation has written is a free value (R104; log 1). -/
def readFile (a : Nat) (y : Sys) : List Byte × Sys :=
  let o := a - fileBase
  let n := 128 * (o / 0x100000000) + o % 0x100000000 / 0x100000
  let t := o % 0x100000 / 0x20000
  match viewBytes (tileAt y n t) (o % 0x20000 / 32 * 32) with
  | some b => (b, y)
  | none => freeDigest y

/-- TEST_ACCESS_PORT (R612, R613): closed, it holds Test-Logic-Reset; open, a boundary-scan instruction is accepted and
changes nothing here, a read of the accumulator files returns data, and the manual gives other debug instructions no effect. -/
def execTestAccessPort (i : TapInstr) (s : State) : Host.Outcome State Fault Refusal :=
  let out := fun (bs : List Byte) (y : Sys) => { y with pin := { y.pin with tapOut := bs } }
  if debugOff s.perm || !s.sys.pwr.vaux then onSys s (fun _ y => out [] y)
  else match i with
    | .boundaryScan => onSys s (fun _ y => out [] y)
    | .readAccumulator a => onSys s (fun _ y => if inFiles a then out (readFile a y).1 (readFile a y).2 else out [] y)
    | .debug _ => .refused .tapInstruction

end Sys2Proof.Machine
end

