-- ==== Sys2Proof/Machine/Clock.lean ====
section
/-! DEFINITION. The passing of time, which is what a step does while no command waits (R475; log 2). -/

namespace Sys2Proof.Machine

open Sys2Proof

/-- One nanosecond of the time base, from the release of PERST_N on: before it ends, every advance due at it is applied, the
samples due at it are taken, and a handover or shutdown in progress goes on (R475, R480, R489, R553, R603, R625; log 2). -/
def tickSys (y : Sys) : Sys :=
  if y.pwr.phase = .held then y
  else
    let y := continueShutdown (tryHandOver (serveReads (dueAdvances y)))
    { y with t := { y.t with timeBase := (y.t.timeBase + 1) % 2 ^ 64 } }

/-- What a step does while no command waits. -/
def tick (s : State) : Host.Outcome State Fault Refusal := onSys s (fun _ y => tickSys y)

end Sys2Proof.Machine
end

