-- ==== Sys2Proof/Machine/Boot.lean ====
section
/-! DEFINITION. PERST_N, VAUX and boot (R50, R475, R514, R574, R578, R584, R586 to R592, R606, R629 to R631, R656). -/

namespace Sys2Proof.Machine

open Sys2Proof

/-- What PERST_N or a loss of VAUX leaves: the MRAM of each headstock, and everything else at its reset value
(R49, R629, R631). -/
def afterReset (vaux : Bool) (y : Sys) : Sys :=
  { pwr := { vaux := vaux, firstRise := y.pwr.firstRise }, nv := (mramOf y).1, copy := some (mramOf y).2, own := y.own, free := y.free }

/-- PERST_N_ASSERT (R629 to R631): at least 1 µs resets, less than 100 ns does not, between them a free value says
(log 1). -/
def execPerstNAssert (ns : Nat) (s : State) : Host.Outcome State Fault Refusal :=
  onSys s (fun _ y =>
    if ns < 100 then y
    else if 1000 ≤ ns then afterReset y.pwr.vaux y
    else
      let r := freshWord y
      if r.1.toNat % 2 = 1 then afterReset y.pwr.vaux r.2 else r.2)

/-- VAUX_LOSS (R629): nothing outside MRAM and the fuses survives. -/
def execVauxLoss (s : State) : Host.Outcome State Fault Refusal := onSys s (fun _ y => afterReset false y)

/-- VAUX_RISE (R578, R624). -/
def execVauxRise (s : State) : Host.Outcome State Fault Refusal :=
  onSys s (fun _ y =>
    if y.pwr.vaux then y else { y with pwr := { y.pwr with vaux := true, firstRise := true } })

/-! ### Stage 0 (R50, R586, R590, R592, R607) -/

/-- Stage 0 of a headstock: whether its boot ROM stage passes, and the state after it (R50, R586). -/
def stageZero (r : HeadTest) (h : Nat) (y : Sys) : Bool × Sys :=
  match if r.selfTest then bootRom r.bad h y else none with
  | some z => (true, z)
  | none => (false, y)

/-- PERST_N_RELEASE (R50, R475, R586, R590, R607): the time base starts, and each headstock passes its boot ROM stage or not,
as its operand finds. The active headstock works with the records in its own MRAM. -/
def execPerstNRelease (hs0 : HeadTest) (hs1 : HeadTest) (s : State) : Host.Outcome State Fault Refusal :=
  onSys s (fun _ y =>
    if y.pwr.phase == .held && y.pwr.vaux then
      let a := stageZero hs0 0 y
      let b := stageZero hs1 1 a.2
      let m := mramOf y
      { b.2 with hs := { y.hs with active := if a.1 then 0 else 1, standby := if a.1 && b.1 then .booting else .absent },
                 nv := if a.1 then m.1 else m.2, copy := some (if a.1 then m.2 else m.1),
                 pwr := { y.pwr with phase := if a.1 || b.1 then .stage1 else .failed, perstLow := false } }
    else y)

/-! ### Stage 1 (R586) -/

/-- The image in slot k of type t, 2 to 5, verifies; the entries 2 × t + k of a list fail (R583, R590). -/
def verifies (bad : List Nat) (y : Sys) (t k : Nat) : Bool := (slotAt (imagesOf y t) k).valid && !bad.elem (2 * t + k)

/-- The bit of a type in SEC.BOOT.FALLBACK is set (R590, R618). -/
def fellBack (t : Nat) (y : Sys) : Sys := fellBackAt y.hs.active t y

/-- A type of unit image whose slots both fail leads to recovery (R590). -/
def bothFail (y : Sys) : Sys := onBoot y.hs.active (fun b => { b with recovery := true }) y

/-- The pending image of a type is activated on every unit (R592 to R594). -/
def activateAll (t : Nat) (x : Perm × Sys) : Perm × Sys :=
  (List.range (unitsOf t)).foldl (fun x u => activateUnit t u false x) x

/-- The headstocks that boot the pending HEADSTOCK image have activated it: the SVN floor and the records (R584, R592 to
R594). -/
def activateHeads (x : Perm × Sys) : Perm × Sys :=
  let ran := [0, 1].filter (runsPending x.2 1)
  let one := fun (x : Perm × Sys) (h : Nat) =>
    let v := unitImage x.2 1 h
    (raiseFloor 1 (svnOf 1 v) x.1, recordActivation 1 h (versionOf 1 v) x.2)
  let x := ran.foldl one x
  (x.1, if ran = [] then x.2 else settleType 1 x.2)

/-- The images of a type of unit at boot: the pending image, else the current one, else the alternate (R590, R592). -/
def bootType (bad : List Nat) (x : Perm × Sys) (t : Nat) : Perm × Sys :=
  let im := imagesOf x.2 t
  if im.waiting then
    if verifies bad x.2 t (altOf im) then activateAll t x
    else
      let y := fellBack t (onImages t (fun i => { setSlot (altOf i) {} i with waiting := false }) x.2)
      (x.1, if verifies bad x.2 t im.current then y else bothFail y)
  else if verifies bad x.2 t im.current then x
  else if verifies bad x.2 t (altOf im) then (x.1, fellBack t (onImages t (fun i => { i with current := altOf i }) x.2))
  else (x.1, bothFail x.2)

/-- The clean-shutdown marker of each headstock, which its boot clears, and the power cycle (R578, R618, R625). -/
def bootCounts (y : Sys) : Sys :=
  let clean := (ownOf y y.hs.active).clean
  let first := y.pwr.firstRise
  let y := onLife (fun l => { l with unclean := if clean then l.unclean else inc32 l.unclean,
                                     pcycles := if first then inc32 l.pcycles else l.pcycles }) y
  let take := fun (h : Nat) (z : Sys) => onOwn h (fun o => { o with clean := false }) (onBoot h (fun b => { b with clean := (ownOf z h).clean }) z)
  let y := if y.hs.standby = .absent then y else take (1 - y.hs.active) y
  take y.hs.active { y with pwr := { y.pwr with firstRise := false } }

/-- A position fails the burler's boot test; the part that failed is a free value (R514, R515; log 1). -/
def failAtBoot (pos : Nat) (x : Perm × Sys) : Perm × Sys :=
  if 17 * 144 ≤ pos ∨ posFailed x.1 (pos / 17) (pos % 17) = true then x
  else
    let r := freshWord x.2
    (markFailed pos x.1, reportFail (shuttleAt r.2 pos) pos (r.1.toNat % 5 + 1) r.2)

/-- A slot whose position has failed moves to its reed's spare, or is lost (R514, R518, R519). -/
def mendAtBoot (p : Perm) (y : Sys) (n : Nat) : Sys :=
  match devicePos y n with
  | none => y
  | some pos => if posFailed p (pos / 17) (pos % 17) then moveSlot n pos (spareOf p y (pos / 17)) y else y

/-- The slots of the reeds that have failed positions. -/
def reedSlots (p : Perm) : List Nat := (dedup (p.failed.map (fun pos => pos / 17))).flatMap (fun r => (List.range 16).map (fun j => 16 * r + j))

/-- One HS_FAULT record for each latch, which is cleared, then the BOOT record (R573, R574). -/
def bootRecords (y : Sys) : Sys :=
  let one := fun (z : Sys) (h : Nat) => match (ownOf z h).latch with
    | none => z
    | some r => onOwn h (fun o => { o with latch := none }) (recordEvent 4 0x0003 h (b2n r) z)
  let y := [0, 1].foldl one y
  recordEvent 0 0x0001 y.hs.active (b2n (bootOf y y.hs.active).clean + 2 * y.hs.active) y

/-- Boot ends: sessions are accepted, or recovery begins (R586, R590, R591). -/
def endBoot (y : Sys) : Sys :=
  { y with pwr := { y.pwr with phase := if (bootOf y y.hs.active).recovery then .recovery else .ready } }

/-- Boot stage 1 in its order (R586, R656). -/
def stageOne (failing bad : List Nat) (x : Perm × Sys) : Perm × Sys :=
  let y := bootCounts x.2
  let moved := toMigrate y
  let x := [2, 3, 4, 5].foldl (bootType bad) (activateHeads (x.1, migrate y))
  let h := x.2.hs.active
  let y := measureBoot x.1 h (!moved.isEmpty) x.2
  let y := { y with mem := { y.mem with cells := [], unspec := [], poison := [], badWords := [] } }
  let x := failing.foldl (fun x pos => failAtBoot pos x) (x.1, y)
  let y := (reedSlots x.1).foldl (mendAtBoot x.1) x.2
  (x.1, endBoot (bootRecords y))

/-- BOOT_STAGE_1 (R586): positions that fail the burler's test, and the types, 2 to 5, whose slot A and whose slot B fail
verification. -/
def execBootStage1 (failing : List Nat) (badA : List Nat) (badB : List Nat) (s : State) : Host.Outcome State Fault Refusal :=
  let bad := badA.map (fun t => 2 * t) ++ badB.map (fun t => 2 * t + 1)
  onAll s (fun p y => if y.pwr.phase == .stage1 && y.pwr.sdSource == 0 then stageOne failing bad (p, y) else (p, y))

end Sys2Proof.Machine
end

