-- ==== Sys2Proof/Machine/BucketEv.lean ====
section
/-! DEFINITION. What happens to buckets: conversion, arriving packets, held packets, half-sums, final shards, re-sends,
lateness and twin copies (R335 to R353). -/

namespace Sys2Proof.Machine

open Sys2Proof

/-- The bucket in progress that carries a tag and satisfies a test. -/
def bucketIs (y : Sys) (tag : Nat) (test : Bucket → Bool) : Option Bucket :=
  y.coll.buckets.find? (fun b => b.tag == tag && !b.finished && test b)

/-- What a bucket event at work on a bucket reads and writes as a whole: source, staging and own shard (R335, R365). -/
def bucketRanges (b : Bucket) (r : Route) : List (Nat × Nat) :=
  [(b.src, srcBytes b), (b.stage, 8 * b.count), (b.dst, 8 * ownShardLen r b.count)]

/-- A bucket event on the bucket of a tag; it waits while a channel that it accesses retrains (R254). -/
def onBucket (tag : Nat) (test : Bucket → Bool) (f : Bucket → Route → Sys → Sys) (y : Sys) : Sys :=
  if isUp y then
    match bucketIs y tag test with
    | some b =>
      let r := routeAt y b.route
      if !b.gather && anyHeld y (bucketRanges b r) then y else bucketsMoved (f b r y)
    | none => y
  else y

/-- The results of a BKT_REDUCE that has its status (R365): digests of the staging elements and of the own shard. -/
def reduceResults (b : Bucket) (r : Route) (flags : BitVec 8) (dS dR : Word64) : List Word64 :=
  [BitVec.ofNat 64 (lowBits b.exp 16 * 2 ^ 48 + b.resends * 2 ^ 40 + b2n (flag flags 1) * 2 ^ 33 + b2n (flag flags 0) * 2 ^ 32 +
      b.taken % 2 ^ 32), dS, dR,
   BitVec.ofNat 64 (shardFirst b.count r.p r.selfPos), BitVec.ofNat 64 (shardLen b.count r.p r.selfPos),
   BitVec.ofNat 64 (satAt (umax 32) b.sat)]

/-- The conversion of a shadow BKT_REDUCE ends the command (R408). -/
def shadowDone (b : Bucket) (r : Route) (y : Sys) : Sys :=
  let dS := elemDigest y b.tag 8 b.stage 0 b.count
  let y := bucketTrace b 1 (prevPos r r.selfPos) (bucketPort r) y
  let y := modCmd b.cmd (fun c => { c with record := some (recordOf b false false dS 0) }) y
  finish b.cmd .ok (reduceResults b r 0 dS 0) (putBucket { b with finished := true } y)

/-- BUCKET_CONVERSION_DONE (R228, R335, R336, R347, R408): the conversion into staging finishes, and sending starts. -/
def execBucketConversionDone (tag : Nat) (s : State) : Host.Outcome State Fault Refusal :=
  onSys s (fun _ y => onBucket tag (fun b => !b.gather && !b.converted) (fun b r y =>
    match convertBucket b y with
    | .inl z => z
    | .inr (b, z) => if b.shadow then shadowDone b r z else startSending b z) y)

/-- The channel of a byte that a packet's addition reads or writes retrains (R254). -/
def packetHeld (y : Sys) (h : BucketHdr) : Bool :=
  match bucketFor y h with
  | none => false
  | some b =>
    let r := routeAt y b.route
    let n := bktElemBytes b * h.elems
    anyHeld y ((resultAddr b r h.shard h.first, n) :: if b.gather then [] else [(b.stage + 8 * h.first, n)])

/-- A bucket packet at a port: dropped when malformed, else taken where its kind is the one asked for. -/
def bucketMsg (port : Nat) (m : WarpMsg) (kind : Route → BucketHdr → Bool) (y : Sys) : Sys :=
  match m with
  | .bucket bytes =>
    if isUp y && portTakes y port then
      let h := hdrOf bytes
      if malformed y bytes then dropHeader port bytes y
      else if kind (routeAt y h.route) h && !packetHeld y h then bucketsMoved (arrive port (pickNow y) h (bytes.drop 32) y)
      else y
    else y
  | _ => y

/-- The port is the in port of the strand that the header names. -/
def atInPort (port : Nat) (r : Route) (h : BucketHdr) : Bool := (r.strands.getD h.strand (0, 64)).2 == port

/-- BUCKET_PACKET (R332, R333, R336 to R338, R345, R347, R349, R352, R361). -/
def execBucketPacket (port : Nat) (m : WarpMsg) (s : State) : Host.Outcome State Fault Refusal :=
  onSys s (fun _ y => bucketMsg port m (fun r h => atInPort port r h && !hdrFlag h 3 && !hdrFlag h 4) y)

/-- GATHER_PACKET (R332, R333, R353, R352). -/
def execGatherPacket (port : Nat) (m : WarpMsg) (s : State) : Host.Outcome State Fault Refusal :=
  onSys s (fun _ y => bucketMsg port m (fun r h => atInPort port r h && hdrFlag h 4) y)

/-- TWIN_HALF_SUM (R340). -/
def execTwinHalfSum (port : Nat) (m : WarpMsg) (s : State) : Host.Outcome State Fault Refusal :=
  onSys s (fun _ y => bucketMsg port m (fun r h => twinPorts.elem port && r.split && hdrFlag h 3 && !hdrFlag h 4) y)

/-- Take held packets in the order of their arrival. -/
def takeHeld : List HeldPartial → Sys → Sys
  | [], y => y
  | p :: l, y => takeHeld l (arrive p.port p.pick p.hdr p.payload y)

/-- HELD_PARTIAL_RELEASE (R338, R350): the held packets of a bucket that its adder can take. -/
def execHeldPartialRelease (tag : Nat) (s : State) : Host.Outcome State Fault Refusal :=
  onSys s (fun _ y =>
    if isUp y then
      match y.coll.buckets.find? (fun b => b.tag == tag && b.converted && !b.shadow && y.coll.holding.any (releasable b)) with
      | none => y
      | some b =>
        let held := y.coll.holding.filter (releasable b)
        if held.any (fun p => packetHeld y p.hdr) then y
        else bucketsMoved <| takeHeld held { y with coll := { y.coll with holding := y.coll.holding.filter (fun p => !releasable b p) } }
    else y)

/-- A final shard's status (R343, R344, R360); none while a re-send is due. -/
def shardStatus (b : Bucket) : Option Status :=
  if flag b.shardFlags 1 then some .bucketNonfinite
  else if flag b.shardFlags 0 then (if 255 < b.exp + 8 then some .bucketOverflow else none)
  else if 0 < b.resends then some .bucketResent
  else if 0 < b.taken then some .bucketTwinTaken
  else some .ok

/-- SHARD_FINAL (R343, R344, R356, R365): the own shard is final, everything relayed for others has been sent on, and
the member's sends are acknowledged; the command gets its status. -/
def execShardFinal (tag : Nat) (s : State) : Host.Outcome State Fault Refusal :=
  onSys s (fun _ y => onBucket tag (fun b => !b.gather && !b.shadow && b.converted) (fun b r y =>
    if shardFinal b r && relaysDone b r && sendsDone y b then
      let y := if (shardStatus b).isSome then bucketTrace b 2 r.selfPos (bucketPort r) y else y
      match shardStatus b with
      | none => y
      | some .bucketOverflow => failBucket b .bucketOverflow y
      | some st =>
        let dS := elemDigest y b.tag 8 b.stage 0 b.count
        let f := shardFirst b.count r.p r.selfPos
        let dR := elemDigest y b.tag 8 b.dst f (shardLen b.count r.p r.selfPos)
        let y := modCmd b.cmd (fun c => { c with record := some (recordOf b false (flag b.shardFlags 1) dS dR) }) y
        finish b.cmd st (reduceResults b r b.shardFlags dS dR) (putBucket { b with finished := true } y)
    else y) y)

/-- The bucket at its next generation (R343, R345). -/
def nextGen (b : Bucket) : Bucket :=
  { b with exp := b.exp + 8, gen := b.gen + 1, converted := false, ownFlags := 0, shardFlags := 0, handled := [],
           ownHalf := [], twinHalf := [], joined := [], asked := [], used := [], refusedCopy := [], window := none,
           resends := b.resends + 1 }

/-- BUCKET_RESEND (R343, R345, R556): the shard is final with OVF set; exponent and generation rise, the source is converted
again and sent again. -/
def execBucketResend (tag : Nat) (s : State) : Host.Outcome State Fault Refusal :=
  onSys s (fun _ y => onBucket tag (fun b => !b.gather && !b.shadow && b.converted) (fun b r y =>
    if shardFinal b r && relaysDone b r && flag b.shardFlags 0 && !flag b.shardFlags 1 && decide (b.exp + 8 ≤ 255) then
      let y := bucketTrace b 2 r.selfPos (bucketPort r) y
      let b := nextGen b
      let b := { b with window := heldSince y b.tag b.step b.gen false }
      let y := { y with coll := { y.coll with resends := satAt (umax 16) (y.coll.resends + 1) } }
      let y := bucketTrace b 3 r.selfPos (bucketPort r) y
      match convertBucket b (putBucket b y) with
      | .inl z => z
      | .inr (b, z) => startSending b z
    else y) y)

/-! ### Lateness (R347 to R350) -/

/-- LATENESS_EXPIRY (R347, R348, R350, R351): the window of a bucket has ended. -/
def execLatenessExpiry (tag : Nat) (s : State) : Host.Outcome State Fault Refusal :=
  onSys s (fun _ y => onBucket tag (fun _ => true) (fun b r y => (checkWindow b r (pickNow y) y).2) y)

/-- TWIN_COPY_REQUEST (R348, R350, R406). -/
def execTwinCopyRequest (port : Nat) (m : WarpMsg) (s : State) : Host.Outcome State Fault Refusal :=
  onSys s (fun _ y =>
    match m with
    | .copyRequest bytes =>
      if isUp y && portTakes y port && twinPorts.elem port && twinOn y then serveRequest (hdrOf bytes) y else y
    | _ => y)

/-- Use the twin's copy as the member's own result (R348). -/
def useCopy (b : Bucket) (r : Route) (h : BucketHdr) (payload : List Byte) (y : Sys) : Sys :=
  let fl := h.flags &&& 3
  let key := (h.shard, h.first)
  let b := { b with handled := b.handled ++ [(h.shard, h.first, fl)], used := b.used ++ [key], taken := b.taken + 1 }
  let y := { y with coll := { y.coll with twinTaken := satAt (umax 16) (y.coll.twinTaken + 1) } }
  let y := bucketTrace b 4 h.shard (inPort r h.strand) y
  let y := writeBytes (some b.cmd) (resultAddr b r h.shard h.first) payload y
  if b.gather then
    let y := putBucket b y
    tryGather b r (if nextPos r r.selfPos = h.shard then y else sendOn b r 0 h.strand h.shard h.first h.elems payload y)
  else if h.shard = r.selfPos then stopSpoiled b.cmd (putBucket { b with shardFlags := b.shardFlags ||| fl } y)
  else sendOn b r fl h.strand h.shard h.first h.elems payload (putBucket b y)

/-- TWIN_COPY_ANSWER (R254, R348 to R350, R406). -/
def execTwinCopyAnswer (port : Nat) (m : WarpMsg) (s : State) : Host.Outcome State Fault Refusal :=
  onSys s (fun _ y =>
    match m with
    | .copyAnswer bytes elems =>
      let h := hdrOf bytes
      if isUp y && portTakes y port && twinPorts.elem port && twinOn y && !packetHeld y h then
        match bucketFor y h with
        | none => y
        | some b =>
          let r := routeAt y b.route
          let key := (h.shard, h.first)
          if b.finished || h.gen != b.gen || !b.asked.elem key || b.used.elem key || b.refusedCopy.elem key ||
              b.handled.any (fun q => q.1 == h.shard && q.2.1 == h.first) then y
          else match elems with
            | none => bucketsMoved (putBucket { b with refusedCopy := b.refusedCopy ++ [key] } y)
            | some payload => if payload.length = bktElemBytes b * h.elems then bucketsMoved (useCopy b r h payload y) else y
      else y
    | _ => y)

end Sys2Proof.Machine
end

