-- ==== Sys2Proof/Machine/CmdReg.lean ====
section
/-! DEFINITION. REG_READ, REG_WRITE, the rows that are writes of one register, and the lock commands (R323, R267, R444,
R458 to R466, R559, R625). -/

namespace Sys2Proof.Machine

open Sys2Proof

/-! ### Registers (R458, R459) -/

/-- BLOCK, REG and INSTANCE of word 0 (R459). -/
def regName (pk : Packet) : Nat × Nat × Nat := (pf pk 0 48 8, pf pk 0 32 8, pf pk 0 0 32)

/-- The fields of word 0 that REG_READ and REG_WRITE share (R458, R459). -/
def regBits : List (Nat × Nat) := [(48, 8), (32, 8), (0, 32)]

/-- REG_READ (R13, R458, R460, R461). -/
def execRegRead (pk : Packet) (s : State) : Host.Outcome State Fault Refusal :=
  let (b, r, i) := regName pk
  let check := fun (_ : Cmd) (y : Sys) => match regKind b r with
    | none => some (Status.regUnknown, ([] : List Word64))
    | some k => firstFail [(!goodInstance y k i, .paramRange)]
  onSys s (fun p y => execCommand 0x0700 [bits regBits] (fun _ => false) always check
    (fun c y => clearRead b r i (finish c.id .ok [regValue p y b r i] y)) pk y)

/-- A REG_WRITE with GUARD set (R459). -/
def guarded (pk : Packet) : Bool := pf pk 0 62 1 == 1

/-- The GUARD check fails (R459, R655). -/
def guardFails (c : Cmd) (y : Sys) : Option Status :=
  let k := pf c.pkt 0 56 6
  if guarded c.pkt then
    let l := mapGet {} y.lck k
    if l.state = LockState.held ∧ l.owner = c.creel then none else some .lockNotOwner
  else if k ≠ 0 then some .paramRange else none

/-- The instances that a REG_WRITE writes (R459). -/
def writtenInsts (pk : Packet) (k : InstKind) : List Nat :=
  if pf pk 0 63 1 = 1 then instances k else [(regName pk).2.2]

/-- The checks of a REG_WRITE, in the order of R459; COLL.SELF is not written while a route is loaded (ROUTE_BUSY in the
status table of chapter 8). -/
def writeCheck (p : Perm) (c : Cmd) (y : Sys) : Option (Status × List Word64) :=
  let (b, r, i) := regName c.pkt
  let broadcast := pf c.pkt 0 63 1 == 1
  match regKind b r with
  | none => some (.regUnknown, [])
  | some k =>
    if (if broadcast then i != 0 else !goodInstance y k i) then some (.paramRange, [])
    else match guardFails c y with
      | some st => some (st, [])
      | none => firstFail
        [(pw c.pkt 1 &&& reservedBits b r != 0, .reservedNonzero),
         ((writtenInsts c.pkt k).any (fun i => badWrite p y c.creel b r i (BitVec.ofNat 64 (pw c.pkt 1)) (BitVec.ofNat 64 (pw c.pkt 2))),
          .paramRange),
         (b == 0x0A && r == 0x00 && y.coll.routes.any (fun q => q.2.loaded), .routeBusy)]

/-- What an accepted REG_WRITE does (R459, R625). -/
def writeEffect (p : Perm) (c : Cmd) (y : Sys) : Sys :=
  let (b, r, _) := regName c.pkt
  let data := BitVec.ofNat 64 (pw c.pkt 1)
  let mask := BitVec.ofNat 64 (pw c.pkt 2)
  match regKind b r with
  | none => y
  | some k =>
    if b = 0x15 ∧ r = 0x02 ∧ flag (data &&& mask) 0 = true then requestShutdown c y
    else
      let is := writtenInsts c.pkt k
      finish c.id .ok [BitVec.ofNat 64 is.length] (is.foldl (fun z i => writeReg p b r i data mask z) y)

/-- Expiries come before a lock command or a guarded REG_WRITE that is read and accepted in the pick (R466). -/
def afterExpiries (op : Nat) (pk : Packet) (f : Sys → Sys) (y : Sys) : Sys :=
  if (atUnit op pk y).isSome then f (expireLocks y) else y

/-- A REG_WRITE packet meets Usdon firmware (R459, R462, R466). -/
def writeCommand (p : Perm) (pk : Packet) (y : Sys) : Sys :=
  let run := execCommand 0x0701 [bits (regBits ++ [(63, 1), (62, 1), (56, 6)]), allBits, allBits] (fun _ => false) always
    (writeCheck p) (writeEffect p) pk
  if guarded pk then afterExpiries 0x0701 pk run y else run y

/-- REG_WRITE (R459, R462, R466). -/
def execRegWrite (pk : Packet) (s : State) : Host.Outcome State Fault Refusal := onSys s (fun p y => writeCommand p pk y)

/-- A REG_WRITE packet that names one register; any other packet is none of this row's (R459). -/
def writeOf (b r : Nat) (pk : Packet) (p : Perm) (y : Sys) : Sys :=
  if (regName pk).1 = b ∧ (regName pk).2.1 = r then writeCommand p pk y else y

/-- SHUTDOWN_REQUEST: REG_WRITE of PWR.SHUTDOWN (R625, R653). -/
def execShutdownRequest (pk : Packet) (s : State) : Host.Outcome State Fault Refusal := onSys s (writeOf 0x15 0x02 pk)

/-- COLL_SELF_WRITE: REG_WRITE of COLL.SELF (R323, R372). -/
def execCollSelfWrite (pk : Packet) (s : State) : Host.Outcome State Fault Refusal := onSys s (writeOf 0x0A 0x00 pk)

/-- RUNAHEAD_DISABLE: REG_WRITE of YARN.CTL (R242, R267). -/
def execRunaheadDisable (pk : Packet) (s : State) : Host.Outcome State Fault Refusal := onSys s (writeOf 0x06 0x00 pk)

/-- CREEL_MODE_SET: REG_WRITE of CREEL.CTL (R444, R472). -/
def execCreelModeSet (pk : Packet) (s : State) : Host.Outcome State Fault Refusal := onSys s (writeOf 0x0D 0x00 pk)

/-- TRACE_RP_WRITE: REG_WRITE of OBS.TRACE_PTR (R559, R566). -/
def execTraceRpWrite (pk : Packet) (s : State) : Host.Outcome State Fault Refusal := onSys s (writeOf 0x12 0x02 pk)

/-! ### Locks (R463, R464, R466) -/

/-- The lock that a lock command names, and its LEASE_PICKS (R464). -/
def lockName (pk : Packet) : Nat × Nat := (pf pk 0 0 6, pf pk 0 32 32)

/-- Replace a lock. -/
def setLock (k : Nat) (l : Lock) (y : Sys) : Sys := { y with lck := mapSet {} y.lck k l }

/-- A result word with E (R464). -/
def expiryWord (e : Nat) : Word64 := BitVec.ofNat 64 (nfld e 0 48)

/-- LOCK.STATE as a result word (R464, R467). -/
def lockWord (l : Lock) : Word64 := BitVec.ofNat 64 (regVersion + lockStateReg l)

/-- The issuing creel holds the lock (R464). -/
def holds (c : Cmd) (l : Lock) : Bool := l.state == LockState.held && l.owner == c.creel

/-- The layout of the word that lock commands have (R464). -/
def lockLayout : List Nat := [bits [(32, 32), (0, 6)]]

/-- LOCK_ACQUIRE (R464). -/
def execLockAcquire (pk : Packet) (s : State) : Host.Outcome State Fault Refusal :=
  let (k, n) := lockName pk
  let check := fun (_ : Cmd) (y : Sys) =>
    let l := mapGet ({} : Lock) y.lck k
    if n = 0 then some (Status.paramRange, ([] : List Word64))
    else if l.state = .held then some (.lockHeld, [expiryWord l.expires, lockWord l]) else none
  let effect := fun (c : Cmd) (y : Sys) =>
    let l := mapGet ({} : Lock) y.lck k
    let e := pickNow y + n
    let broken := l.state == .broken
    finish c.id (if broken then .lockBroken else .ok) (expiryWord e :: if broken then [lockWord l] else [])
      (setLock k { state := .held, owner := c.creel, cause := 0, expires := e } y)
  onSys s (fun _ y => afterExpiries 0x0710 pk (execCommand 0x0710 lockLayout (fun _ => false) always check effect pk) y)

/-- LOCK_RENEW (R464). -/
def execLockRenew (pk : Packet) (s : State) : Host.Outcome State Fault Refusal :=
  let (k, n) := lockName pk
  let check := fun (c : Cmd) (y : Sys) => firstFail [(n == 0, .paramRange), (!holds c (mapGet {} y.lck k), .lockNotOwner)]
  let effect := fun (c : Cmd) (y : Sys) =>
    let e := pickNow y + n
    finish c.id .ok [expiryWord e] (setLock k { mapGet {} y.lck k with expires := e } y)
  onSys s (fun _ y => afterExpiries 0x0711 pk (execCommand 0x0711 lockLayout (fun _ => false) always check effect pk) y)

/-- LOCK_RELEASE (R464). -/
def execLockRelease (pk : Packet) (s : State) : Host.Outcome State Fault Refusal :=
  let (k, n) := lockName pk
  let check := fun (c : Cmd) (y : Sys) => firstFail [(n != 0, .paramRange), (!holds c (mapGet {} y.lck k), .lockNotOwner)]
  let effect := fun (c : Cmd) (y : Sys) =>
    finish c.id .ok [] (setLock k { mapGet {} y.lck k with state := .free } y)
  onSys s (fun _ y => afterExpiries 0x0712 pk (execCommand 0x0712 lockLayout (fun _ => false) always check effect pk) y)

end Sys2Proof.Machine
end

