-- ==== Sys2Proof/Machine/ImageEv.lean ====
section
/-! DEFINITION. Image transfer over the service port (R583 to R585, R593, R596, R598, R599, R619). -/

namespace Sys2Proof.Machine

open Sys2Proof

/-- A reserved byte of an image header is not zero (R583). -/
def headerReserved (h : List Byte) : Bool := at8 h 18 2 != 0 || at8 h 56 68 != 0

/-- The first condition of R598 that a header fails; a header of another length than 128 bytes fails HDR_CRC (log 37). -/
def headerResult (p : Perm) (y : Sys) (h : List Byte) : Option Nat :=
  let t := at8 h 5 1
  let n := at8 h 20 4
  let key := at8 h 7 1
  if at8 h 0 4 ≠ 0x57464C4F then some 0x10
  else if at8 h 4 1 ≠ 0x10 then some 0x11
  else if h.length ≠ 128 ∨ at8 h 124 4 ≠ crc32c (h.take 124) then some 0x12
  else if headerReserved h then some 0x13
  else if t < 1 ∨ 5 < t then some 0x14
  else if at8 h 8 2 ≠ 0x0096 then some 0x15
  else if at8 h 10 1 ≠ 0xA2 then some 0x16
  else if n % 64 ≠ 0 ∨ n < 64 ∨ bodyMax t < n then some 0x17
  else if at8 h 6 1 ≠ 0x01 then some 0x18
  else if 3 < key ∨ flag p.keyRevoked key = true then some 0x19
  else if at8 h 16 2 < floorOf p t then some 0x1A
  else if y.sec.transfer.active || mixed y t then some 0x1B
  else none

/-- IMAGE_STATUS for a header that is refused: its own type and version (R596, R598). -/
def refuseHeader (h : List Byte) (r : Nat) (y : Sys) : Sys :=
  let payload := leBytes 1 (at8 h 5 1) ++ leBytes 1 r ++ leBytes 2 0 ++ leBytes 4 0 ++ leBytes 4 (at8 h 12 4) ++ leBytes 4 0
  let y := { y with sec := { y.sec with transfer := { y.sec.transfer with result := r } } }
  sendSeq true 0x43 payload y

/-- The transfer begins: the alternate slot and any pending image of the type are invalid (R598). -/
def beginTransfer (h : List Byte) (y : Sys) : Sys :=
  let t := at8 h 5 1
  let y := onImages t (fun x => setSlot (altOf x) {} { x with waiting := false }) y
  imageStatus 0x00 { y with sec := { y.sec with transfer := { active := true, typ := t, header := h, result := y.sec.transfer.result } } }

/-- IMAGE_BEGIN (R598). -/
def execImageBegin (f : RxFrame) (s : State) : Host.Outcome State Fault Refusal :=
  onSys s (fun p y => onFrame [0x40] f (fun y =>
    match headerResult p y f.payload with
    | some r => refuseHeader f.payload r y
    | none => beginTransfer f.payload y) y)

/-- Bytes that a transfer brings: body and signature (R583, R598). -/
def transferBytes (tr : Transfer) : Nat := at8 tr.header 20 4 + 384

/-- IMAGE_DATA (R598): data of another size than the frame allows fails as BAD_OFFSET (log 37); mramOk: whether the write
into the alternate slot succeeds. -/
def execImageData (m : ImageFrame) (s : State) : Host.Outcome State Fault Refusal :=
  let f := m.frame
  let data := f.payload.drop 8
  onSys s (fun _ y => onFrame [0x41] f (fun y =>
    let tr := y.sec.transfer
    let bad := data.length < 64 ∨ 8128 < data.length ∨ data.length % 64 ≠ 0
    if bad ∨ at8 f.payload 0 4 ≠ tr.received ∨ transferBytes tr < tr.received + data.length then endTransfer 0x20 y
    else if m.mramOk = false then endTransfer 0x24 y
    else { y with sec := { y.sec with transfer := { tr with data := tr.data ++ data, received := tr.received + data.length } } }) y)

/-- What IMAGE_END finds: the first failure, or none (R583, R598). -/
def imageResult (tr : Transfer) : Option Nat :=
  let n := at8 tr.header 20 4
  let body := tr.data.take n
  if tr.received ≠ n + 384 then some 0x21
  else if sha256 body ≠ (tr.header.drop 24).take 32 then some 0x22
  else if Config.signatureValid (at8 tr.header 7 1) (tr.header ++ body) (tr.data.drop n) = false then some 0x23
  else none

/-- The image is pending for its type (R592, R598). -/
def stageImage (y : Sys) : Sys :=
  let tr := y.sec.transfer
  let v : ImageSlot := { valid := true, bytes := tr.header ++ tr.data.take (at8 tr.header 20 4) }
  let y := onImages tr.typ (fun x => setSlot (altOf x) v { x with waiting := true }) y
  imageStatus 0x01 { y with sec := { y.sec with transfer := { tr with active := false, data := [] } } }

/-- IMAGE_END (R598, R599); mramOk: whether the write that makes the image pending succeeds. -/
def execImageEnd (m : ImageFrame) (s : State) : Host.Outcome State Fault Refusal :=
  onSys s (fun _ y => onFrame [0x42] m.frame (fun y =>
    match imageResult y.sec.transfer with
    | some r => endTransfer r y
    | none => if m.mramOk then stageImage y else endTransfer 0x24 y) y)

/-- IMAGE_ABORT (R599). -/
def execImageAbort (f : RxFrame) (s : State) : Host.Outcome State Fault Refusal :=
  onSys s (fun _ y => onFrame [0x44] f (endTransfer 0x25) y)

end Sys2Proof.Machine
end

