-- ==== Sys2Proof/Machine/Dispatch.lean ====
section
/-! DEFINITION. One arm for each command, each a direct call of its meaning. -/

namespace Sys2Proof.Machine

open Sys2Proof

def exec (i : Instr) (s : State) : Host.Outcome State Fault Refusal :=
  match i with
  | .nop pk => Sys2Proof.Machine.execNop pk s
  | .fence pk => Sys2Proof.Machine.execFence pk s
  | .pickSet pk => Sys2Proof.Machine.execPickSet pk s
  | .timeRead pk => Sys2Proof.Machine.execTimeRead pk s
  | .memCopy pk => Sys2Proof.Machine.execMemCopy pk s
  | .memFill pk => Sys2Proof.Machine.execMemFill pk s
  | .yarnLoad pk => Sys2Proof.Machine.execYarnLoad pk s
  | .yarnStore pk => Sys2Proof.Machine.execYarnStore pk s
  | .memRetrain pk => Sys2Proof.Machine.execMemRetrain pk s
  | .accBegin pk => Sys2Proof.Machine.execAccBegin pk s
  | .accMatmul pk => Sys2Proof.Machine.execAccMatmul pk s
  | .accReadout pk => Sys2Proof.Machine.execAccReadout pk s
  | .accExportWide pk => Sys2Proof.Machine.execAccExportWide pk s
  | .accImportWide pk => Sys2Proof.Machine.execAccImportWide pk s
  | .accDiscard pk => Sys2Proof.Machine.execAccDiscard pk s
  | .vecLoad pk => Sys2Proof.Machine.execVecLoad pk s
  | .vecRun pk => Sys2Proof.Machine.execVecRun pk s
  | .redTopk pk => Sys2Proof.Machine.execRedTopk pk s
  | .redMaxmin pk => Sys2Proof.Machine.execRedMaxmin pk s
  | .redCensus pk => Sys2Proof.Machine.execRedCensus pk s
  | .warpFwdSet pk => Sys2Proof.Machine.execWarpFwdSet pk s
  | .routeSet pk => Sys2Proof.Machine.execRouteSet pk s
  | .bktReduce pk => Sys2Proof.Machine.execBktReduce pk s
  | .bktGather pk => Sys2Proof.Machine.execBktGather pk s
  | .bktDigestRead pk => Sys2Proof.Machine.execBktDigestRead pk s
  | .linkReset pk => Sys2Proof.Machine.execLinkReset pk s
  | .updRun pk => Sys2Proof.Machine.execUpdRun pk s
  | .updMicroLoad pk => Sys2Proof.Machine.execUpdMicroLoad pk s
  | .bobConvert pk => Sys2Proof.Machine.execBobConvert pk s
  | .bobGather pk => Sys2Proof.Machine.execBobGather pk s
  | .bobScatterAdd pk => Sys2Proof.Machine.execBobScatterAdd pk s
  | .stateSet pk => Sys2Proof.Machine.execStateSet pk s
  | .stateRead pk => Sys2Proof.Machine.execStateRead pk s
  | .censusClear pk => Sys2Proof.Machine.execCensusClear pk s
  | .censusRead pk => Sys2Proof.Machine.execCensusRead pk s
  | .stepBegin pk => Sys2Proof.Machine.execStepBegin pk s
  | .stepPrepare pk => Sys2Proof.Machine.execStepPrepare pk s
  | .stepCommit pk => Sys2Proof.Machine.execStepCommit pk s
  | .stepAbort pk => Sys2Proof.Machine.execStepAbort pk s
  | .stepUndo pk => Sys2Proof.Machine.execStepUndo pk s
  | .twinSet pk => Sys2Proof.Machine.execTwinSet pk s
  | .shadowBegin pk => Sys2Proof.Machine.execShadowBegin pk s
  | .shadowEnd pk => Sys2Proof.Machine.execShadowEnd pk s
  | .weaveSend pk => Sys2Proof.Machine.execWeaveSend pk s
  | .weaveRecv pk => Sys2Proof.Machine.execWeaveRecv pk s
  | .regRead pk => Sys2Proof.Machine.execRegRead pk s
  | .regWrite pk => Sys2Proof.Machine.execRegWrite pk s
  | .lockAcquire pk => Sys2Proof.Machine.execLockAcquire pk s
  | .lockRenew pk => Sys2Proof.Machine.execLockRenew pk s
  | .lockRelease pk => Sys2Proof.Machine.execLockRelease pk s
  | .fwQuery pk => Sys2Proof.Machine.execFwQuery pk s
  | .unitReset pk => Sys2Proof.Machine.execUnitReset pk s
  | .hsHandover pk => Sys2Proof.Machine.execHsHandover pk s
  | .attest pk => Sys2Proof.Machine.execAttest pk s
  | .measureRead pk => Sys2Proof.Machine.execMeasureRead pk s
  | .fuseDebugOff pk => Sys2Proof.Machine.execFuseDebugOff pk s
  | .ctrConfig pk => Sys2Proof.Machine.execCtrConfig pk s
  | .ctrRead pk => Sys2Proof.Machine.execCtrRead pk s
  | .traceConfig pk => Sys2Proof.Machine.execTraceConfig pk s
  | .traceTrigger pk => Sys2Proof.Machine.execTraceTrigger pk s
  | .watchSet pk => Sys2Proof.Machine.execWatchSet pk s
  | .evlogRead pk => Sys2Proof.Machine.execEvlogRead pk s
  | .lifeRead pk => Sys2Proof.Machine.execLifeRead pk s
  | .burlerSet pk => Sys2Proof.Machine.execBurlerSet pk s
  | .mendRead pk => Sys2Proof.Machine.execMendRead pk s
  | .steplogRead pk => Sys2Proof.Machine.execSteplogRead pk s
  | .ckptStream pk => Sys2Proof.Machine.execCkptStream pk s
  | .shutdownRequest pk => Sys2Proof.Machine.execShutdownRequest pk s
  | .collSelfWrite pk => Sys2Proof.Machine.execCollSelfWrite pk s
  | .runaheadDisable pk => Sys2Proof.Machine.execRunaheadDisable pk s
  | .creelModeSet pk => Sys2Proof.Machine.execCreelModeSet pk s
  | .traceRpWrite pk => Sys2Proof.Machine.execTraceRpWrite pk s
  | .vld n h => Sys2Proof.Machine.execVld n h s
  | .vst n h => Sys2Proof.Machine.execVst n h s
  | .vgather n h => Sys2Proof.Machine.execVgather n h s
  | .vscatter n h => Sys2Proof.Machine.execVscatter n h s
  | .vscatadd n h => Sys2Proof.Machine.execVscatadd n h s
  | .vadd n h => Sys2Proof.Machine.execVadd n h s
  | .vsub n h => Sys2Proof.Machine.execVsub n h s
  | .vmul n h => Sys2Proof.Machine.execVmul n h s
  | .vfma n h => Sys2Proof.Machine.execVfma n h s
  | .vdiv n h => Sys2Proof.Machine.execVdiv n h s
  | .vsqrt n h => Sys2Proof.Machine.execVsqrt n h s
  | .vmin n h => Sys2Proof.Machine.execVmin n h s
  | .vmax n h => Sys2Proof.Machine.execVmax n h s
  | .vand n h => Sys2Proof.Machine.execVand n h s
  | .vor n h => Sys2Proof.Machine.execVor n h s
  | .vxor n h => Sys2Proof.Machine.execVxor n h s
  | .vshl n h => Sys2Proof.Machine.execVshl n h s
  | .vshr n h => Sys2Proof.Machine.execVshr n h s
  | .vcmp n h => Sys2Proof.Machine.execVcmp n h s
  | .vsel n h => Sys2Proof.Machine.execVsel n h s
  | .vcvt n h => Sys2Proof.Machine.execVcvt n h s
  | .vredsum n h => Sys2Proof.Machine.execVredsum n h s
  | .vredmax n h => Sys2Proof.Machine.execVredmax n h s
  | .vredmin n h => Sys2Proof.Machine.execVredmin n h s
  | .vwld n h => Sys2Proof.Machine.execVwld n h s
  | .vwadd n h => Sys2Proof.Machine.execVwadd n h s
  | .vwst n h => Sys2Proof.Machine.execVwst n h s
  | .sadd n h => Sys2Proof.Machine.execSadd n h s
  | .smovi n h => Sys2Proof.Machine.execSmovi n h s
  | .slane n h => Sys2Proof.Machine.execSlane n h s
  | .br n h => Sys2Proof.Machine.execBr n h s
  | .bnz n h => Sys2Proof.Machine.execBnz n h s
  | .vBarrier n h => Sys2Proof.Machine.execVBarrier n h s
  | .vBarrierRelease n => Sys2Proof.Machine.execVBarrierRelease n s
  | .vEnd n h => Sys2Proof.Machine.execVEnd n h s
  | .threadSwitch e h granule => Sys2Proof.Machine.execThreadSwitch e h granule s
  | .fadd die => Sys2Proof.Machine.execFadd die s
  | .fsub die => Sys2Proof.Machine.execFsub die s
  | .fmul die => Sys2Proof.Machine.execFmul die s
  | .fdiv die => Sys2Proof.Machine.execFdiv die s
  | .fsqrt die => Sys2Proof.Machine.execFsqrt die s
  | .fmin die => Sys2Proof.Machine.execFmin die s
  | .fmax die => Sys2Proof.Machine.execFmax die s
  | .fneg die => Sys2Proof.Machine.execFneg die s
  | .fabs die => Sys2Proof.Machine.execFabs die s
  | .fsign die => Sys2Proof.Machine.execFsign die s
  | .fscale die => Sys2Proof.Machine.execFscale die s
  | .fsel die => Sys2Proof.Machine.execFsel die s
  | .fmov die => Sys2Proof.Machine.execFmov die s
  | .microEnd die => Sys2Proof.Machine.execMicroEnd die s
  | .sessionOpen f => Sys2Proof.Machine.execSessionOpen f s
  | .sessionForceEnd svc => Sys2Proof.Machine.execSessionForceEnd svc s
  | .sessionResume f => Sys2Proof.Machine.execSessionResume f s
  | .sessionClose f => Sys2Proof.Machine.execSessionClose f s
  | .sessionLapse svc => Sys2Proof.Machine.execSessionLapse svc s
  | .creelWrite f => Sys2Proof.Machine.execCreelWrite f s
  | .keepalive f => Sys2Proof.Machine.execKeepalive f s
  | .keepaliveSend k => Sys2Proof.Machine.execKeepaliveSend k s
  | .frameResend svc seq => Sys2Proof.Machine.execFrameResend svc seq s
  | .droppedFrame f => Sys2Proof.Machine.execDroppedFrame f s
  | .creelStatus => Sys2Proof.Machine.execCreelStatus s
  | .replyFlush svc => Sys2Proof.Machine.execReplyFlush svc s
  | .packetRead => Sys2Proof.Machine.execPacketRead s
  | .stall creel lane => Sys2Proof.Machine.execStall creel lane s
  | .commandCompletion creel lane => Sys2Proof.Machine.execCommandCompletion creel lane s
  | .lockExpired k => Sys2Proof.Machine.execLockExpired k s
  | .pick f => Sys2Proof.Machine.execPick f s
  | .pickInEdge => Sys2Proof.Machine.execPickInEdge s
  | .pickAdvance => Sys2Proof.Machine.execPickAdvance s
  | .pickEcho => Sys2Proof.Machine.execPickEcho s
  | .ctrSample set => Sys2Proof.Machine.execCtrSample set s
  | .arbitrationRound a arrivals withdrawn => Sys2Proof.Machine.execArbitrationRound a arrivals withdrawn s
  | .preemption a r doneBeats => Sys2Proof.Machine.execPreemption a r doneBeats s
  | .dramRead granule source wrong => Sys2Proof.Machine.execDramRead granule source wrong s
  | .dramWrite granule mask data => Sys2Proof.Machine.execDramWrite granule mask data s
  | .kill n granule => Sys2Proof.Machine.execKill n granule s
  | .writeComplete granule => Sys2Proof.Machine.execWriteComplete granule s
  | .runaheadRead n wrong => Sys2Proof.Machine.execRunaheadRead n wrong s
  | .granuleConsume u => Sys2Proof.Machine.execGranuleConsume u s
  | .slotFree e h => Sys2Proof.Machine.execSlotFree e h s
  | .scrubRead stack wrong => Sys2Proof.Machine.execScrubRead stack wrong s
  | .memRetrainDone ok pause => Sys2Proof.Machine.execMemRetrainDone ok pause s
  | .unitFailure cls inst => Sys2Proof.Machine.execUnitFailure cls inst s
  | .endingStart n t r => Sys2Proof.Machine.execEndingStart n t r s
  | .bucketConversionDone tag => Sys2Proof.Machine.execBucketConversionDone tag s
  | .bucketPacket port m => Sys2Proof.Machine.execBucketPacket port m s
  | .heldPartialRelease tag => Sys2Proof.Machine.execHeldPartialRelease tag s
  | .twinHalfSum port m => Sys2Proof.Machine.execTwinHalfSum port m s
  | .shardFinal tag => Sys2Proof.Machine.execShardFinal tag s
  | .bucketResend tag => Sys2Proof.Machine.execBucketResend tag s
  | .gatherPacket port m => Sys2Proof.Machine.execGatherPacket port m s
  | .latenessExpiry tag => Sys2Proof.Machine.execLatenessExpiry tag s
  | .twinCopyRequest port m => Sys2Proof.Machine.execTwinCopyRequest port m s
  | .twinCopyAnswer port m => Sys2Proof.Machine.execTwinCopyAnswer port m s
  | .warpForward port m => Sys2Proof.Machine.execWarpForward port m s
  | .remoteWrite port m => Sys2Proof.Machine.execRemoteWrite port m s
  | .linkPacket port e => Sys2Proof.Machine.execLinkPacket port e s
  | .identityFrame port m => Sys2Proof.Machine.execIdentityFrame port m s
  | .portUp port m => Sys2Proof.Machine.execPortUp port m s
  | .portFault port c => Sys2Proof.Machine.execPortFault port c s
  | .portDown port => Sys2Proof.Machine.execPortDown port s
  | .laneEqualization port => Sys2Proof.Machine.execLaneEqualization port s
  | .prepareDigest => Sys2Proof.Machine.execPrepareDigest s
  | .prepareMessage port m => Sys2Proof.Machine.execPrepareMessage port m s
  | .commitStart => Sys2Proof.Machine.execCommitStart s
  | .weavePacket port m => Sys2Proof.Machine.execWeavePacket port m s
  | .ckptData port m => Sys2Proof.Machine.execCkptData port m s
  | .ckptEnd port m => Sys2Proof.Machine.execCkptEnd port m s
  | .burlerSlice die wantsTile => Sys2Proof.Machine.execBurlerSlice die wantsTile s
  | .burlerTestDone die part digest expected => Sys2Proof.Machine.execBurlerTestDone die part digest expected s
  | .mendDone die pass => Sys2Proof.Machine.execMendDone die pass s
  | .imageBegin f => Sys2Proof.Machine.execImageBegin f s
  | .imageData f => Sys2Proof.Machine.execImageData f s
  | .imageEnd f => Sys2Proof.Machine.execImageEnd f s
  | .imageAbort f => Sys2Proof.Machine.execImageAbort f s
  | .hsFault h => Sys2Proof.Machine.execHsFault h s
  | .takeover => Sys2Proof.Machine.execTakeover s
  | .standbyReady bad => Sys2Proof.Machine.execStandbyReady bad s
  | .thermalSample die r => Sys2Proof.Machine.execThermalSample die r s
  | .lifeSample vcore => Sys2Proof.Machine.execLifeSample vcore s
  | .hoursTick => Sys2Proof.Machine.execHoursTick s
  | .perstNAssert ns => Sys2Proof.Machine.execPerstNAssert ns s
  | .perstNRelease hs0 hs1 => Sys2Proof.Machine.execPerstNRelease hs0 hs1 s
  | .bootStage1 failing badA badB => Sys2Proof.Machine.execBootStage1 failing badA badB s
  | .vauxRise => Sys2Proof.Machine.execVauxRise s
  | .shdnReqN ns => Sys2Proof.Machine.execShdnReqN ns s
  | .smbVersion => Sys2Proof.Machine.execSmbVersion s
  | .smbStatus => Sys2Proof.Machine.execSmbStatus s
  | .smbHottestLogic => Sys2Proof.Machine.execSmbHottestLogic s
  | .smbHottestDram => Sys2Proof.Machine.execSmbHottestDram s
  | .smbHottestOther => Sys2Proof.Machine.execSmbHottestOther s
  | .smbDieLogicTemp d => Sys2Proof.Machine.execSmbDieLogicTemp d s
  | .smbStackTemp d => Sys2Proof.Machine.execSmbStackTemp d s
  | .smbVcore d => Sys2Proof.Machine.execSmbVcore d s
  | .smbIdent => Sys2Proof.Machine.execSmbIdent s
  | .smbLife => Sys2Proof.Machine.execSmbLife s
  | .smbAlertResponse => Sys2Proof.Machine.execSmbAlertResponse s
  | .traceDrain u => Sys2Proof.Machine.execTraceDrain u s
  | .traceGap u => Sys2Proof.Machine.execTraceGap u s
  | .traceWindowEnd => Sys2Proof.Machine.execTraceWindowEnd s
  | .portTraining l => Sys2Proof.Machine.execPortTraining l s
  | .linkResetTimeout => Sys2Proof.Machine.execLinkResetTimeout s
  | .unitReportsReady standby die => Sys2Proof.Machine.execUnitReportsReady standby die s
  | .readyTimeExpiry standby die => Sys2Proof.Machine.execReadyTimeExpiry standby die s
  | .writesCompleteReport port m => Sys2Proof.Machine.execWritesCompleteReport port m s
  | .vauxLoss => Sys2Proof.Machine.execVauxLoss s
  | .testAccessPort ti => Sys2Proof.Machine.execTestAccessPort ti s

end Sys2Proof.Machine
end

