-- ==== Sys2Proof/Safety.lean ====
section
/-! DEFINITION. What the claims speak of: one-way state, canonical memory, frames. -/

namespace Sys2Proof.Safety

open Sys2Proof Sys2Proof.Machine

/-- The one-way state q follows p: no fuse element, revoked key, SVN floor or failed position is taken back
(R520, R584, R585, R612). -/
def onlyForward (p q : Perm) : Prop :=
  p.elements ≤ q.elements ∧ p.keyRevoked &&& q.keyRevoked = p.keyRevoked ∧
  (∀ t, mapGet 0 p.floors t ≤ mapGet 0 q.floors t) ∧ (∀ x, x ∈ p.failed → x ∈ q.failed) ∧ p.factory = q.factory

/-- A safe run: every step answers a next state. -/
def runs (s : State) : Prop := ∃ t, step s = .next t

/-- The packet meets its unit in s and passes the checks that every command shares: it waits at the unit, or is the ready
head of its lane; its version, reserved fields, codes, header, step and number of parameter words are as R29, R377 and
R436 ask. z is the state with the packet read, c its command
(R29, R377, R379, R436, R445, R446). -/
def Meets (op : Nat) (layout : List Nat) (badCodes : Bool) (pk : Packet) (s : State) (z : Sys) (c : Cmd) : Prop :=
  ∃ (d : Cmd) (shadow : Bool), atUnit op pk s.sys = some (z, d) ∧ pk.version = 0x10 ∧
    verdict z op layout badCodes d = .go shadow ∧ c = { d with shadow := shadow }

/-- What holds of every packet of an opcode that meets its unit: of the packet, the state, the state with the packet read,
and its command. -/
abbrev WhenMet (op : Nat) (layout : List Nat) (badCodes : Packet → Bool) (P : Packet → State → Sys → Cmd → Prop) : Prop :=
  ∀ (pk : Packet) (s : State) (z : Sys) (c : Cmd), Meets op layout (badCodes pk) pk s z c → P pk s z c

/-- An opcode none of whose fields holds codes. -/
abbrev noCodes (_ : Packet) : Bool := false

/-- The state in which the unit has taken the command up (R445, R556). -/
def taken (c : Cmd) (z : Sys) : Sys := accept c c.shadow z

/-- The next state: everything but the queue and the one-way state is y. -/
abbrev onward (s : State) (y : Sys) : Host.Outcome State Fault Refusal := .next { s with sys := y }

/-- The next state: everything but the queue is as given. -/
abbrev onwardAll (s : State) (x : Perm × Sys) : Host.Outcome State Fault Refusal := .next { s with perm := x.1, sys := x.2 }

/-- The state with every lease applied that has ended: the expiries of a pick come before a lock command or a guarded
REG_WRITE that is taken up in it (R466). -/
def afterLeases (s : State) : State := { s with sys := expireLocks s.sys }

/-- What holds of every lock command's packet that meets its unit, the leases applied. -/
abbrev WhenLocksMet (op : Nat) (P : Packet → State → Sys → Cmd → Prop) : Prop :=
  ∀ (pk : Packet) (s : State) (z : Sys) (c : Cmd), (atUnit op pk s.sys).isSome = true →
    Meets op lockLayout false pk (afterLeases s) z c → P pk s z c

/-- A REG_WRITE packet meets Usdon firmware, with the leases applied where it is guarded (R459, R466). -/
def WriteMeets (pk : Packet) (s : State) (z : Sys) (c : Cmd) : Prop :=
  Meets 0x0701 [bits (regBits ++ [(63, 1), (62, 1), (56, 6)]), allBits, allBits] false pk (if guarded pk then afterLeases s else s) z c ∧
  (atUnit 0x0701 pk s.sys).isSome = true

/-- The conditions of a REG_WRITE: the register exists, the instances are good, the guard holds, no reserved bit is
written, no owner refuses the value, and COLL.SELF is not written while a route is loaded (R459, R462, R655). -/
def WriteAllowed (pk : Packet) (p : Perm) (z : Sys) (c : Cmd) (k : InstKind) : Prop :=
  let (b, r, i) := regName pk
  regKind b r = some k ∧ (if pf pk 0 63 1 = 1 then i = 0 else goodInstance z k i = true) ∧
  (if guarded pk then (mapGet ({} : Lock) z.lck (pf pk 0 56 6)).state = .held ∧ (mapGet ({} : Lock) z.lck (pf pk 0 56 6)).owner = c.creel
   else pf pk 0 56 6 = 0) ∧
  pw pk 1 &&& reservedBits b r = 0 ∧
  (∀ j ∈ writtenInsts pk k, badWrite p z c.creel b r j (BitVec.ofNat 64 (pw pk 1)) (BitVec.ofNat 64 (pw pk 2)) = false) ∧
  ((b = 0x0A ∧ r = 0x00) → ∀ q ∈ z.coll.routes, q.2.loaded = false)

/-- The registers after a REG_WRITE that is no request of a shutdown (R459). -/
def written (pk : Packet) (p : Perm) (k : InstKind) (y : Sys) : Sys :=
  let (b, r, _) := regName pk
  (writtenInsts pk k).foldl (fun y i => writeReg p b r i (BitVec.ofNat 64 (pw pk 1)) (BitVec.ofNat 64 (pw pk 2)) y) y

/-- The engine of shuttle k.n runs thread k.h, which has not reached its instruction limit and stands at an instruction of the
given OP; no channel that the instruction accesses retrains, and each of its requests finds a slot (R207, R208, R213, R245,
R254). -/
def AtInstr (op : Nat) (s : State) (k : VCtx) : Prop :=
  ctxAt s.sys k.n k.h = some k ∧ isUp s.sys = true ∧ mayRun s.sys k.n k.h = true ∧
    ((runAt s.sys k.n).limit = 0 ∨ k.th.count < (runAt s.sys k.n).limit * 1024) ∧ nfld k.w 56 8 = op ∧
    instrHeld (viewed k.c s.sys) k = false ∧ instrUnissued (viewed k.c s.sys) k = false

/-- The state as the command of a thread sees it (R282). -/
def seen (s : State) (k : VCtx) : Sys := viewed k.c s.sys

/-- The next state after work that a running command does with the translation it began with (R282). -/
abbrev worked (s : State) (y : Sys) : Host.Outcome State Fault Refusal := onward s (unview y)

/-- What holds of every thread that stands at an instruction of an OP. -/
abbrev WhenAt (op : Nat) (P : State → VCtx → Prop) : Prop := ∀ (s : State) (k : VCtx), AtInstr op s k → P s k

/-- The microprogram run of a die stands at an instruction of the given OP: the command, its operation, the instruction
word and the run (R297, R298). -/
def AtMicro (op die : Nat) (s : State) (id : Nat) (o : UpdOp) (w : Word32) (r : MicroRun) : Prop :=
  r = microAt s.sys die ∧ r.cmd = some id ∧ (∃ c, findCmd s.sys id = some c ∧ o = updOf c.pkt) ∧ w = microWord s.sys die o ∧
  isUp s.sys = true ∧ microOp w = op

/-- The next state after a microprogram instruction that writes v into fD. -/
abbrev microNext (die : Nat) (s : State) (w : Word32) (r : MicroRun) (v : Word32) : Host.Outcome State Fault Refusal :=
  onward s (setMicro die { r with f := r.f.set (fld w 21 5) v, pos := r.pos + 1 } s.sys)

/-- A frame of a type arrives, and nothing drops it (R423). -/
def FrameTaken (typ : Nat) (f : RxFrame) (s : State) : Prop :=
  answers s.sys = true ∧ f.typ.toNat = typ ∧ dropOf s.sys f = none

/-- A session frame of a type arrives, nothing drops it and no common reason rejects it; z is the state with the frame
taken by an open session that it names (R420, R423, R425). -/
def SessionTaken (typ : Nat) (f : RxFrame) (s : State) (z : Sys) : Prop :=
  FrameTaken typ f s ∧ commonReason z f = none ∧
  z = (if (sessOf s.sys (onService f)).state = .open ∧ (sessOf s.sys (onService f)).id = sessionId f then takeFrame f s.sys else s.sys)

/-- A bucket packet arrives at a port that takes it, and is one that the adder of bucket b, on route r, takes: it is well
formed, lies in the strand and shard that it names, agrees with the member's command, is of its present generation, reaches
no retraining channel, and has been neither dealt with nor asked for (R254, R332, R333, R345, R349). -/
def PacketMeets (port : Nat) (bytes : List Byte) (s : State) (h : BucketHdr) (b : Bucket) (r : Route) : Prop :=
  isUp s.sys = true ∧ portTakes s.sys port = true ∧ malformed s.sys bytes = false ∧ h = hdrOf bytes ∧ bucketFor s.sys h = some b ∧
  (bytes.drop 32).length = bktElemBytes b * h.elems ∧ outsideStrand r b.count h = false ∧ packetHeld s.sys h = false ∧
  r = routeAt s.sys b.route ∧ b.failed = false ∧ b.converted = true ∧ h.gen = b.gen ∧ mismatched b r h = false ∧
  (hdrFlag h 3 = false → b.used.elem (h.shard, h.first) = false ∧ b.handled.any (fun q => q.1 == h.shard && q.2.1 == h.first) = false ∧
    b.asked.elem (h.shard, h.first) = false)

/-- The pick is before the end of the window that is open, or that this arrival opens (R347). -/
def onTime (s : State) (b : Bucket) (r : Route) : Prop := ∀ e, lateFrom (openWindow b (pickNow s.sys)) r = some e → pickNow s.sys < e

/-- Each command read has an identity of its own, in the order of reading, and one that waits for its unit has written
nothing (R445, R446). -/
def cmdsInOrder (y : Sys) : Prop :=
  (y.cm.cmds.map (fun c => c.id)).Pairwise (· < ·) ∧ (∀ c ∈ y.cm.cmds, c.id < y.cm.nextId) ∧
  (∀ c ∈ y.cm.cmds, c.phase = .forwarded → c.wrote = [])

/-- What memory lists is in canonical form: addresses rise strictly, and no byte that reads as zero unlisted is listed
as zero. -/
abbrev memoryWf (m : MemSt) : Prop :=
  mapRising m.cells = true ∧ ∀ p ∈ m.cells, p.2 = 0 → (unspecAt m p.1).isSome = true

/-- The ranges of an entry of the state map are as R274 asks: aligned, of its length, and in bonded DRAM of one stack; SEL is
0 while it is LOADING (R274, R276). -/
def entryLegal (k : Nat) (e : Entry) : Prop :=
  k < 256 ∧ e.face % 65536 = 0 ∧ e.back % 65536 = 0 ∧ e.length % 65536 = 0 ∧ 65536 ≤ e.length ∧
  e.face + e.length ≤ dramEnd ∧ e.back + e.length ≤ dramEnd ∧
  stackOf e.face = stackOf (e.face + e.length - 1) ∧ stackOf e.back = stackOf (e.back + e.length - 1) ∧
  stackOf e.face = stackOf e.back ∧ overlap e.face e.length e.back e.length = false ∧ (e.state = .loading → e.sel = false)

/-- No range of one entry overlaps a range of the other (R274). -/
def apart (d e : Entry) : Prop :=
  overlap d.face d.length e.face e.length = false ∧ overlap d.face d.length e.back e.length = false ∧
  overlap d.back d.length e.face e.length = false ∧ overlap d.back d.length e.back e.length = false

/-- The state map is as R274 and R276 ask: entries by rising number, each one that is not FREE legal, and no two of those
overlapping. -/
def mapLegal (y : Sys) : Prop :=
  mapRising y.smap.entries = true ∧ (∀ p ∈ y.smap.entries, p.2.state ≠ .free → entryLegal p.1 p.2) ∧
  (∀ p ∈ y.smap.entries, ∀ q ∈ y.smap.entries, p.2.state ≠ .free → q.2.state ≠ .free → p.1 ≠ q.1 → apart p.2 q.2)

/-- The commands that flip the banks: the start of a commit or of an undo that waited, and an undo that waits for nothing
(R280, R392, R397). -/
def flipsBanks : Instr → Bool
  | .commitStart | .stepUndo _ => true
  | _ => false

/-- The physical address at which a write of bytes from address a on stores byte i: its granule of bonded DRAM, or its word of a
shuttle store, is translated as a whole (R230, R275). -/
def storedAt (y : Sys) (a i : Nat) : Nat :=
  let unit := if a + i < dramEnd then 64 else 8
  let start := Nat.max a ((a + i) / unit * unit)
  translateAddr y start + (a + i - start)

/-- The constructors that may move the one-way state. -/
def movesOneWay : Instr → Bool
  | .linkReset _ | .fuseDebugOff _ | .memRetrainDone _ _ | .burlerTestDone _ _ _ _ | .mendDone _ _ | .unitReportsReady _ _
  | .standbyReady _ | .bootStage1 _ _ _ => true
  | _ => false

end Sys2Proof.Safety
end

