-- ==== Sys2Proof/Certificates/Slice0/Obligations.lean ====
section
/-! DEFINITION. The statements about the block that the provers prove. A statement that a command completes has the form
`exec c s = .next t`, under conditions on the state and the operands alone; taken c z is the state in which the command's
unit has taken it up. -/

open Sys2Proof Sys2Proof.Machine Sys2Proof.Safety

/-! ### The queue -/

/-- A step runs the command at the front of the queue on the state with the queue's rest; on an empty queue a
nanosecond passes (log 2). -/
def Obligations.StepRunsFrontCommand : Prop :=
  (∀ (c : Instr) (rest : List Instr) (s : State), step { s with pending := c :: rest } = exec c { s with pending := rest }) ∧
  (∀ s : State, s.pending = [] → step s = onward s (tickSys s.sys))

/-! ### Commands: general (R456, R491, R493, R503) -/

/-- NOP completes with OK; TIME_READ returns the stamp now and the time base; PICK_SET sets the pick source, the apply
delay and the echo period, and with LOAD schedules an advance; FENCE completes at once where it covers nothing that is
left, and else waits. -/
def Obligations.GeneralCommandsComplete : Prop :=
  (WhenMet 0x0000 [] noCodes fun pk s z c =>
    exec (.nop pk) s = onward s (finish c.id .ok [] (taken c z))) ∧
  (WhenMet 0x0011 [] noCodes fun pk s z c =>
    let st := stampNow s.sys
    exec (.timeRead pk) s = onward s (finish c.id .ok
      [BitVec.ofNat 64 (st.pick + b2n st.sat * 2 ^ 63), BitVec.ofNat 64 st.sub, BitVec.ofNat 64 s.sys.t.timeBase] (taken c z))) ∧
  (WhenMet 0x0010 [bits [(63, 1), (0, 48)], bits [(56, 2), (32, 12), (0, 32)]] (fun pk => badCode pk 1 56 2 [0, 1]) fun pk s z c =>
    200 ≤ pf pk 1 32 12 → pf pk 0 63 1 = 0 → pf pk 0 0 48 = 0 →
    let t := { s.sys.t with source := BitVec.ofNat 2 (pf pk 1 56 2), applyDelay := BitVec.ofNat 12 (pf pk 1 32 12),
                            echoEvery := BitVec.ofNat 32 (pf pk 1 0 32) }
    exec (.pickSet pk) s = onward s (finish c.id .ok [BitVec.ofNat 64 (pickNow s.sys), 0]
      { taken c z with t := { t with pinTarget := countAhead s.sys.t + 1 } })) ∧
  (WhenMet 0x0010 [bits [(63, 1), (0, 48)], bits [(56, 2), (32, 12), (0, 32)]] (fun pk => badCode pk 1 56 2 [0, 1]) fun pk s z c =>
    200 ≤ pf pk 1 32 12 → pf pk 0 63 1 = 1 →
    (countAhead s.sys.t ≤ pf pk 0 0 48 ∨
      (s.sys.stp.state = .idle ∧ ∀ l ∈ (expireLocks z).lck, l.2.state ≠ .held)) →
    let t := { s.sys.t with source := BitVec.ofNat 2 (pf pk 1 56 2), applyDelay := BitVec.ofNat 12 (pf pk 1 32 12),
                            echoEvery := BitVec.ofNat 32 (pf pk 1 0 32) }
    let t := schedule (pf pk 0 0 48) s.sys.t.timeBase false true t
    exec (.pickSet pk) s = onward s (finish c.id .ok
      [BitVec.ofNat 64 (pickNow s.sys), BitVec.ofNat 64 (t.lastApply.getD 0)] { taken c z with t := t })) ∧
  (WhenMet 0x0001 [bits [(16, 2), (8, 8), (0, 8)]] (fun pk => badCode pk 0 16 2 [0, 1, 2]) fun pk s z c => badFence pk = false →
    exec (.fence pk) s = onward s (settleFences (taken c z)))

/-! ### Commands: memory (R260, R262, R263) and streams (R257, R259) -/

/-- MEM_FILL writes its pattern over the range; MEM_COPY copies the bytes of its source, which holds no poison, in the
device, or sends them to another device and waits for its report; MEM_RETRAIN starts the retraining of one channel. -/
def Obligations.MemoryCommandsComplete : Prop :=
  (WhenMet 0x0101 [bits [(32, 5)], allBits, bits [(0, 40)], allBits] noCodes fun pk s z c =>
    let dst := pw pk 1
    let n := pf pk 2 0 40
    pf pk 0 32 5 ≤ 17 → n % 64 = 0 → 64 ≤ n → n ≤ 2 ^ 39 → aligned64 dst = true → inDramOrStore dst n = true →
    rangeHeld s.sys dst n = false → protectedHit s.sys (backIsFace c) dst n = false →
    exec (.memFill pk) s = onward s (finish c.id .ok [] (writeBytes (some c.id) dst (patternBytes (pw pk 3) (n / 8)) (taken c z)))) ∧
  (WhenMet 0x0100 [bits [(32, 5), (0, 1)], allBits, allBits, bits [(0, 40)]] noCodes fun pk s z c =>
    let src := pw pk 1
    let n := pf pk 3 0 40
    let glob := pf pk 0 0 1 = 1
    let dst := if glob then nfld (pw pk 2) 0 54 else pw pk 2
    pf pk 0 32 5 ≤ 17 → n % 64 = 0 → 64 ≤ n → n ≤ 2 ^ 39 → aligned64 src = true → aligned64 dst = true →
    inDramOrStore src n = true → fileClosed s.perm [(src, n)] = false → rangeHeld s.sys src n = false →
    consume 3 src n (taken c z) = none →
    ((glob → ownNumber s.sys (nfld (pw pk 2) 54 10) = true) → overlap src n dst n = false → inDramOrStore dst n = true →
      rangeHeld s.sys dst n = false → protectedHit s.sys (backIsFace c) dst n = false →
      exec (.memCopy pk) s = onward s (finish c.id .ok [] (writeBytes (some c.id) dst (readBytes s.sys src n) (taken c z)))) ∧
    (∀ w, glob → ownNumber s.sys (nfld (pw pk 2) 54 10) = false → inDram dst n = true → c.shadow = false →
      fwdTo s.sys (nfld (pw pk 2) 54 10) ≠ 0xFF → portTo s.sys (nfld (pw pk 2) 54 10) = some w → portUp s.sys w = true →
      let self := s.sys.coll.selfDev.toNat
      let m := WarpMsg.memWrite self (nfld (pw pk 2) 54 10) c.id dst (backIsFace c) (readBytes s.sys src n)
      let y := sendWarp w m (taken c z)
      let r : RemoteCopy := { cmd := c.id, device := nfld (pw pk 2) 54 10, port := w, left := 1, st := .ok }
      exec (.memCopy pk) s = onward s { y with mem := { y.mem with remote := y.mem.remote ++ [r] } })) ∧
  (WhenMet 0x0120 [bits [(40, 5), (0, 8)]] noCodes fun pk s z c =>
    pf pk 0 40 5 ≤ 17 → s.sys.mem.retrain = none →
    let r : Retrain := { cmd := c.id, stack := pf pk 0 40 5, channel := pf pk 0 0 8, start := s.sys.t.timeBase }
    exec (.memRetrain pk) s = onward s { taken c z with mem := { s.sys.mem with retrain := some r } })

/-- YARN_LOAD takes its shuttle's yarn engine, which run-ahead and consumption then serve; YARN_STORE writes the runs of
its descriptor from the shuttle store, whose source holds no marked word. -/
def Obligations.YarnCommandsComplete : Prop :=
  (WhenMet 0x0110 ([bits [(32, 12), (24, 8), (16, 2), (0, 16)]] ++ descLayout ++ [allBits, allBits])
      (fun pk => badCode pk 0 24 8 (0 :: fmtCodes) || badCode pk 0 16 2 [0, 1] || badCode pk 1 56 8 [0x10] || badCode pk 1 48 8 fmtCodes)
      fun pk s z c =>
    let l := loadOf pk
    badShuttle s.sys l.shuttle = false →
    (∀ f, l.out = some f → isBlockFmt f = true ∧ (l.desc.fmt = some .fp32 ∨ l.desc.fmt = some .bf16) ∧ l.desc.run % quantBlock l = 0) →
    (l.out = none → l.conv = 0) → l.kib ≤ 256 → badDescFields pk 1 = false → (loadScales l = 0 → l.destScale = 0) →
    fileClosed s.perm (descFirst l.desc) = false → badDescAddr l.desc = false → aligned64 l.dest = true → aligned64 l.destScale = true →
    inStore l.shuttle l.dest (loadElems l) = true → (loadScales l ≠ 0 → inStore l.shuttle l.destScale (loadScales l) = true) →
    mending s.sys l.shuttle = false → (yarnAt s.sys l.shuttle).cmd = none →
    exec (.yarnLoad pk) s = onward s (trimCopies l.shuttle (setYarn l.shuttle
      { yarnAt s.sys l.shuttle with cmd := some c.id, pos := 0, lane := laneKey c.creel c.lane } (taken c z)))) ∧
  (WhenMet 0x0111 ([bits [(32, 12)]] ++ descLayout ++ [allBits, allBits])
      (fun pk => badCode pk 1 56 8 [0x10] || badCode pk 1 48 8 fmtCodes) fun pk s z c =>
    let n := pf pk 0 32 12
    let d := descOf pk 1
    let scaled := descBlock d ≠ 0
    badShuttle s.sys n = false → badDescFields pk 1 = false → (¬ scaled → pw pk 8 = 0) →
    fileClosed s.perm [(pw pk 7, descBytes d), (pw pk 8, descScales d)] = false → badDescAddr d = false →
    aligned64 (pw pk 7) = true → aligned64 (pw pk 8) = true → inStore n (pw pk 7) (descBytes d) = true →
    (scaled → inStore n (pw pk 8) (descScales d) = true) → mending s.sys n = false → (yarnAt s.sys n).cmd = none →
    anyHeld s.sys (storeRuns d) = false →
    (∀ r ∈ storeRuns d, protectedHit s.sys (backIsFace c) r.1 r.2 = false) →
    consumeAll 1 (taken c z) ([(pw pk 7, descBytes d)] ++ if scaled then [(pw pk 8, descScales d)] else []) = none →
    let data := readBytes s.sys (pw pk 7) (descBytes d) ++ (if scaled then readBytes s.sys (pw pk 8) (descScales d) else [])
    exec (.yarnStore pk) s = onward s (finish c.id .ok [] (writeAll c.id (cutRuns (storeRuns d) data) (taken c z))))

/-! ### Commands: accumulation (R183 to R203) -/

/-- ACC_BEGIN opens an exact or a guarded accumulation on a tile that stands closed and adds its preload; ACC_MATMUL adds
one chunk of products to an open tile; ACC_IMPORT_WIDE adds wide elements as one term. Operands are taken that hold no
poison. -/
def Obligations.AccumulationWorkCompletes : Prop :=
  (WhenMet 0x0200 [bits (tileBits ++ [(20, 2), (16, 4), (8, 2), (4, 2)]), bits [(48, 16), (24, 7), (16, 7), (8, 8)], allBits, bits [(0, 32)]]
      (fun pk => badCode pk 0 16 4 (List.range 10) || badCode pk 0 8 2 [0, 1] || badCode pk 0 4 2 [0, 1, 2] || badCode pk 1 8 8 (0 :: fmtCodes))
      fun pk s z c =>
    let n := pf pk 0 32 12
    let t := pf pk 0 24 3
    let u := pf pk 0 20 2
    let shape := pf pk 0 16 4
    let o := preOf pk.params
    let base := sext (pf pk 1 48 16) 16
    let row := match o.fmt with | some f => rowBytes f o.n | none => 0
    badShuttle s.sys n = false → (o.mode ≠ 0 → pf pk 1 8 8 ∈ [0x20, 0x21, 0x22]) →
    (o.mode = 0 → pf pk 1 8 8 = 0 ∧ o.addr = 0 ∧ o.pitch = 0) → (o.mode = 1 → o.pitch = 0) →
    (o.mode = 2 → shortPitch o.pitch row = false) →
    (o.mode ≠ 0 → aligned64 o.addr = true ∧ o.pitch % 64 = 0 ∧
      inStoreOrDram n o.addr (if o.mode = 2 then spanBytes o.m o.pitch row else row) = true) →
    fileClosed s.perm (preRanges o) = false → anyHeld s.sys (preRanges o) = false →
    (if o.mode = 0 then mending s.sys n = false else shuttleReady n c z = true) → (burDie s.sys (n / 128)).holds ≠ some (n, t) →
    (pf pk 0 8 2 ≠ 1 → shape = 0 → u = 0 → -640 ≤ base → base ≤ 511 → 1 ≤ o.m → o.m ≤ 64 → 1 ≤ o.n → o.n ≤ 64 →
      beginBlockers (tileAt s.sys n t) false u = [] →
      let y := setTile n t (openExact c base o (Config.operandDigest (rangeBytes s.sys (preRanges o))) (tileAt s.sys n t)) (taken c z)
      consumeAll 7 y (preRanges o) = none →
      let p := tileAt y n t
      exec (.accBegin pk) s = onward s (finish c.id .ok [] (setTile n t { p with exact := tileAdd (preTerms y o base) p.exact } y))) ∧
    (pf pk 0 8 2 = 1 → o.m = (shapeDims shape).1 → o.n = (shapeDims shape).2.1 → base = 0 →
      beginBlockers (tileAt s.sys n t) true u = [] →
      let y := setTile n t (openNarrow c u shape o (tileAt s.sys n t)) (taken c z)
      consumeAll 7 y (preRanges o) = none →
      let p := tileAt y n t
      exec (.accBegin pk) s = onward s (finish c.id .ok [] (setTile n t (setNarrow u (narrowPre (preValues y o) (narrowAt p u)) p) y)))) ∧
  (WhenMet 0x0201 [bits (tileBits ++ [(20, 2)]), bits [(56, 8), (48, 8), (40, 7), (32, 7), (0, 32)], allBits, allBits, allBits, allBits, allBits, allBits]
      (fun pk => badCode pk 1 56 8 fmtCodes || badCode pk 1 48 8 fmtCodes) fun pk s z c =>
    let n := pf pk 0 32 12
    let t := pf pk 0 24 3
    let u := pf pk 0 20 2
    let o := matOf pk.params
    let p := tileAt s.sys n t
    badShuttle s.sys n = false →
    ((lowCode (pf pk 1 56 8) = true ∧ lowCode (pf pk 1 48 8) = true) ∨ (floatCode (pf pk 1 56 8) = true ∧ floatCode (pf pk 1 48 8) = true)) →
    1 ≤ o.k → o.k ≤ 32768 → fileClosed s.perm (matRanges o) = false →
    badOperand o.fa o.k o.aPitch o.aScale o.aScalePitch = false → badOperand o.fb o.k o.bPitch o.bScale o.bScalePitch = false →
    badOperandAddr n o.fa o.m o.k o.a o.aPitch o.aScale o.aScalePitch = false →
    badOperandAddr n o.fb o.n o.k o.b o.bPitch o.bScale o.bScalePitch = false →
    namedTile p u = (.opened, false, (namedTile p u).2.2) → wrongLane c p u = false →
    (if p.guarded then o.m = (shapeDims (narrowAt p u).shape).1 ∧ o.n = (shapeDims (narrowAt p u).shape).2.1
     else o.m = p.exact.m ∧ o.n = p.exact.n ∧ u = 0) →
    (namedTile p u).2.2 + groupCount o.k ≤ termLimit → shuttleReady n c z = true → engineTaken c z = false →
    consumeAll 2 (taken c z) (matRanges o) = none →
    exec (.accMatmul pk) s = onward s (addMatmul c n t u o (taken c z))) ∧
  (WhenMet 0x0204 [bits tileBits, allBits, bits [(32, 32)]] noCodes fun pk s z c =>
    let n := pf pk 0 32 12
    let t := pf pk 0 24 3
    let x := (tileAt s.sys n t).exact
    let rs := wideRanges (pw pk 1) (pf pk 2 32 32) x.m x.n
    badShuttle s.sys n = false → shortPitch (pf pk 2 32 32) (x.n * 40) = false → pw pk 1 % 8 = 0 → pf pk 2 32 32 % 8 = 0 →
    inStoreOrDram n (pw pk 1) (spanBytes x.m (pf pk 2 32 32) (x.n * 40)) = true → (tileAt s.sys n t).guarded = false →
    fileClosed s.perm rs = false → x.status = .opened → x.failed = false → x.terms + 1 ≤ termLimit → shuttleReady n c z = true →
    vecFree s.sys n = true → engineTaken c z = false → anyHeld s.sys rs = false →
    consumeAll 2 (taken c z) rs = none →
    exec (.accImportWide pk) s = onward s (importTile c n t (rs.map (fun r => wideOf (readBytes s.sys r.1 40))) (taken c z)))

/-- An ending command, ACC_READOUT, ACC_EXPORT_WIDE or ACC_DISCARD, is accepted on an open tile: the tile takes no more
work. -/
def Obligations.EndingCommandsAreAccepted : Prop :=
  (WhenMet 0x0202 [bits (tileBits ++ [(20, 2), (17, 1), (16, 1), (8, 8), (0, 2)]), allBits, allBits, allBits, allBits, allBits, allBits, allBits,
        bits [(32, 32), (0, 12)]]
      (fun pk => badCode pk 0 8 8 fmtCodes || badCode pk 0 0 2 [0, 1]) fun pk s z c =>
    let n := pf pk 0 32 12
    let t := pf pk 0 24 3
    let u := pf pk 0 20 2
    let o := readOf pk.params
    let f := o.fmt.getD .fp32
    let p := tileAt s.sys n t
    let d := outShape p u
    badShuttle s.sys n = false → f ≠ .gf64 → f ≠ .wp256 → -256 ≤ o.scale → o.scale ≤ 255 → badClamp o = false → o.slot ≤ 0x3FF →
    shortPitch o.pitch (rowBytes f d.2) = false → aligned64 o.dest = true → o.pitch % 64 = 0 →
    inStoreOrDram n o.dest (spanBytes d.1 o.pitch (rowBytes f d.2)) = true →
    (isBlockFmt f = false → o.destScale = 0 ∧ o.scalePitch = 0) →
    (isBlockFmt f = true → shortPitch o.scalePitch (scaleRowBytes f d.2) = false ∧ aligned64 o.destScale = true ∧ o.scalePitch % 64 = 0 ∧
      inStoreOrDram n o.destScale (spanBytes d.1 o.scalePitch (scaleRowBytes f d.2)) = true) →
    namedTile p u = (.opened, false, (namedTile p u).2.2) → wrongLane c p u = false → (p.guarded = false → u = 0) →
    shuttleReady n c z = true →
    exec (.accReadout pk) s = onward s (startEnding c n t u (taken c z))) ∧
  (WhenMet 0x0203 [bits tileBits, allBits, bits [(32, 32)]] noCodes fun pk s z c =>
    let n := pf pk 0 32 12
    let t := pf pk 0 24 3
    let x := (tileAt s.sys n t).exact
    badShuttle s.sys n = false → shortPitch (pf pk 2 32 32) (x.n * 40) = false → pw pk 1 % 8 = 0 → pf pk 2 32 32 % 8 = 0 →
    inStoreOrDram n (pw pk 1) (spanBytes x.m (pf pk 2 32 32) (x.n * 40)) = true → (tileAt s.sys n t).guarded = false →
    x.status = .opened → x.failed = false → shuttleReady n c z = true →
    exec (.accExportWide pk) s = onward s (startEnding c n t 0 (taken c z))) ∧
  (WhenMet 0x0205 discardLayout noCodes fun pk s z c =>
    let n := pf pk 0 32 12
    let t := pf pk 0 24 3
    let u := pf pk 0 20 2
    let p := tileAt s.sys n t
    badShuttle s.sys n = false → (namedTile p u).1 = .opened → wrongLane c p u = false → (p.guarded = false → u = 0) →
    c.behind = none → mending s.sys n = false →
    exec (.accDiscard pk) s = onward s (startEnding c n t u (taken c z)))

/-! ### Commands: vector programs and reductions (R206, R207, R214 to R218) -/

/-- VEC_LOAD copies a program into the program memories of the shuttles it selects; VEC_RUN starts the threads of a run. -/
def Obligations.VectorCommandsComplete : Prop :=
  (WhenMet 0x0300 [bits [(32, 5), (0, 12)], allBits, allBits, allBits] noCodes fun pk s z c =>
    let len := pf pk 0 0 12
    let src := pw pk 1
    pf pk 0 32 5 ≤ 17 → (∀ n ∈ loadTargets pk, badShuttle s.sys n = false ∧ (runAt s.sys n).cmd = none ∧ mending s.sys n = false) →
    1 ≤ len → len ≤ 2048 → fileClosed s.perm [(src, 8 * len)] = false → aligned64 src = true → inDram src (8 * len) = true →
    rangeHeld s.sys src (8 * len) = false → consume 8 src (8 * len) (taken c z) = none →
    let b := readBytes s.sys src (8 * len)
    let prog := (loadTargets pk).foldl (fun m n => putProgram n (words8 len b) m) s.sys.vec.prog
    exec (.vecLoad pk) s = onward s (finish c.id .ok [BitVec.ofNat 64 (crc32c b)] { taken c z with vec := { s.sys.vec with prog := prog } })) ∧
  (WhenMet 0x0301 ([bits [(32, 12), (24, 4), (0, 11)], bits [(32, 32)]] ++ List.replicate 8 allBits) noCodes fun pk s z c =>
    let n := pf pk 0 32 12
    let args := (List.range 8).map (fun i => BitVec.ofNat 64 (pw pk (i + 2)))
    let run : VecRun := { cmd := some c.id, limit := pf pk 1 32 32,
                          threads := (List.range (pf pk 0 24 4 + 1)).map (newThread args (pf pk 0 0 11)) }
    badShuttle s.sys n = false → shuttleReady n c z = true → (runAt s.sys n).cmd = none → engineTaken c z = false →
    exec (.vecRun pk) s = onward s (setEng n {} (setRun n run (taken c z))))

/-- RED_TOPK writes the first K ranked elements of each row and their positions, RED_MAXMIN the record of maximum and
minimum of each row, RED_CENSUS counts a stored tensor into a census slot. The input holds no poison. -/
def Obligations.ReductionsComplete : Prop :=
  (WhenMet 0x0310 [bits (redBits ++ [(17, 1), (16, 1), (0, 7)]), allBits, allBits, allBits, allBits, allBits, allBits, allBits, bits [(32, 32)], 0]
      redEnum fun pk s z c =>
    let o := redOf pk
    let f := redFmt o
    let k := pf pk 0 0 7
    let pairs := pf pk 0 17 1 = 1
    let valPitch := pf pk 6 32 32
    let posPitch := pf pk 6 0 32
    let inPitch := pf pk 8 32 32
    let posIn := if pairs then rowRanges (pw pk 7) inPitch o.rows (4 * o.n) else []
    let outs := rowRanges (pw pk 4) valPitch o.rows (rowBytes f k) ++ rowRanges (pw pk 5) posPitch o.rows (4 * k)
    badRedUnit s.sys o = false → isScalarFmt f = true → 1 ≤ k → k ≤ 64 → badRedFields o k = false →
    (pairs → pf pk 3 0 32 = 0 ∧ shortPitch inPitch (4 * o.n) = false ∧ aligned64 (pw pk 7) = true ∧ inPitch % 64 = 0 ∧
      redRange o (pw pk 7) (spanBytes o.rows inPitch (4 * o.n)) = true) →
    (¬ pairs → pw pk 7 = 0 ∧ inPitch = 0) → shortPitch valPitch (rowBytes f k) = false → shortPitch posPitch (4 * k) = false →
    badRedSrc o = false → aligned64 (pw pk 4) = true → aligned64 (pw pk 5) = true → valPitch % 64 = 0 → posPitch % 64 = 0 →
    redRange o (pw pk 4) (spanBytes o.rows valPitch (rowBytes f k)) = true →
    redRange o (pw pk 5) (spanBytes o.rows posPitch (4 * k)) = true → fileClosed s.perm (redRanges o ++ posIn) = false →
    redReady o (redRanges o ++ posIn ++ outs) c z = true →
    let pos := fun (r e : Nat) => if pairs then readNat s.sys (pw pk 7 + r * inPitch + 4 * e) 4 else (pf pk 3 0 32 + e) % 2 ^ 32
    let rows := (List.range o.rows).map (fun r => rankedRow s.sys o (pos r) r)
    let best := rows.map (fun row => (sortBy (ranks (pf pk 0 16 1 == 1)) row).take k)
    let ws := best.zipIdx.flatMap (fun (p : List Ranked × Nat) =>
      [(pw pk 4 + p.2 * valPitch, packCodes (fmtWidth f) (p.1.map (fun e => e.code))),
       (pw pk 5 + p.2 * posPitch, p.1.flatMap (fun e => leBytes 4 e.pos))])
    (∀ w ∈ ws, protectedHit s.sys (backIsFace c) w.1 w.2.length = false) →
    consumeAll (redSource o) (taken c z) (redRanges o ++ posIn) = none →
    let nans := (rows.flatten.filter (fun e => e.val.cls == Cls.nan)).length
    exec (.redTopk pk) s = onward s (finish c.id .ok [BitVec.ofNat 64 (satAt (umax 32) nans)] (writeAll c.id ws (taken c z)))) ∧
  (WhenMet 0x0311 [bits redBits, allBits, allBits, allBits, allBits] redEnum fun pk s z c =>
    let o := redOf pk
    let out := pw pk 4
    badRedUnit s.sys o = false → isScalarFmt (redFmt o) = true → badRedFields o 1 = false → badRedSrc o = false → aligned64 out = true →
    redRange o out (16 * o.rows) = true → fileClosed s.perm (redRanges o) = false →
    redReady o ((out, 16 * o.rows) :: redRanges o) c z = true → protectedHit s.sys (backIsFace c) out (16 * o.rows) = false →
    consumeAll (redSource o) (taken c z) (redRanges o) = none →
    let rows := (List.range o.rows).map (fun r => rankedRow s.sys o (fun e => (pf pk 3 0 32 + e) % 2 ^ 32) r)
    exec (.redMaxmin pk) s = onward s (finish c.id .ok [] (writeBytes (some c.id) out (rows.flatMap maxminRecord) (taken c z)))) ∧
  (WhenMet 0x0312 [bits (redBits ++ [(0, 12)]), allBits, allBits, bits [(32, 32)]] redEnum fun pk s z c =>
    let o := redOf pk
    badRedUnit s.sys o = false → isScalarFmt (redFmt o) = true → badRedFields o 1 = false → 1 ≤ pf pk 0 0 12 → pf pk 0 0 12 ≤ 0x3FF →
    badRedSrc o = false → fileClosed s.perm (redRanges o) = false → redReady o (redRanges o) c z = true → consumeAll (redSource o) (taken c z) (redRanges o) = none →
    let vs := (List.range o.rows).flatMap (fun r => (rowCodes s.sys o r).map (fun e => decodeFmt (redFmt o) e 0))
    let zeros := (vs.filter (fun v => v.cls == Cls.finite && v.m == 0)).length
    let nonf := (vs.filter (fun v => v.cls != Cls.finite)).length
    let d : CensusDelta := { slot := pf pk 0 0 12, die := redDie o, elements := vs.length, zero := zeros, nonfinite := nonf,
                             sat := 0, vanished := 0, underflow := 0, exps := expsOf vs }
    exec (.redCensus pk) s = onward s (finish c.id .ok [BitVec.ofNat 64 (satAt (umax 32) zeros + satAt (umax 32) nonf * 2 ^ 32)]
      (modCmd c.id (fun c => { c with census := [d] }) (taken c z))))

/-! ### Commands: routes and buckets (R324 to R329, R353, R357, R362 to R368) -/

/-- WARP_FWD_SET loads the forwarding table, ROUTE_SET loads or frees a route, LINK_RESET takes the ports of a link die
down, and BKT_DIGEST_READ writes bucket records and returns the collective digest. -/
def Obligations.RouteCommandsComplete : Prop :=
  (WhenMet 0x0400 [allBits] noCodes fun pk s z c =>
    let a := pw pk 0
    fileClosed s.perm [(a, 1024)] = false → aligned64 a = true → inDram a 1024 = true → rangeHeld s.sys a 1024 = false → consume 8 a 1024 z = none → consume 8 a 1024 (taken c z) = none →
    (∀ e ∈ fwdEntries s.sys a, e < 0x40 ∧ portUp s.sys e = true ∨ 0xFE ≤ e) → ownEntryUsed s.sys (fwdEntries s.sys a) = false →
    exec (.warpFwdSet pk) s = onward s (finish c.id .ok []
      { taken c z with coll := { s.sys.coll with fwd := fwdMap (fwdEntries s.sys a) } })) ∧
  (WhenMet 0x0401 [bits [(48, 10), (32, 9), (28, 1), (24, 1), (16, 3), (8, 2), (0, 4)], allBits,
        bits [(0, 6), (8, 6), (16, 6), (24, 6), (32, 6), (40, 6), (48, 6), (56, 6)],
        bits [(0, 6), (8, 6), (16, 6), (24, 6), (32, 6), (40, 6), (48, 6), (56, 6)]]
      (fun pk => badCode pk 0 8 2 [0, 1]) fun pk s z c =>
    let k := pf pk 0 0 4
    let a := pw pk 1
    let n := 4 * pf pk 0 48 10
    let r := routeOf pk s.sys
    (pf pk 0 8 2 = 1 → badRouteFree pk = false → routeInUse s.sys k = false →
      exec (.routeSet pk) s = onward s (finish c.id .ok []
        { taken c z with coll := { s.sys.coll with routes := mapSet {} s.sys.coll.routes k {} } })) ∧
    (pf pk 0 8 2 ≠ 1 → badRouteFields pk s.sys = false → fileClosed s.perm [(a, n)] = false → rangeHeld s.sys a n = false → aligned64 a = true → inDram a n = true → (routeAt s.sys k).loaded = false →
      consume 8 a n z = none → consume 8 a n (taken c z) = none → badMembers s.sys r a = false → badPeers s.sys r = false →
      let w1 := memberAt r (nextPos r r.selfPos) + memberAt r (prevPos r r.selfPos) * 2 ^ 16
      exec (.routeSet pk) s = onward s (finish c.id .ok [BitVec.ofNat 64 (crc32c (readBytes s.sys a n)), BitVec.ofNat 64 w1]
        { taken c z with coll := { s.sys.coll with routes := mapSet {} s.sys.coll.routes k r } }))) ∧
  (WhenMet 0x0430 [bits [(0, 3)]] noCodes fun pk s z c =>
    let die := pf pk 0 0 3
    collBusy z = false → s.sys.lnk.reset = none →
    let y := (diePorts die).foldl (fun y w => onPort w (fun p => { p with undelivered := [] }) (downPort w y)) (taken c z)
    let y := { y with lnk := { y.lnk with reset := some { cmd := c.id, die := die, start := y.t.timeBase } } }
    exec (.linkReset pk) s = onwardAll s (activateUnit 4 die true (s.perm, y))) ∧
  (WhenMet 0x0420 [bits [(0, 1)], allBits, bits [(0, 32)]] noCodes fun pk s z c =>
    let recs := if pf pk 0 0 1 = 0 then s.sys.coll.recsOpen else s.sys.coll.recsLast
    let out := (byTag recs).take (pf pk 2 0 32)
    aligned64 (pw pk 1) = true → inDram (pw pk 1) (32 * (recs.take (pf pk 2 0 32)).length) = true →
    rangeHeld s.sys (pw pk 1) (32 * (recs.take (pf pk 2 0 32)).length) = false →
    protectedHit s.sys (backIsFace c) (pw pk 1) (32 * out.length) = false →
    exec (.bktDigestRead pk) s = onward s (finish c.id .ok [BitVec.ofNat 64 out.length, collectiveDigest s.sys recs]
      (writeBytes (some c.id) (pw pk 1) (out.flatMap recordBytes) (taken c z))))

/-- BKT_REDUCE and BKT_GATHER start a bucket: its tag is used, and a gather sends its own shard and copies it into DST. -/
def Obligations.BucketCommandsStart : Prop :=
  (WhenMet 0x0410 [bits [(48, 16), (40, 4), (32, 5), (24, 8), (0, 12)], bits [(48, 16), (0, 40)], allBits, allBits, allBits, allBits]
      (fun pk => badCode pk 0 24 8 fmtCodes) fun pk s z c =>
    let b := reduceOf pk
    let r := routeAt s.sys b.route
    b.die ≤ 17 → pf pk 0 24 8 ∈ [0x22, 0x20] → -256 ≤ b.exp → b.exp ≤ 255 → 2 ≤ b.count → b.count ≤ 2 ^ 36 → b.slot ≤ 0x3FF →
    fileClosed s.perm [(b.src, srcBytes b)] = false → badReduceAddr s.sys b = false → r.loaded = true → r.p * r.strands.length ≤ b.count → strandDown s.sys r = false →
    b.tag ∉ usedTags s.sys c.shadow → (usedTags s.sys c.shadow).length < 16384 → (bucketsRunning s.sys).length < 64 →
    (c.shadow = true ∨ protectedHit s.sys false b.dst (8 * shardLen b.count r.p r.selfPos) = false) →
    exec (.bktReduce pk) s = onward s (startBucket c b (taken c z))) ∧
  (WhenMet 0x0411 [bits [(48, 16), (40, 4), (24, 2)], bits [(0, 40)], allBits, allBits] (fun pk => badCode pk 0 24 2 [0, 1, 2]) fun pk s z c =>
    let b := gatherOf pk
    let r := routeAt s.sys b.route
    let n := b.esize * shardLen b.count r.p r.selfPos
    2 ≤ b.count → b.count ≤ 2 ^ 36 → aligned64 b.src = true → aligned64 b.dst = true → inDram b.src n = true →
    inDram b.dst (b.esize * b.count) = true → fileClosed s.perm [(b.src, n)] = false →
    anyHeld s.sys [(b.src, n), (b.dst, b.esize * b.count)] = false → c.shadow = false → r.loaded = true → r.p * r.strands.length ≤ b.count →
    strandDown s.sys r = false → b.tag ∉ usedTags s.sys false → (usedTags s.sys false).length < 16384 →
    (bucketsRunning s.sys).length < 64 → (∀ x ∈ s.sys.coll.buckets, x.cmd ≠ c.id) →
    protectedHit s.sys false b.dst (b.esize * b.count) = false →
    let y := startBucket c b (taken c z)
    consume 5 b.src n y = none →
    ∃ x, x ∈ y.coll.buckets ∧ x.cmd = c.id ∧ x.tag = b.tag ∧ x.gather = true ∧
      exec (.bktGather pk) s = onward s
        (writeBytes (some c.id) (b.dst + b.esize * shardFirst b.count r.p r.selfPos) (readBytes s.sys b.src n)
          (sendShard (openWindow x (pickNow s.sys)) r 0 r.selfPos b.src (shardFirst b.count r.p r.selfPos)
            (putBucket (openWindow x (pickNow s.sys)) y))))

/-! ### Commands: update, conversion, gather, state map and census (R282 to R313) -/

/-- UPD_RUN updates a range by a built-in program, or starts its slot's microprogram; UPD_MICRO_LOAD loads one whose every
instruction is legal. The arrays hold no poison. -/
def Obligations.UpdateCommandsComplete : Prop :=
  (WhenMet 0x0500 ([bits [(32, 5), (24, 8), (16, 8), (12, 1), (0, 12)], bits [(48, 16), (40, 8), (0, 40)]] ++ List.replicate 14 allBits)
      (fun pk => badCode pk 0 24 8 [0x01, 0x02, 0x03, 0x80, 0x81, 0x82, 0x83, 0x84, 0x85, 0x86, 0x87] || badCode pk 0 16 8 fmtCodes)
      fun pk s z c =>
    let o := updOf pk
    let ls := s.sys.upd.lossScale
    o.die ≤ 17 → pf pk 0 16 8 ∈ [0x30, 0x22] → 1 ≤ o.count → o.count ≤ 2 ^ 36 → -256 ≤ o.gexp → o.gexp ≤ 255 → (o.gf64 = false → o.gexp = 0) →
    badUnused o = false → (∀ i ∈ usedConsts o, f32IsFinite (cst o i) = true) → (o.nesterov = true → o.prog = 1) → o.slot ≤ 0x3FF →
    fileClosed s.perm (updRanges o) = false → aligned64 o.grad = true → inStack o.die o.grad (o.count * gradSize o) = true →
    (∀ a ∈ usedArrays o, aligned64 a.face = true ∧ aligned64 a.back = true ∧ inStack o.die a.face (o.count * a.size) = true ∧
      inStack o.die a.back (o.count * a.size) = true ∧ mapped s.sys o.count a = true) →
    overBack s.sys o.grad (o.count * gradSize o) = false → c.shadow = false → dieIdle s.sys o.die = true →
    anyHeld s.sys (updRanges o ++ updOuts o) = false →
    (∀ a ∈ usedArrays o, (isMicro o = false ∨ a.back ≠ 0) → protectedHit s.sys (backIsFace c) a.back (o.count * a.size) = false) →
    consumeAll 3 (taken c z) (updRanges o) = none →
    (isMicro o = false →
      let r := builtinLoop c.id o ls.toInt o.count 0 {} (taken c z)
      exec (.updRun pk) s = onward s (updFinish c.id o ls r.1 r.2)) ∧
    (isMicro o = true → mapGet [] s.sys.upd.slots (o.prog - 0x80) ≠ [] →
      exec (.updRun pk) s = onward s (setMicro o.die (microBegin o 0 { cmd := some c.id, ls := ls } (taken c z)) (taken c z)))) ∧
  (WhenMet 0x0501 [bits [(0, 3), (8, 7)], allBits] noCodes fun pk s z c =>
    let len := pf pk 0 8 7
    let src := pw pk 1
    1 ≤ len → len ≤ 64 → fileClosed s.perm [(src, 4 * len)] = false → aligned64 src = true → inDram src (4 * len) = true →
    rangeHeld s.sys src (4 * len) = false → slotInUse z (pf pk 0 0 3) = false →
    consume 8 src (4 * len) z = none → consume 8 src (4 * len) (taken c z) = none →
    let b := readBytes s.sys src (4 * len)
    firstBadMicro (words4 len b) = none →
    exec (.updMicroLoad pk) s = onward s (finish c.id .ok [BitVec.ofNat 64 (crc32c b)]
      { taken c z with upd := { s.sys.upd with slots := mapSet [] s.sys.upd.slots (pf pk 0 0 3) (words4 len b) } }))

/-- BOB_CONVERT writes converted rows; BOB_GATHER copies the table rows that an index list names; BOB_SCATTER_ADD adds
dense rows into indexed table rows. Every index lies in the table and the operands hold no poison. -/
def Obligations.BobbinCommandsComplete : Prop :=
  (WhenMet 0x0510 ([bits [(32, 5), (24, 8), (16, 8), (0, 12)]] ++ List.replicate 7 allBits)
      (fun pk => badCode pk 0 24 8 fmtCodes || badCode pk 0 16 8 fmtCodes) fun pk s z c =>
    let o := convOf pk
    let rows := convRows s.sys o
    let ins := planeRanges o.fi o.src o.srcPitch o.srcScale o.srcScalePitch o.rows o.n
    let outs := planeRanges o.fo o.dst o.dstPitch o.dstScale o.dstScalePitch o.rows o.n
    let es := rows.flatMap (fun r => r.2.elems)
    let d : CensusDelta := { slot := o.slot, die := o.die, elements := es.length, zero := countCls .zero es,
                             nonfinite := countCls .nonfinite es, sat := countCls .sat es, vanished := countCls .vanished es,
                             underflow := countCls .underflow es, exps := expsOf (rows.flatMap (fun r => r.1)) }
    o.die ≤ 17 → bobPair o.fi o.fo = true → 1 ≤ o.rows → o.rows ≤ 2 ^ 24 → 1 ≤ o.n → o.n ≤ 2 ^ 28 → o.slot ≤ 0x3FF →
    badPlane o.fi o.n o.srcPitch o.srcScale o.srcScalePitch = false → badPlane o.fo o.n o.dstPitch o.dstScale o.dstScalePitch = false →
    badPlaneAddr o.fi o.rows o.n o.src o.srcPitch o.srcScale o.srcScalePitch = false →
    badPlaneAddr o.fo o.rows o.n o.dst o.dstPitch o.dstScale o.dstScalePitch = false → dieIdle s.sys o.die = true →
    fileClosed s.perm ins = false → anyHeld s.sys (ins ++ outs) = false →
    (∀ w ∈ convWrites o rows, protectedHit s.sys (backIsFace c) w.1 w.2.length = false) →
    consumeAll 3 (taken c z) ins = none →
    exec (.bobConvert pk) s = onward s (finish c.id .ok []
      (modCmd c.id (fun c => { c with census := if o.slot = 0 then [] else [d] }) (writeAll c.id (convWrites o rows) (taken c z))))) ∧
  (WhenMet 0x0511 rowLayout (fun pk => badCode pk 0 24 8 (0 :: fmtCodes)) fun pk s z c =>
    let o := rowOf pk
    let todo := (List.range o.rows).map (fun r => (r, rowIndex s.sys o r))
    o.die ≤ 17 → o.fmt = 0 → o.exp = 0 → o.len % 64 = 0 → firstFail (rowChecks s.perm o false) = none → dieIdle s.sys o.die = true →
    anyHeld s.sys (rowRangesOf o false) = false →
    protectedHit s.sys (backIsFace c) o.dense (spanBytes o.rows o.densePitch o.len) = false →
    consume 3 o.idx (4 * o.rows) (taken c z) = none → (∀ p ∈ todo, p.2 < o.tableRows) →
    consumeAll 3 (taken c z) (todo.map (fun p => (o.table + p.2 * o.tablePitch, o.len))) = none →
    exec (.bobGather pk) s = onward s (finish c.id .ok [] (todo.foldl
      (fun y p => writeBytes (some c.id) (o.dense + p.1 * o.densePitch) (readBytes s.sys (o.table + p.2 * o.tablePitch) o.len) y) (taken c z)))) ∧
  (WhenMet 0x0512 rowLayout (fun pk => badCode pk 0 24 8 fmtCodes) fun pk s z c =>
    let o := rowOf pk
    let todo := (List.range o.rows).map (fun r => (r, rowIndex s.sys o r))
    let es := todo.flatMap (fun p => denseRow s.sys o p.1)
    o.die ≤ 17 → o.fmt ∈ [0x22, 0x20] → -256 ≤ o.exp → o.exp ≤ 255 → firstFail (rowChecks s.perm o true) = none → dieIdle s.sys o.die = true →
    anyHeld s.sys (rowRangesOf o true) = false →
    protectedHit s.sys (backIsFace c) o.table (spanBytes o.tableRows o.tablePitch (tableRow o true)) = false →
    consume 3 o.idx (4 * o.rows) (taken c z) = none → (∀ p ∈ todo, p.2 < o.tableRows) →
    consumeAll 3 (taken c z) (todo.flatMap (fun p =>
      [(o.dense + p.1 * o.densePitch, o.len), (o.table + p.2 * o.tablePitch, tableRow o true)])) = none →
    let res := satAt (umax 32) (es.filter (fun e => e.2 == .sat)).length + b2n (es.any (fun e => e.2 == .nonfinite)) * 2 ^ 32
    exec (.bobScatterAdd pk) s = onward s (finish c.id .ok [BitVec.ofNat 64 res]
      (todo.foldl (fun y p => addRow c.id (o.table + p.2 * o.tablePitch) (denseRow s.sys o p.1) y) (taken c z))))

/-- STATE_SET loads, activates or frees an entry and STATE_READ returns one; CENSUS_CLEAR zeroes slots and sets them, and
CENSUS_READ writes the record of one. -/
def Obligations.MapAndCensusCommandsComplete : Prop :=
  (WhenMet 0x0520 [bits [(24, 4), (16, 2), (0, 8)], allBits, allBits, bits [(0, 40)]]
      (fun pk => badCode pk 0 24 4 [0, 1, 2, 3, 4] || badCode pk 0 16 2 [0, 1, 2]) fun pk s z c =>
    let k := pf pk 0 0 8
    let e := entryAt s.sys k
    let len := pf pk 3 0 40
    c.shadow = false → weaveSender s.sys = false →
    (pf pk 0 16 2 = 0 → e.state = .free → badEntryRanges s.sys (pw pk 1) (pw pk 2) len = false →
      exec (.stateSet pk) s = onward s (finish c.id .ok [] (setEntry k
        { state := .loading, face := pw pk 1, back := pw pk 2, length := len, kind := pf pk 0 24 4 } (taken c z)))) ∧
    (pw pk 1 = 0 → pw pk 2 = 0 → len = 0 → pf pk 0 24 4 = 0 →
      (pf pk 0 16 2 = 1 → e.state = .loading →
        exec (.stateSet pk) s = onward s (finish c.id .ok [] (setEntry k { e with state := .active } (taken c z)))) ∧
      (pf pk 0 16 2 = 2 → (e.state = .active → s.sys.stp.state = .idle) →
        exec (.stateSet pk) s = onward s (finish c.id .ok [] (setEntry k {} (keepView e (taken c z))))))) ∧
  (WhenMet 0x0521 [bits [(0, 8)]] noCodes fun pk s z c =>
    exec (.stateRead pk) s = onward s (finish c.id .ok (entryWords (entryAt s.sys (pf pk 0 0 8))) (taken c z))) ∧
  (WhenMet 0x0530 [bits [(0, 12), (16, 1), (32, 12)], bits [(0, 16)]] noCodes fun pk s z c =>
    let first := pf pk 0 0 12
    let last := pf pk 0 32 12
    1 ≤ first → first ≤ last → last ≤ 0x3FF →
    let cen := ((List.range (last - first + 1)).map (fun i => first + i)).foldl
      (fun x k => clearSlot (sext (pf pk 1 0 16) 16) (pf pk 0 16 1 == 1) k x) s.sys.cen
    exec (.censusClear pk) s = onward s (finish c.id .ok [] { taken c z with cen := cen })) ∧
  (WhenMet 0x0531 [bits [(0, 12)], allBits] noCodes fun pk s z c =>
    let slot := pf pk 0 0 12
    let p := censusSlot s.sys slot
    1 ≤ slot → slot ≤ 0x3FF → aligned64 (pw pk 1) = true → inDram (pw pk 1) 576 = true → rangeHeld s.sys (pw pk 1) 576 = false →
    protectedHit s.sys (backIsFace c) (pw pk 1) 576 = false →
    exec (.censusRead pk) s = onward s (finish c.id .ok
      [BitVec.ofNat 64 (satAt (umax 32) p.nonfinite * 2 ^ 32 + satAt (umax 32) p.sat)]
      (writeBytes (some c.id) (pw pk 1) (censusRecord s.sys slot) (taken c z))))

/-! ### Commands: steps, twins, weaves (R382 to R412) -/

/-- STEP_BEGIN opens the step after LAST_COMMIT, or with ORIGIN the step it names; STEP_PREPARE seals the open step;
STEP_COMMIT from PREPARED takes the creels until it is alone, and an already committed step is answered at once;
STEP_ABORT discards the open step; STEP_UNDO takes the last commit back. -/
def Obligations.StepCommandsComplete : Prop :=
  (WhenMet 0x0600 [bits [(0, 1)]] noCodes fun pk s z c =>
    let n := pk.step.toNat
    let origin := pf pk 0 0 1 == 1
    s.sys.stp.weave = none → s.sys.stp.state = .idle → (origin = false → n = s.sys.stp.lastCommit + 1) → s.sys.stp.agreed = true →
    stepTurn c z = true →
    let last := if origin then n - 1 else s.sys.stp.lastCommit
    exec (.stepBegin pk) s = onward s (finish c.id .ok [BitVec.ofNat 64 last]
      { taken c z with stp :=
        { s.sys.stp with lastCommit := last, undoValid := !origin && s.sys.stp.undoValid, state := .opened, abortPending := false, dirty := 0,
                         twinMsgs := s.sys.stp.twinMsgs.filter (fun m => decide (n ≤ m.step)) } })) ∧
  (WhenMet 0x0601 [] noCodes fun pk s z c =>
    weaveSender s.sys = false → s.sys.stp.state = .opened → pk.step.toNat = s.sys.stp.lastCommit + 1 → stepTurn c z = true →
    let y := coverStep (taken c z)
    exec (.stepPrepare pk) s = onward s
      { y with stp := { s.sys.stp with state := .sealed, sealLanes := standingCounts (taken c z), prep := some { cmd := c.id } } }) ∧
  (WhenMet 0x0602 [] noCodes fun pk s z c =>
    weaveSender s.sys = false → stepTurn c z = true →
    (s.sys.stp.state = .prepared → s.sys.stp.shadow = false → pk.step.toNat = s.sys.stp.lastCommit + 1 →
      exec (.stepCommit pk) s = onward s { taken c z with cm := { (taken c z).cm with commitWait := some c.id } }) ∧
    (s.sys.stp.state = .idle → pk.step.toNat = s.sys.stp.lastCommit →
      exec (.stepCommit pk) s = onward s (finish c.id .ok [BitVec.ofNat 64 (s.sys.stp.lastCommit + 2 ^ 63), 0] z))) ∧
  (WhenMet 0x0603 [] noCodes fun pk s z c =>
    let n := pk.step.toNat
    weaveSender s.sys = false → s.sys.stp.state ≠ .idle → n = s.sys.stp.lastCommit + 1 →
    let ended := ((taken c z).cm.cmds.filter (abortHits n (taken c z))).length
    exec (.stepAbort pk) s = onward s (finish c.id .ok [BitVec.ofNat 64 (ended % 2 ^ 32)] (abortNow n (taken c z)))) ∧
  (WhenMet 0x0604 [] noCodes fun pk s z c =>
    s.sys.stp.weave = none → s.sys.stp.state = .idle → pk.step.toNat = s.sys.stp.lastCommit → s.sys.stp.undoValid = true →
    stepTurn c z = true →
    exec (.stepUndo pk) s = onward s (commitWhenAlone { taken c z with cm := { (taken c z).cm with commitWait := some c.id } }))

/-- TWIN_SET names the twin and its mode; SHADOW_BEGIN and SHADOW_END enclose a shadow replay; WEAVE_SEND and WEAVE_RECV
start the two sides of a weave. That TWIN_SET sends identity frames on the twin ports, which is how the two ends come to know
that they agree, is the model's choice (log 54). -/
def Obligations.TwinCommandsComplete : Prop :=
  (WhenMet 0x0610 [bits [(24, 2), (0, 10)]] (fun pk => badCode pk 0 24 2 [0, 1, 2]) fun pk s z c =>
    let mode := twinModeOf (pf pk 0 24 2)
    let dev := pf pk 0 0 10
    s.sys.stp.state = .idle → (∀ r ∈ s.sys.coll.routes, r.2.loaded = false) → s.sys.stp.weave = none → s.sys.coll.selfValid = true →
    (mode = .none → dev = 0) → (mode ≠ .none → dev ≠ s.sys.coll.selfDev.toNat ∧
      ∀ w ∈ upTwin s.sys, (portAt s.sys w).peerDevice = dev ∧ (portAt s.sys w).peerPort ∈ twinPorts) → stepTurn c z = true →
    exec (.twinSet pk) s = onward s (finish c.id .ok [] (setAgreed (sendIdentities twinPorts
      { taken c z with coll := { s.sys.coll with requests := [] }, stp :=
        { s.sys.stp with twinValid := true, twinMode := mode, twinDev := BitVec.ofNat 10 dev, agreed := mode == .none, twinMsgs := [] } })))) ∧
  (WhenMet 0x0611 [] noCodes fun pk s z c =>
    weaveSender s.sys = false → s.sys.stp.state = .sealed ∨ s.sys.stp.state = .prepared → s.sys.stp.shadow = false →
    pk.step.toNat = s.sys.stp.lastCommit + 1 → stepTurn c z = true →
    exec (.shadowBegin pk) s = onward s (finish c.id .ok []
      { taken c z with stp := { s.sys.stp with shadow := true }, coll := { s.sys.coll with shadowTags := [], recsShadow := [] } })) ∧
  (WhenMet 0x0612 [allBits, bits [(0, 32)]] noCodes fun pk s z c =>
    let recs := s.sys.coll.recsShadow
    let out := (byTag recs).take (pf pk 1 0 32)
    weaveSender s.sys = false → pk.step.toNat = s.sys.stp.lastCommit + 1 → s.sys.stp.shadow = true → aligned64 (pw pk 0) = true →
    inDram (pw pk 0) (32 * (recs.take (pf pk 1 0 32)).length) = true →
    rangeHeld s.sys (pw pk 0) (32 * (recs.take (pf pk 1 0 32)).length) = false → stepTurn c z = true → shadowLeft z = false →
    protectedHit s.sys (backIsFace c) (pw pk 0) (32 * out.length) = false →
    exec (.shadowEnd pk) s = onward s (endShadow (finish c.id .ok [BitVec.ofNat 64 out.length, collectiveDigest s.sys recs]
      (writeBytes (some c.id) (pw pk 0) (out.flatMap recordBytes) (taken c z))))) ∧
  (WhenMet 0x0620 [] noCodes fun pk s z c =>
    s.sys.stp.state = .idle → twinOn s.sys = true → s.sys.stp.weave = none → weaveTurn c z = true → upTwin s.sys ≠ [] →
    anyHeld s.sys (faceRanges s.sys) = false →
    let es := activeEntries s.sys
    let start := WarpMsg.weaveStart s.sys.stp.lastCommit
      (es.map (fun p => { entry := p.1, kind := p.2.kind, face := p.2.face, back := p.2.back, length := p.2.length }))
    let w : Weave := { cmd := c.id, sender := true, last := s.sys.stp.lastCommit, entries := es.map (fun p => p.1),
                       digests := es.map (fun p => (p.1, contentDigest s.sys p.1 p.2.face 0 p.2.length)),
                       moved := es.foldl (fun n p => n + p.2.length) 0 }
    consumeAll 5 (taken c z) (faceRanges s.sys) = none →
    exec (.weaveSend pk) s = onward s (es.foldl sendEntry (sendWeave start { taken c z with stp := { s.sys.stp with weave := some w } }))) ∧
  (WhenMet 0x0621 [] noCodes fun pk s z c =>
    s.sys.stp.state = .idle → twinOn s.sys = true → s.sys.stp.weave = none → (∀ p ∈ s.sys.smap.entries, p.2.state = .free) →
    weaveTurn c z = true → upTwin s.sys ≠ [] →
    exec (.weaveRecv pk) s = onward s
      { taken c z with stp := { s.sys.stp with weave := some { cmd := c.id, sender := false }, undoValid := false } })

/-! ### Commands: registers and locks (R458 to R466, R625) -/

/-- REG_READ returns a register of an instance that exists and then clears its RC fields; REG_WRITE writes the masked bits
of every instance it names and returns their number, a request of a shutdown apart. -/
def Obligations.RegisterCommandsComplete : Prop :=
  (WhenMet 0x0700 [bits regBits] noCodes fun pk s z c =>
    let (b, r, i) := regName pk
    ∀ k, regKind b r = some k → goodInstance s.sys k i = true →
    exec (.regRead pk) s = onward s (clearRead b r i (finish c.id .ok [regValue s.perm (taken c z) b r i] (taken c z)))) ∧
  (∀ (pk : Packet) (s : State) (z : Sys) (c : Cmd) (k : InstKind), WriteMeets pk s z c → WriteAllowed pk s.perm z c k →
    ¬ ((regName pk).1 = 0x15 ∧ (regName pk).2.1 = 0x02 ∧ (BitVec.ofNat 64 (pw pk 1) &&& BitVec.ofNat 64 (pw pk 2)).getLsbD 0 = true) →
    exec (.regWrite pk) s = onward s (finish c.id .ok [BitVec.ofNat 64 (writtenInsts pk k).length] (written pk s.perm k (taken c z))))

/-- The registers whose write has a row of its own: a write of COLL.SELF makes it valid and renews identity; one of
YARN.CTL that clears RUNAHEAD_EN cancels run-ahead on the die; one of CREEL.CTL sets the mode of an empty creel; one of
OBS.TRACE_PTR moves RP; one of PWR.SHUTDOWN.REQUEST begins the shutdown. -/
def Obligations.RegisterRowsComplete : Prop :=
  ∀ (pk : Packet) (s : State) (z : Sys) (c : Cmd) (k : InstKind), WriteMeets pk s z c → WriteAllowed pk s.perm z c k →
    let data := BitVec.ofNat 64 (pw pk 1)
    let mask := BitVec.ofNat 64 (pw pk 2)
    let v := fun (b r i : Nat) (y : Sys) => mergeBits (regValue s.perm y b r i) data mask
    let ends := fun (y : Sys) => onward s (finish c.id .ok [BitVec.ofNat 64 (writtenInsts pk k).length] y)
    (regName pk = (0x0A, 0x00, 0) → fld mask 0 10 ≠ 0 →
      let y := taken c z
      exec (.collSelfWrite pk) s = ends (setAgreed (sendIdentities (List.range 64)
        { y with coll := { y.coll with selfDev := BitVec.ofNat 10 (fld (v 0x0A 0x00 0 y) 0 10), selfValid := true } }))) ∧
    (∀ d, regName pk = (0x06, 0x00, d) → pf pk 0 63 1 = 0 → flag (v 0x06 0x00 d (taken c z)) 0 = false →
      exec (.runaheadDisable pk) s = ends (cancelRunahead d (onDie d
        (fun m => { m with runaheadEn := false, defaultKib := BitVec.ofNat 16 (fld (v 0x06 0x00 d (taken c z)) 16 16) }) (taken c z)))) ∧
    (∀ i, regName pk = (0x0D, 0x00, i) → pf pk 0 63 1 = 0 →
      let y := taken c z
      let on := flag (v 0x0D 0x00 i y) 0
      exec (.creelModeSet pk) s = ends { y with cr :=
        { y.cr with mode := if on then setAdd y.cr.mode (creelIndex i) else setDel y.cr.mode (creelIndex i) } }) ∧
    (∀ u, regName pk = (0x12, 0x02, u) → pf pk 0 63 1 = 0 →
      let y := taken c z
      exec (.traceRpWrite pk) s = ends { y with obs :=
        { y.obs with units := mapMod {} y.obs.units u (fun x => { x with rp := fld (v 0x12 0x02 u y) 0 28 }) } }) ∧
    (regName pk = (0x15, 0x02, 0) → flag (data &&& mask) 0 = true →
      exec (.shutdownRequest pk) s = onward s (shutDown 1 (flushHeld (c.creel == 64) (complete c .ok [1] (taken c z)))))

/-- LOCK_ACQUIRE takes a lock that no one holds for the issuing creel until PICK plus the lease, says so where the lock was
BROKEN, and answers LOCK_HELD where it is held, by the issuing creel too; LOCK_RENEW extends the lease and LOCK_RELEASE frees
the lock of a creel that holds it, and any other creel receives LOCK_NOT_OWNER. A lease of 0, or a release with one, is out of
range. -/
def Obligations.LockCommandsComplete : Prop :=
  (WhenLocksMet 0x0710 fun pk s z c =>
    let k := pf pk 0 0 6
    let l := mapGet ({} : Lock) z.lck k
    let e := pickNow s.sys + pf pk 0 32 32
    let held : Lock := { state := .held, owner := c.creel, cause := 0, expires := e }
    (pf pk 0 32 32 = 0 → exec (.lockAcquire pk) s = onward s (finish c.id .paramRange [] z)) ∧
    (pf pk 0 32 32 ≠ 0 →
    (l.state = .free → exec (.lockAcquire pk) s =
      onward s (finish c.id .ok [BitVec.ofNat 64 (e % 2 ^ 48)] { taken c z with lck := mapSet {} z.lck k held })) ∧
    (l.state = .broken → exec (.lockAcquire pk) s =
      onward s (finish c.id .lockBroken [BitVec.ofNat 64 (e % 2 ^ 48), lockWord l] { taken c z with lck := mapSet {} z.lck k held })) ∧
    (l.state = .held → exec (.lockAcquire pk) s =
      onward s (finish c.id .lockHeld [BitVec.ofNat 64 (l.expires % 2 ^ 48), lockWord l] z)))) ∧
  (WhenLocksMet 0x0711 fun pk s z c =>
    let k := pf pk 0 0 6
    let l := mapGet ({} : Lock) z.lck k
    let e := pickNow s.sys + pf pk 0 32 32
    (pf pk 0 32 32 = 0 → exec (.lockRenew pk) s = onward s (finish c.id .paramRange [] z)) ∧
    (pf pk 0 32 32 ≠ 0 → l.state = .held → l.owner = c.creel → exec (.lockRenew pk) s =
      onward s (finish c.id .ok [BitVec.ofNat 64 (e % 2 ^ 48)] { taken c z with lck := mapSet {} z.lck k { l with expires := e } })) ∧
    (pf pk 0 32 32 ≠ 0 → ¬ (l.state = .held ∧ l.owner = c.creel) →
      exec (.lockRenew pk) s = onward s (finish c.id .lockNotOwner [] z))) ∧
  (WhenLocksMet 0x0712 fun pk s z c =>
    let k := pf pk 0 0 6
    let l := mapGet ({} : Lock) z.lck k
    (pf pk 0 32 32 ≠ 0 → exec (.lockRelease pk) s = onward s (finish c.id .paramRange [] z)) ∧
    (pf pk 0 32 32 = 0 → l.state = .held → l.owner = c.creel →
      exec (.lockRelease pk) s = onward s (finish c.id .ok [] { taken c z with lck := mapSet {} z.lck k { l with state := .free } })) ∧
    (pf pk 0 32 32 = 0 → ¬ (l.state = .held ∧ l.owner = c.creel) →
      exec (.lockRelease pk) s = onward s (finish c.id .lockNotOwner [] z)))

/-! ### Commands: firmware and security (R600, R603, R609 to R615) -/

/-- FW_QUERY reports each image type; UNIT_RESET resets a die's command processor or the standby headstock; HS_HANDOVER
makes the READY standby active; ATTEST delivers a report; MEASURE_READ writes registers and logged events;
FUSE_DEBUG_OFF arms, cancels, or on a matching confirmation blows the fuse. -/
def Obligations.FirmwareCommandsComplete : Prop :=
  (WhenMet 0x0800 [] noCodes fun pk s z c =>
    exec (.fwQuery pk) s = onward s (finish c.id .ok ([1, 2, 3, 4, 5].flatMap (fwWords s.sys)) (taken c z))) ∧
  (WhenMet 0x0810 [bits [(8, 2), (0, 5)]] (fun pk => badCode pk 0 8 2 [0, 1]) fun pk s z c =>
    let die := pf pk 0 0 5
    let now := s.sys.t.timeBase
    (pf pk 0 8 2 = 1 → die = 0 → resetting s.sys true 0 = false →
      let r : UnitReset := { cmd := c.id, standby := true, die := 0, start := now, began := now }
      let y := taken c z
      let y := { y with sec := { y.sec with resets := y.sec.resets ++ [r] } }
      exec (.unitReset pk) s = onward s (partMram (clearMeas (1 - y.hs.active) { y with hs := { y.hs with standby := .reset } }))) ∧
    (pf pk 0 8 2 ≠ 1 → die ≤ 17 → resetting s.sys false die = false → s.sys.stp.state = .idle → dieOpen s.sys die = false →
      (∀ d ∈ z.cm.cmds, d.id < c.id → d.phase = .running → traceUnitOf d.op d.pkt ≠ die) →
      let r : UnitReset := { cmd := c.id, standby := false, die := die, start := now, began := now }
      let y := taken c z
      exec (.unitReset pk) s = onward s { y with sec :=
        { y.sec with resets := y.sec.resets ++ [r], heldInReset := setAdd y.sec.heldInReset die } })) ∧
  (WhenMet 0x0811 [] noCodes fun pk s z c =>
    s.sys.hs.standby = .ready → s.sys.stp.state = .idle → s.sys.stp.weave = none → s.sys.sec.armed = false →
    (∀ d ∈ z.cm.cmds, d.id ≠ c.id → deviceLevel d = false) →
    let y := endTransfer 0x25 { taken c z with cm := { (taken c z).cm with handover := none } }
    let y := migrate (payOwed (takeoverNotice { y with hs := { y.hs with active := 1 - y.hs.active } }))
    exec (.hsHandover pk) s = onward s (finish c.id .ok [BitVec.ofNat 64 y.hs.active] y)) ∧
  (WhenMet 0x0820 [bits [(1, 1), (0, 1)], allBits, allBits, allBits, allBits, allBits] noCodes fun pk s z c =>
    let cert := if pf pk 0 1 1 = 1 then certificate else []
    let nonce := (List.range 4).flatMap (fun i => leBytes 8 (pw pk (i + 1)))
    let seq := (s.sys.sec.reportSeq + 1) % 2 ^ 32
    let y := { taken c z with sec := { s.sys.sec with reportSeq := seq } }
    let rep := reportBytes s.perm y nonce seq
    let res := [BitVec.ofNat 64 (seq * 2 ^ 32 + cert.length * 2 ^ 16 + rep.length)]
    (pf pk 0 0 1 = 1 → c.creel = 64 → pw pk 5 = 0 →
      exec (.attest pk) s = onward s (finish c.id .ok res (sendReport c.pkt.tag.toNat rep cert y))) ∧
    (pf pk 0 0 1 = 0 → aligned64 (pw pk 5) = true → inDram (pw pk 5) (896 + cert.length) = true →
      rangeHeld s.sys (pw pk 5) (896 + cert.length) = false →
      protectedHit s.sys true (pw pk 5) (rep ++ cert).length = false →
      exec (.attest pk) s = onward s (finish c.id .ok res (writeBytes (some c.id) (pw pk 5) (rep ++ cert) y)))) ∧
  (WhenMet 0x0821 [bits [(0, 11)], allBits] noCodes fun pk s z c =>
    let h := s.sys.hs.active
    let evs := ((s.sys.sec.log.filter (fun e => e.1 == h)).map (fun e => e.2)).take (pf pk 0 0 11)
    let out := (List.range 8).flatMap (measOf s.sys h) ++ evs.flatten
    pf pk 0 0 11 ≤ 1040 → aligned64 (pw pk 1) = true → inDram (pw pk 1) (256 + 64 * evs.length) = true →
    rangeHeld s.sys (pw pk 1) (256 + 64 * evs.length) = false →
    protectedHit s.sys true (pw pk 1) out.length = false →
    exec (.measureRead pk) s = onward s (finish c.id .ok
      [BitVec.ofNat 64 (evs.length + mapGet 0 s.sys.sec.logged h % 2 ^ 32 * 2 ^ 16), BitVec.ofNat 64 (mapGet 0 s.sys.sec.lost h % 2 ^ 32)]
      (writeBytes (some c.id) (pw pk 1) out (taken c z)))) ∧
  (WhenMet 0x0830 [bits [(0, 2), (32, 32)]] (fun pk => badCode pk 0 0 2 [0, 1, 2]) fun pk s z c =>
    debugOff s.perm = false →
    (pf pk 0 0 2 = 0 → pf pk 0 32 32 = 0 → s.sys.sec.armed = false →
      exec (.fuseDebugOff pk) s = onward s (armFuse c (taken c z))) ∧
    (pf pk 0 0 2 = 1 → confirms c s.sys (pf pk 0 32 32) = true →
      exec (.fuseDebugOff pk) s = onwardAll s (blowFuse c s.perm (taken c z))) ∧
    (pf pk 0 0 2 = 2 → pf pk 0 32 32 = 0 → s.sys.sec.armed = true →
      exec (.fuseDebugOff pk) s = onward s (finish c.id .ok [] (idleFuse (taken c z)))))

/-! ### Commands: observation and integrity (R526 to R532, R551 to R580) -/

/-- CTR_CONFIG starts a counter set from its selection list or stops one; CTR_READ waits for the time base that follows by the
apply delay, reads the counters then, and writes one manual record; LIFE_READ and EVLOG_READ write their records. TRACE_CONFIG starts the
trace, or stops it once its buffers are drained; TRACE_TRIGGER fires the trigger; WATCH_SET arms, disarms or reads a watch
slot. -/
def Obligations.ObservationCommandsComplete : Prop :=
  (WhenMet 0x0900 [bits [(8, 2), (0, 3)], bits [(0, 32)], allBits, bits [(0, 11)], allBits, bits [(0, 5)]]
      (fun pk => badCode pk 0 8 2 [0, 1]) fun pk s z c =>
    let k := pf pk 0 0 3
    let n := pf pk 3 0 11
    let ws := words8 n (readBytes s.sys (pw pk 2) (8 * n))
    (pf pk 0 8 2 = 1 → (∀ i < 5, pw pk (i + 1) = 0) →
      exec (.ctrConfig pk) s = onward s (finish c.id .ok []
        (setCtrSet k { ctrSet s.sys k with running := false } (taken c z)))) ∧
    (pf pk 0 8 2 ≠ 1 → pf pk 1 0 32 ≠ 0 → 1 ≤ n → n ≤ 1024 → pf pk 5 0 5 ≤ 20 → fileClosed s.perm [(pw pk 2, 8 * n)] = false →
      aligned64 (pw pk 2) = true → inDram (pw pk 2) (8 * n) = true → rangeHeld s.sys (pw pk 2) (8 * n) = false → (∀ w ∈ ws, reservedClass w = false ∧ badSel s.sys w = false) → valueCount ws ≤ 1024 →
      badObsAddr s.sys (pw pk 4) (recBytes ws * 2 ^ pf pk 5 0 5) = false → consume 8 (pw pk 2) (8 * n) (taken c z) = none →
      exec (.ctrConfig pk) s = onward s (finish c.id .ok [BitVec.ofNat 64 (valueCount ws * 2 ^ 16 + recBytes ws)]
        (startSet k { started := true, running := true, sels := ws, interval := pf pk 1 0 32, ring := pw pk 4, ringLog2 := pf pk 5 0 5 }
          (taken c z))))) ∧
  (WhenMet 0x0901 [bits [(0, 3)], allBits] noCodes fun pk s z c =>
    let k := pf pk 0 0 3
    let tb := s.sys.t.timeBase + s.sys.t.applyDelay.toNat
    (ctrSet s.sys k).started = true → badObsAddr s.sys (pw pk 1) (recBytes (ctrSet s.sys k).sels) = false →
    let y := taken c z
    let r : CtrRead := { cmd := c.id, set := k, tb := tb, dst := pw pk 1, sels := (ctrSet s.sys k).sels }
    exec (.ctrRead pk) s = onward s { y with obs := { y.obs with reads := y.obs.reads ++ [r] } }) ∧
  (∀ (y : Sys) (r : CtrRead), y.obs.reads = [r] → r.taken = none →
    let z := { y with obs := { y.obs with reads := [] } }
    let v := sampleNow r.sels z
    let b := sampleBytes r.set 0 true (pickNow z) 0 r.tb (recBytes r.sels) v.1 v.2
    (y.t.timeBase < r.tb → serveReads y = y) ∧
    (r.tb ≤ y.t.timeBase → rangeHeld v.2 r.dst (recBytes r.sels) = false → mapHit v.2 r.dst (recBytes r.sels) = false →
      serveReads y = finish r.cmd .ok [BitVec.ofNat 64 r.tb] (writeBytes (some r.cmd) r.dst b.1 b.2))) ∧
  (WhenMet 0x0930 [bits [(0, 32)], bits [(0, 16)], allBits] noCodes fun pk s z c =>
    let max := pf pk 1 0 16
    let recs := evlogRecords s.sys (pf pk 0 0 32) max
    let oldest := match s.sys.nv.evr.head? with | none => 0 | some r => r.seq
    1 ≤ max → max ≤ 32768 → badObsAddr s.sys (pw pk 2) (32 * recs.length) = false →
    rangeHeld s.sys (pw pk 2) (32 * recs.length) = false →
    exec (.evlogRead pk) s = onward s (finish c.id .ok
      [BitVec.ofNat 64 recs.length, BitVec.ofNat 64 (s.sys.nv.evrChg + s.sys.nv.evrChg * 2 ^ 32),
       BitVec.ofNat 64 (oldest % 2 ^ 32 * 2 ^ 32 + s.sys.nv.evrSeq % 2 ^ 32)]
      (writeBytes (some c.id) (pw pk 2) (recs.flatMap eventBytes) (taken c z)))) ∧
  (WhenMet 0x0931 [allBits] noCodes fun pk s z c =>
    badObsAddr s.sys (pw pk 0) 4288 = false → rangeHeld s.sys (pw pk 0) 4288 = false →
    exec (.lifeRead pk) s = onward s (finish c.id .ok [BitVec.ofNat 64 (s.sys.nv.life.hours + s.sys.nv.life.pcycles * 2 ^ 32)]
      (writeBytes (some c.id) (pw pk 0) (lifeRecord s.sys.nv.life) (taken c z)))) ∧
  (WhenMet 0x0910 [bits [(24, 5), (16, 1), (8, 2)], bits [(0, 27)], bits [(32, 32), (0, 8)], allBits, bits [(0, 6)]]
      (fun pk => badCode pk 0 8 2 [0, 1]) fun pk s z c =>
    let trig := pf pk 0 16 1 = 1
    let t : TraceSt := { state := .running, trigger := pf pk 0 16 1 == 1, units := pf pk 1 0 27, types := pf pk 0 24 5,
                         post := pf pk 2 32 32, base := pw pk 3, regionLog2 := pf pk 4 0 6, trigMask := pf pk 2 0 8 }
    (pf pk 0 8 2 ≠ 1 → pf pk 1 0 27 ≠ 0 → (trig → pf pk 2 32 32 ≠ 0) → (¬ trig → pf pk 2 32 32 = 0 ∧ pf pk 2 0 8 = 0) →
      16 ≤ pf pk 4 0 6 → pf pk 4 0 6 ≤ 32 → badObsAddr s.sys (pw pk 3) ((enabledUnits t).length * 2 ^ pf pk 4 0 6) = false →
      s.sys.obs.trace.state = .stopped →
      exec (.traceConfig pk) s = onward s (finish c.id .ok []
        { taken c z with obs := { (taken c z).obs with trace := t, units := [] } })) ∧
    (pf pk 0 8 2 = 1 → s.sys.obs.trace.stopping = none → pf pk 0 24 5 = 0 → ¬ trig → (∀ i < 4, pw pk (i + 1) = 0) →
      (s.sys.obs.trace.state = .stopped → exec (.traceConfig pk) s = onward s (finish c.id .ok [] (taken c z))) ∧
      (s.sys.obs.trace.state ≠ .stopped → exec (.traceConfig pk) s = onward s
        (tryStop (drainAll (onTrace (fun t => { t with stopping := some c.id }) (taken c z))))))) ∧
  (WhenMet 0x0911 [bits [(0, 8)]] noCodes fun pk s z c =>
    let y := traceFire 1 (pf pk 0 0 8) 26 (stampNow s.sys) (taken c z)
    exec (.traceTrigger pk) s = onward s (finish c.id .ok [if s.sys.obs.trace.t = y.obs.trace.t then 0 else 1] y)) ∧
  (WhenMet 0x0920 [bits [(17, 1), (16, 1), (8, 2), (0, 4)], bits [(32, 32)], bits [(0, 48)], allBits]
      (fun pk => badCode pk 0 8 2 [0, 1, 2]) fun pk s z c =>
    let k := pf pk 0 0 4
    let stats := pf pk 0 16 1 = 1
    let dig := pf pk 0 17 1 = 1
    (pf pk 0 8 2 = 0 → stats ∨ dig → pw pk 3 = 0 →
      exec (.watchSet pk) s = onward s (finish c.id .ok [] (armSlot k
        { armed := true, stats := pf pk 0 16 1 == 1, digest := pf pk 0 17 1 == 1, tid := pf pk 1 32 32, step := pf pk 2 0 48 } (taken c z)))) ∧
    (pf pk 0 8 2 = 1 → ¬ stats → ¬ dig → pw pk 1 = 0 → pw pk 2 = 0 → pw pk 3 = 0 →
      let y := taken c z
      exec (.watchSet pk) s = onward s (finish c.id .ok []
        { y with obs := { y.obs with watch := mapMod {} y.obs.watch k (fun w => { w with armed := false }) } })) ∧
    (pf pk 0 8 2 = 2 → ¬ stats → ¬ dig → pw pk 1 = 0 → pw pk 2 = 0 → badObsAddr s.sys (pw pk 3) 64 = false →
      rangeHeld s.sys (pw pk 3) 64 = false →
      exec (.watchSet pk) s = onward s (finish c.id .ok [] (writeBytes (some c.id) (pw pk 3) (watchRecord s.sys k) (taken c z)))))

/-- BURLER_SET sets the checking fraction and returns the former one, and OFF releases the tile positions that slices hold; MEND_READ and STEPLOG_READ write their records;
CKPT_STREAM sends a face range out, asks for one, or cancels the stream of a port. -/
def Obligations.IntegrityCommandsComplete : Prop :=
  (WhenMet 0x0940 [bits [(0, 3)]] (fun pk => badCode pk 0 0 3 [0, 1, 2, 3, 4]) fun pk s z c =>
    let release := fun (m : SMap BurlerDie) (d : Nat) => mapMod {} m d (fun b => { b with holds := none })
    let dies := if pf pk 0 0 3 = 0 then (List.range 18).foldl release s.sys.bur.dies else s.sys.bur.dies
    exec (.burlerSet pk) s = onward s (finish c.id .ok [BitVec.ofNat 64 s.sys.bur.fraction.toNat]
      { taken c z with bur := { s.sys.bur with fraction := BitVec.ofNat 3 (pf pk 0 0 3), dies := dies } })) ∧
  (WhenMet 0x0941 [bits [(0, 5)], allBits] noCodes fun pk s z c =>
    let d := pf pk 0 0 5
    let rec_ := mendRecord s.perm s.sys d
    d ≤ 17 → aligned64 (pw pk 1) = true → inDram (pw pk 1) 208 = true → rangeHeld s.sys (pw pk 1) 208 = false → protectedHit s.sys true (pw pk 1) rec_.length = false →
    exec (.mendRead pk) s = onward s (finish c.id .ok [BitVec.ofNat 64 (activeShuttles s.sys d + sparesLeft s.perm s.sys d * 2 ^ 8)]
      (writeBytes (some c.id) (pw pk 1) rec_ (taken c z)))) ∧
  (WhenMet 0x0942 [bits [(0, 48)], bits [(0, 13)], allBits] noCodes fun pk s z c =>
    let max := pf pk 1 0 13
    let es := (s.sys.nv.steplog.filter (fun e => decide (pf pk 0 0 48 ≤ e.step))).take max
    let newest := match s.sys.nv.steplog.getLast? with | none => 0 | some e => e.seq
    let out := es.flatMap stepLogBytes
    1 ≤ max → max ≤ 4096 → aligned64 (pw pk 2) = true → inDram (pw pk 2) (64 * es.length) = true → stepTurn c z = true →
    rangeHeld s.sys (pw pk 2) (64 * es.length) = false →
    protectedHit s.sys true (pw pk 2) out.length = false →
    exec (.steplogRead pk) s = onward s (finish c.id .ok [BitVec.ofNat 64 es.length, BitVec.ofNat 64 newest]
      (writeBytes (some c.id) (pw pk 2) out (taken c z)))) ∧
  (WhenMet 0x0943 [bits [(56, 2), (8, 6), (0, 8)], bits [(0, 40)], bits [(0, 40)]] (fun pk => badCode pk 0 56 2 [0, 1, 2]) fun pk s z c =>
    let dir := pf pk 0 56 2
    let port := pf pk 0 8 6
    let e := pf pk 0 0 8
    let x := entryAt s.sys e
    let off := pf pk 1 0 40
    let len := if pf pk 2 0 40 = 0 then x.length - off else pf pk 2 0 40
    let k : Ckpt := { cmd := c.id, inward := dir == 1, port := port, entry := e, offset := off, length := len, step := s.sys.stp.lastCommit,
                      device := s.sys.coll.selfDev.toNat }
    (dir ≠ 2 → off % 4096 = 0 → pf pk 2 0 40 % 64 = 0 → off + len ≤ x.length → port ∉ twinPorts →
      (∀ r ∈ s.sys.coll.routes, r.2.loaded = true → port ∉ strandPorts r.2) → portUp s.sys port = true → s.sys.stp.weave = none →
      streamOn s.sys port = false →
      (dir = 0 → x.state = .active → rangeHeld s.sys (x.face + off) len = false → exec (.ckptStream pk) s = onward s (streamOut k (taken c z))) ∧
      (dir = 1 → x.state = .loading → s.sys.stp.state = .idle → exec (.ckptStream pk) s = onward s (streamIn k (taken c z)))) ∧
    (dir = 2 → e = 0 → off = 0 → pf pk 2 0 40 = 0 → ∀ d, s.sys.stp.ckpts.find? (fun d => d.port == port) = some d →
      exec (.ckptStream pk) s = onward s (finish d.cmd .ckptCancelled [] (dropCkpt d.cmd
        (modCmd c.id (fun e => { e with cover := [d.cmd] }) (taken c z))))))

/-! ### Vector instructions (R207 to R212) -/

/-- The lane-wise instructions: each masked lane of v[D] takes the result of its lanes of v[A] and v[B]; VCMP writes the
masked bits of a mask register, m0 apart, which reads all ones. -/
def Obligations.LaneInstructionsComplete : Prop :=
  let va := fun (k : VCtx) (l : Nat) => vLane (vReg k.th (vA k)) l
  let vb := fun (k : VCtx) (l : Nat) => vLane (vReg k.th (vB k)) l
  let vd := fun (k : VCtx) (l : Nat) => vLane (vReg k.th (vD k)) l
  let next := fun (s : State) (k : VCtx) (ty : VTy) (f : Nat → Word32) =>
    worked s (vecGo k (setV k ty f k.th) (Int.ofNat k.th.pc + 1) (seen s k))
  (WhenAt 0x10 fun s k => ∀ ty, tyOf (vT k) = some ty →
    exec (.vadd k.n k.h) s = next s k ty (fun l => if ty = .f32 then f32Add (va k l) (vb k l) else va k l + vb k l)) ∧
  (WhenAt 0x11 fun s k => ∀ ty, tyOf (vT k) = some ty →
    exec (.vsub k.n k.h) s = next s k ty (fun l => if ty = .f32 then f32Sub (va k l) (vb k l) else va k l - vb k l)) ∧
  (WhenAt 0x12 fun s k => ∀ ty, tyOf (vT k) = some ty →
    exec (.vmul k.n k.h) s = next s k ty (fun l => if ty = .f32 then f32Mul (va k l) (vb k l) else va k l * vb k l)) ∧
  (WhenAt 0x13 fun s k => vT k = 2 → exec (.vfma k.n k.h) s = next s k .f32 (fun l => f32Fma (va k l) (vb k l) (vd k l))) ∧
  (WhenAt 0x14 fun s k => vT k = 2 → exec (.vdiv k.n k.h) s = next s k .f32 (fun l => f32Div (va k l) (vb k l))) ∧
  (WhenAt 0x15 fun s k => vT k = 2 → exec (.vsqrt k.n k.h) s = next s k .f32 (fun l => f32Sqrt (va k l))) ∧
  (WhenAt 0x16 fun s k => ∀ ty, tyOf (vT k) = some ty →
    exec (.vmin k.n k.h) s = next s k ty (fun l => extremeLane false ty (va k l) (vb k l))) ∧
  (WhenAt 0x17 fun s k => ∀ ty, tyOf (vT k) = some ty →
    exec (.vmax k.n k.h) s = next s k ty (fun l => extremeLane true ty (va k l) (vb k l))) ∧
  (WhenAt 0x18 fun s k => ∀ ty, tyOf (vT k) = some ty → exec (.vand k.n k.h) s = next s k ty (fun l => va k l &&& vb k l)) ∧
  (WhenAt 0x19 fun s k => ∀ ty, tyOf (vT k) = some ty → exec (.vor k.n k.h) s = next s k ty (fun l => va k l ||| vb k l)) ∧
  (WhenAt 0x1A fun s k => ∀ ty, tyOf (vT k) = some ty → exec (.vxor k.n k.h) s = next s k ty (fun l => va k l ^^^ vb k l)) ∧
  (WhenAt 0x1B fun s k => ∀ ty, tyOf (vT k) = some ty → exec (.vshl k.n k.h) s = next s k ty (fun l => va k l <<< nfld k.w 0 5)) ∧
  (WhenAt 0x1C fun s k => ∀ ty, tyOf (vT k) = some ty → exec (.vshr k.n k.h) s =
    next s k ty (fun l => if ty = .i32 then (va k l).sshiftRight (nfld k.w 0 5) else va k l >>> nfld k.w 0 5)) ∧
  (WhenAt 0x1D fun s k => ∀ ty, tyOf (vT k) = some ty → nfld k.w 0 3 ≤ 5 → 1 ≤ vD k → vD k ≤ 3 →
    let m := maskWord k (k.th.m.getD (vD k) 0) (fun l => condOf (nfld k.w 0 3) ty (va k l) (vb k l))
    exec (.vcmp k.n k.h) s = worked s (vecGo k { k.th with m := k.th.m.set (vD k) m } (Int.ofNat k.th.pc + 1) (seen s k))) ∧
  (WhenAt 0x1D fun s k => ∀ ty, tyOf (vT k) = some ty → nfld k.w 0 3 ≤ 5 → vD k = 0 →
    exec (.vcmp k.n k.h) s = worked s (vecGo k k.th (Int.ofNat k.th.pc + 1) (seen s k))) ∧
  (WhenAt 0x1E fun s k => ∀ ty, tyOf (vT k) = some ty → vB k ≤ 3 →
    exec (.vsel k.n k.h) s = next s k ty (fun l => if flag (maskReg k.th (vB k)) l then va k l else vd k l)) ∧
  (WhenAt 0x1F fun s k => ∀ tgt, convertTarget (vT k) = some tgt → vPol k ≤ 1 →
    let r := vReg k.th (vA k)
    exec (.vcvt k.n k.h) s = next s k (convertTy tgt) (fun l => convertLane tgt (vT k) (vPol k == 1) (laneVal r.ty (vLane r l))))

/-- The memory instructions on legal addresses that hold no poison: VLD and VGATHER widen the element of each masked lane,
VST and VSCATTER store the converted lanes in lane order, VSCATADD adds each lane modulo 2^32, VWLD and VWST move eight
wide values. -/
def Obligations.VectorMemoryInstructionsComplete : Prop :=
  let next := fun (s : State) (k : VCtx) (th : VThread) (y : Sys) => worked s (vecGo k th (Int.ofNat k.th.pc + 1) y)
  let loads := fun (s : State) (k : VCtx) (addr : Nat → Nat → Nat × Nat) (i : Instr) =>
    ∀ w, memWidth (vT k) = some w → (∀ l ∈ onLanes k, badElem (seen s k) k.n w (addr w l) = false) →
      consumeAll 2 (seen s k) (((onLanes k).map (addr w)).map (fun a => (a.1, elemBytes w))) = none →
      let t := loadTy (vT k) (seen s k)
      exec i s = next s k (setV k t.1 (fun l => widen (vT k) (elemCode (seen s k) w (addr w l))) k.th) t.2
  (WhenAt 0x01 fun s k => loads s k (lineAddr k) (.vld k.n k.h)) ∧
  (WhenAt 0x03 fun s k => loads s k (scatAddr k) (.vgather k.n k.h)) ∧
  (WhenAt 0x02 fun s k => ∀ w, memWidth (vT k) = some w → vPol k ≤ 1 → (∀ l ∈ onLanes k, badStore (seen s k) k w (lineAddr k w l) = false) →
    exec (.vst k.n k.h) s = next s k k.th ((onLanes k).foldl (fun y l => putElem k.c.id w (lineAddr k w l) (storeCode k l) y) (seen s k))) ∧
  (WhenAt 0x04 fun s k => ∀ w, memWidth (vT k) = some w → (∀ l ∈ onLanes k, badStore (seen s k) k w (scatAddr k w l) = false) →
    let r := vReg k.th (vD k)
    let code := fun l => match memFmt (vT k) with
      | none => (vLane r l).toNat
      | some f => (toScalar f false none (laneVal r.ty (vLane r l))).1
    exec (.vscatter k.n k.h) s = next s k k.th ((onLanes k).foldl (fun y l => putElem k.c.id w (scatAddr k w l) (code l) y) (seen s k))) ∧
  (WhenAt 0x05 fun s k => (∀ l ∈ onLanes k, badStore (seen s k) k 32 (scatAddr k 32 l) = false) →
    consumeAll 2 (seen s k) (((onLanes k).map (scatAddr k 32)).map (fun a => (a.1, 4))) = none →
    exec (.vscatadd k.n k.h) s = next s k k.th ((onLanes k).foldl (fun y l => putElem k.c.id 32 (scatAddr k 32 l)
      ((elemCode y 32 (scatAddr k 32 l) + (vLane (vReg k.th (vD k)) l).toNat) % 2 ^ 32) y) (seen s k))) ∧
  (WhenAt 0x30 fun s k =>
    let a := wideAddr k
    let ws := (List.range 8).map (fun i => wideOf (readBytes (seen s k) (a + 40 * i) 40))
    let base := sext (fld (sReg k.th (vB k)) 0 16) 16
    a % 8 = 0 → (inDram a 320 || inStore k.n a 320) = true → consume 2 a 320 (seen s k) = none →
    (∀ w ∈ ws, ∃ v, w = some v ∧ (v.cls = Cls.finite → v.base = base)) →
    ∀ th y, setWide k (ws.filterMap id) (seen s k) = .go th y → exec (.vwld k.n k.h) s = next s k th y) ∧
  (WhenAt 0x32 fun s k =>
    let a := wideAddr k
    let base := sext (fld (sReg k.th (vB k)) 0 16) 16
    let gs := (List.range 8).filter (fun g => (List.range 8).any (fun i => laneOn k (8 * g + i)))
    a % 8 = 0 → (∀ g ∈ gs, (inDram (a + 40 * g) 40 || inStore k.n (a + 40 * g) 40) = true ∧
      protectedHit (seen s k) (backIsFace k.c) (a + 40 * g) 40 = false) →
    exec (.vwst k.n k.h) s = next s k k.th (gs.foldl (fun y g =>
      writeBytes (some k.c.id) (a + 40 * g) (wideBytes { wideGroup (vReg k.th (vD k)) g with base := base }) y) (seen s k)))

/-- The reductions over the 64 lanes of v[A] and the sum of wide values: VREDSUM sums I32 exactly and F32 by the pairwise
tree, VREDMAX and VREDMIN give the extreme and its lowest lane, VWADD adds eight wide values that stay in 256 bits. -/
def Obligations.VectorReductionsComplete : Prop :=
  let next := fun (s : State) (k : VCtx) (th : VThread) (y : Sys) => worked s (vecGo k th (Int.ofNat k.th.pc + 1) y)
  let ext := fun (s : State) (k : VCtx) (big : Bool) (i : Instr) => vD k ≠ 15 →
    (vT k = 0 →
      let e := extreme big .i32 (allLanes k).zipIdx
      exec i s = next s k (setS (vD k + 1) (BitVec.ofNat 64 e.2) (setS (vD k) (BitVec.ofInt 64 e.1.toInt) k.th)) (seen s k)) ∧
    (vT k = 1 →
      let e := extreme big .u32 (allLanes k).zipIdx
      exec i s = next s k (setS (vD k + 1) (BitVec.ofNat 64 e.2) (setS (vD k) (BitVec.ofNat 64 e.1.toNat) k.th)) (seen s k)) ∧
    (vT k = 2 →
      let e := extreme big .f32 (allLanes k).zipIdx
      let r := floatScalar (if f32IsNan e.1 then f32Nan else e.1) (seen s k)
      exec i s = next s k (setS (vD k + 1) (BitVec.ofNat 64 e.2) (setS (vD k) r.1 k.th)) r.2)
  (WhenAt 0x20 fun s k =>
    (vT k = 0 → exec (.vredsum k.n k.h) s =
      next s k (setS (vD k) (BitVec.ofInt 64 ((allLanes k).foldl (fun a w => a + w.toInt) 0)) k.th) (seen s k)) ∧
    (vT k = 2 →
      let r := floatScalar (treeSum (allLanes k)) (seen s k)
      exec (.vredsum k.n k.h) s = next s k (setS (vD k) r.1 k.th) r.2)) ∧
  (WhenAt 0x21 fun s k => ext s k true (.vredmax k.n k.h)) ∧
  (WhenAt 0x22 fun s k => ext s k false (.vredmin k.n k.h)) ∧
  (WhenAt 0x31 fun s k =>
    let ws := (List.range 8).map (fun g => wideSum (wideGroup (vReg k.th (vA k)) g) (wideGroup (vReg k.th (vB k)) g))
    (∀ w ∈ ws, w.isSome = true) → ∀ th y, setWide k (ws.filterMap id) (seen s k) = .go th y → exec (.vwadd k.n k.h) s = next s k th y)

/-- Scalar and control instructions: SADD, SMOVI and SLANE write a scalar register; BR jumps, BNZ jumps unless its register
is zero; BARRIER and END change the thread's status; when every thread of a run stands at a BARRIER all of them go on. -/
def Obligations.VectorControlCompletes : Prop :=
  let next := fun (s : State) (k : VCtx) (th : VThread) (pc : Int) => worked s (vecGo k th pc (seen s k))
  let pc := fun (k : VCtx) => Int.ofNat k.th.pc + 1
  (WhenAt 0x40 fun s k => exec (.sadd k.n k.h) s =
    next s k (setS (vD k) (sReg k.th (vA k) + sReg k.th (vB k) + BitVec.ofInt 64 (vImm k)) k.th) (pc k)) ∧
  (WhenAt 0x41 fun s k => exec (.smovi k.n k.h) s = next s k (setS (vD k) (BitVec.ofInt 64 (vImm k)) k.th) (pc k)) ∧
  (WhenAt 0x42 fun s k => exec (.slane k.n k.h) s =
    next s k (setS (vD k) (BitVec.ofInt 64 (vLane (vReg k.th (vA k)) (nfld k.w 0 6)).toInt) k.th) (pc k)) ∧
  (WhenAt 0x50 fun s k => exec (.br k.n k.h) s = next s k k.th (vImm k)) ∧
  (WhenAt 0x51 fun s k => exec (.bnz k.n k.h) s = next s k k.th (if sReg k.th (vA k) = 0 then pc k else vImm k)) ∧
  (WhenAt 0x52 fun s k => exec (.vBarrier k.n k.h) s = next s k { k.th with status := .atBarrier } (pc k)) ∧
  (WhenAt 0x53 fun s k => exec (.vEnd k.n k.h) s = next s k { k.th with status := .ended } (pc k)) ∧
  (∀ (s : State) (n : Nat), isUp s.sys = true → (runAt s.sys n).threads ≠ [] → (∀ t ∈ (runAt s.sys n).threads, t.status = .atBarrier) →
    exec (.vBarrierRelease n) s = onward s (setRun n
      { runAt s.sys n with threads := (runAt s.sys n).threads.map (fun t => { t with status := .ready }) } s.sys))

/-! ### Microprogram instructions (R297, R298) -/

/-- Each microprogram instruction but MICRO_END writes fD from fA, fB, fC and LRX and steps to the next position; MICRO_END
writes f1, f2 and f3 as the results of the element, and the next element starts, or the UPD_RUN has finished. -/
def Obligations.MicroInstructionsComplete : Prop :=
  ∀ (die : Nat) (s : State) (id : Nat) (o : UpdOp) (w : Word32) (r : MicroRun),
    let a := freg r (fld w 16 5)
    let b := freg r (fld w 11 5)
    let c := freg r (fld w 6 5)
    (AtMicro 0x01 die s id o w r → exec (.fadd die) s = microNext die s w r (f32Add a b)) ∧
    (AtMicro 0x02 die s id o w r → exec (.fsub die) s = microNext die s w r (f32Sub a b)) ∧
    (AtMicro 0x03 die s id o w r → exec (.fmul die) s = microNext die s w r (f32Mul a b)) ∧
    (AtMicro 0x04 die s id o w r → exec (.fdiv die) s = microNext die s w r (f32Div a b)) ∧
    (AtMicro 0x05 die s id o w r → exec (.fsqrt die) s = microNext die s w r (f32Sqrt a)) ∧
    (AtMicro 0x06 die s id o w r → exec (.fmin die) s = microNext die s w r (microExtreme false a b)) ∧
    (AtMicro 0x07 die s id o w r → exec (.fmax die) s = microNext die s w r (microExtreme true a b)) ∧
    (AtMicro 0x08 die s id o w r → exec (.fneg die) s = microNext die s w r (f32Negate a)) ∧
    (AtMicro 0x09 die s id o w r → exec (.fabs die) s = microNext die s w r (f32Abs a)) ∧
    (AtMicro 0x0A die s id o w r → exec (.fsign die) s = microNext die s w r (f32Sign a)) ∧
    (AtMicro 0x0B die s id o w r → exec (.fscale die) s = microNext die s w r (f32Scale a o.lrx)) ∧
    (AtMicro 0x0C die s id o w r → exec (.fsel die) s =
      microNext die s w r (if f32IsNan a then f32Nan else if f32Lt 0 a then b else c)) ∧
    (AtMicro 0x0D die s id o w r → exec (.fmov die) s = microNext die s w r a) ∧
    (AtMicro 0x3F die s id o w r →
      let e : UpdElem := { w := freg r 1, s1 := freg r 2, s2 := freg r 3 }
      let gi := gradIn s.sys o r.ls.toInt r.elem
      let q := countElem (badElemOut o e) gi.2 (f32Mul gi.1 (cst o 7)) r
      let y := writeAll id (elemWrites o r.elem e) s.sys
      (r.elem + 1 < o.count → exec (.microEnd die) s = onward s (setMicro die (microBegin o (r.elem + 1) q y) y)) ∧
      (o.count ≤ r.elem + 1 → exec (.microEnd die) s = onward s (updFinish id o q.ls q (setMicro die {} y))))

/-! ### Memory channels, streams and threads (R226 to R246) -/

/-- A channel serves a granule of bonded DRAM: a poisoned one is reported, one wrong symbol corrected and counted, two found
and the granule poisoned and reported; a write reaches its channel and sends its kills; a holder drops a killed granule and
acknowledges; a write whose kills are all acknowledged is complete; a scrub reads the next granule of its stack, whose die's
clocks run; a retraining ends. -/
def Obligations.ChannelEventsComplete : Prop :=
  (∀ (s : State) (g source wrong : Nat), g * 64 < dramEnd → isUp s.sys = true → 1 ≤ source → source ≤ 8 →
    let t := translateAddr s.sys (g * 64) / 64
    retraining s.sys t = false →
    (t ∈ s.sys.mem.poison → exec (.dramRead g source wrong) s = onward s (reportGranule t source s.sys)) ∧
    (t ∉ s.sys.mem.poison →
      (wrong = 0 → exec (.dramRead g source wrong) s = onward s s.sys) ∧
      (wrong = 1 → exec (.dramRead g source wrong) s = onward s (countCorr (stackOf (t * 64)) s.sys)) ∧
      (wrong = 2 → exec (.dramRead g source wrong) s = onward s
        (reportGranule t source { s.sys with mem := { s.sys.mem with poison := setAdd s.sys.mem.poison t } })))) ∧
  (∀ (s : State) (g : Nat) (mask : BitVec 64) (data : BitVec 512), g * 64 < dramEnd → isUp s.sys = true → mask ≠ 0 →
    let t := translateAddr s.sys (g * 64) / 64
    retraining s.sys t = false → protectedHit s.sys true (g * 64) 64 = false → (t ∉ s.sys.mem.poison ∨ mask = BitVec.allOnes 64) →
    backOf s.sys.smap.entries (g * 64) = none →
    let new := mergeBytes mask (readBytes s.sys (g * 64) 64) (leBytes 64 data.toNat)
    let w : PendingWrite := { granule := t, kills := holders s.sys t }
    let m := putCells s.sys.mem (t * 64) new
    exec (.dramWrite g mask data) s = onward s { s.sys with
      mem := { m with poison := setDel s.sys.mem.poison t, writes := s.sys.mem.writes ++ [w] } }) ∧
  (∀ (s : State) (n g : Nat), (∃ w ∈ s.sys.mem.writes, w.granule = g ∧ n ∈ w.kills) →
    let ack := s.sys.mem.writes.map (fun w => if w.granule = g then { w with kills := w.kills.erase n } else w)
    exec (.kill n g) s = onward s (dropCopies n (fun c => c.granule == g) true { s.sys with mem := { s.sys.mem with writes := ack } })) ∧
  (∀ (s : State) (g : Nat) (w : PendingWrite), s.sys.mem.writes.find? (fun w => w.granule == g) = some w → w.kills = [] →
    exec (.writeComplete g) s = onward s { s.sys with mem := { s.sys.mem with writes := s.sys.mem.writes.erase w } }) ∧
  (∀ (s : State) (stack wrong : Nat), isUp s.sys = true → stack ≤ 17 → dieStopped s.sys stack = false →
    let m := mapGet ({} : MemDie) s.sys.mem.dies stack
    let g := stack * stackBytes / 64 + m.scrubNext
    m.scrubEn = true → retraining s.sys g = false →
    exec (.scrubRead stack wrong) s = onward s (onDie stack
      (fun m => { m with scrubNext := (m.scrubNext + 1) % (stackBytes / 64) }) (serveRead g 4 wrong s.sys))) ∧
  (∀ (s : State) (pause : Nat) (r : Retrain), s.sys.mem.retrain = some r → powered s.sys = true → pause ≤ 40000 →
    let y := { s.sys with mem := { s.sys.mem with retrain := none } }
    (exec (.memRetrainDone false pause) s = onward s (finish r.cmd .retrainFailed [BitVec.ofNat 64 pause]
      (recordEvent 1 0x0011 (r.stack * 2 ^ 8 + r.channel) (pause + 2 ^ 32) y))) ∧
    (let x := activateUnit 5 (256 * r.stack + r.channel) true (s.perm, recordEvent 1 0x0011 (r.stack * 2 ^ 8 + r.channel) pause y)
     exec (.memRetrainDone true pause) s = onwardAll s (x.1, finish r.cmd .ok [BitVec.ofNat 64 pause] x.2)))

/-- A yarn engine reads ahead the next granules of its stream that it does not hold, in one request of one slot, each copy
held from then on and not yet arrived; its running YARN_LOAD consumes a unit, after which bit errors may strike words of
its store; a request slot frees, and a yarn engine's data have arrived; an engine whose current thread misses goes on
with a thread that can run, the missed granules issued or left unissued. -/
def Obligations.StreamAndThreadEventsComplete : Prop :=
  (∀ (s : State) (n g : Nat) (wrong rest : List Nat), n < 2304 → isUp s.sys = true → wantedAhead s.sys n = g :: rest → wrong ≠ [] →
    mayRunAhead s.sys n g = true →
    let gs := g :: (followers g rest (Nat.min wrong.length 16 - 1) 1).filter (mayRunAhead s.sys n)
    let x := engAt s.sys (yarnEngine n)
    let y := setEng (yarnEngine n) { x with slots := x.slots ++ [{ thread := 0, granules := gs }] } s.sys
    exec (.runaheadRead n wrong) s = onward s ((gs.zip wrong).foldl (fetchAhead n) y)) ∧
  (∀ (s : State) (n id : Nat) (upset : List (Nat × Nat)) (c : Cmd), isUp s.sys = true → (yarnAt s.sys n).cmd = some id →
    findCmd s.sys id = some c →
    let v := viewed c s.sys
    let l := loadOf c.pkt
    let i := (yarnAt s.sys n).pos
    let r := unitSource l i
    unitWaits v n c = false → consume 1 r.1 r.2 v = none →
    let y := writeAll id (unitWrites l i (readBytes v r.1 r.2)) (useCopies n (unitGranules v l i) v)
    let y := setYarn n { yarnAt y n with pos := i + 1 } y
    (i + 1 < loadUnits l → exec (.granuleConsume ⟨n, upset⟩) s = worked s (upsetStore n upset y)) ∧
    (loadUnits l ≤ i + 1 →
      exec (.granuleConsume ⟨n, upset⟩) s = worked s (upsetStore n upset (endYarn n (finish id .ok [loadResult l] y))))) ∧
  (∀ (s : State) (e h : Nat) (p : Slot), (engAt s.sys e).slots.find? (fun p => p.thread == h) = some p →
    let x := engAt s.sys e
    let after : Engine := { x with slots := x.slots.erase p, unissued := [] }
    (e < 8192 → exec (.slotFree e h) s = onward s (setEng e after s.sys)) ∧
    (8192 ≤ e → exec (.slotFree e h) s = onward s (setEng e after
      (setYarn (e - 8192) (markArrived p.granules (yarnAt s.sys (e - 8192))) s.sys)))) ∧
  (∀ (s : State) (e h granule : Nat), isUp s.sys = true → h ≠ (engAt s.sys e).current → threadReady s.sys e h = true →
    let x := engAt s.sys e
    let gs := missed s.sys e granule
    gs ≠ [] →
    exec (.threadSwitch e h granule) s = onward s (setEng e { issueAll x.current gs x with current := h } s.sys) ∧
    ((∀ g, gs = [g] → slotFits x g = true → exec (.threadSwitch e h granule) s = onward s (setEng e
        { x with slots := x.slots ++ [{ thread := x.current, granules := [g] }], current := h } s.sys))) ∧
    (∀ g, gs = [g] → slotFits x g = false → x.current ∉ x.unissued → exec (.threadSwitch e h granule) s = onward s (setEng e
      { x with unissued := x.unissued ++ [x.current], current := h } s.sys)))

/-- A round of an arbiter grants a waiting requester, to which no waiting requester is preferred, at its effective
priority, and every other one grows older; at a bank whose channel retrains there is no round. A requester's base priority
is its command's creel lane, and 0 for scrubs and observation; one of higher priority than a grant's frozen one takes the
grant, but at a bank whose channel retrains, and any other waits. -/
def Obligations.ArbitersGrantThePreferred : Prop :=
  (∀ (s : State) (a : Nat) (arrivals : List Arrival), isUp s.sys = true →
    let x := mapGet ({} : Arbiter) s.sys.arb a
    let waiting := joinWaiting s.sys x.waiting arrivals
    (bankHeld s.sys a = true →
      exec (.arbitrationRound a arrivals false) s = onward s { s.sys with arb := mapSet {} s.sys.arb a { x with waiting := waiting } }) ∧
    (bankHeld s.sys a = false → waiting ≠ [] → ∃ w ∈ waiting, (∀ r ∈ waiting, winsOver r w = false ∨ r = w) ∧
      let x' : Arbiter := { waiting := (waiting.filter (fun r => r.index != w.index)).map older,
                            grant := some ({ w with age := 0 }, effective w), idle := false }
      exec (.arbitrationRound a arrivals false) s = onward s { s.sys with arb := mapSet {} s.sys.arb a x' })) ∧
  (∀ (s : State) (a doneBeats b : Nat) (r : Arrival) (h : Requester) (frozen : Nat), isUp s.sys = true →
    (∀ id, r.issuer = .command id → (findCmd s.sys id).map (fun c => c.lane) = some b) →
    ((∀ id, r.issuer ≠ .command id) → b = 0) →
    let x := mapGet ({} : Arbiter) s.sys.arb a
    let n : Requester := { index := r.index, base := b, since := s.sys.t.timeBase, beats := r.beats }
    x.grant = some (h, frozen) → (∀ q ∈ x.waiting, q.index ≠ r.index) → r.index ≠ h.index → doneBeats < h.beats →
    let loser := older { h with beats := h.beats - doneBeats }
    let x' : Arbiter := { x with waiting := x.waiting ++ [loser], grant := some (n, effective n) }
    let x'' : Arbiter := { x with waiting := x.waiting ++ [n] }
    (frozen < effective n → bankHeld s.sys a = false → exec (.preemption a r doneBeats) s = onward s { s.sys with arb := mapSet {} s.sys.arb a x' }) ∧
    (effective n ≤ frozen ∨ bankHeld s.sys a = true → exec (.preemption a r doneBeats) s = onward s { s.sys with arb := mapSet {} s.sys.arb a x'' }))

/-! ### Frames, sessions and creels (R420 to R442, R450, R455) -/

/-- A frame that no rule drops moves the sequence and restarts the session's timer: a keepalive does nothing else, a creel
write appends its words to its lane, or leaves them out and sets OVERRUN. A dropped frame is counted where its rule says. The
device sends a keepalive 100 µs after its last frame on a port whose link is up (log 117), resends what is not
acknowledged, sends CREEL_STATUS when it is due, and what it holds when that is due. -/
def Obligations.FrameEventsComplete : Prop :=
  (∀ (s : State) (f : RxFrame), FrameTaken 0x30 f s → exec (.keepalive f) s = onward s (takeFrame f s.sys)) ∧
  (∀ (s : State) (f : RxFrame) (k : DropKind), answers s.sys = true → dropOf s.sys f = some k →
    exec (.droppedFrame f) s = onward s (countDrop k s.sys)) ∧
  (∀ (s : State) (p : Port), answers s.sys = true → lastTx s.sys p + 100000 ≤ s.sys.t.timeBase →
    exec (.keepaliveSend ⟨p, true⟩) s = onward s (sendPlain (p == .service) p 0x30 [] s.sys)) ∧
  (∀ (s : State) (svc : Bool) (seq : Nat) (f : TxFrame), answers s.sys = true →
    let ss := sessOf s.sys svc
    ss.state = .open → ss.unacked.find? (fun f => f.seq == seq) = some f →
    exec (.frameResend svc seq) s =
      onward s (noteTx ss.port (setSess s.sys svc { ss with wire := ss.wire ++ [{ f with port := ss.port, ack := ss.rxSeq }] }))) ∧
  (∀ (s : State) (f : RxFrame), FrameTaken 0x10 f s →
    let svc := onService f
    let y := takeFrame f s.sys
    let ws := writtenWords f
    let creel := if svc then 64 else at8 f.payload 0 1
    let lane := at8 f.payload 1 1
    let k := laneKey creel lane
    let l := laneAt s.sys k
    let after : Lane := { l with queue := l.queue ++ ws, timerStart := if l.queue = [] then s.sys.t.timeBase else l.timerStart }
    let due := decide (64 ≤ freeWords l) && decide (freeWords after < 64)
    (sessOf s.sys svc).forced = none → (sessOf s.sys svc).closing = false →
    (l.overrun = true → exec (.creelWrite f) s = onward s y) ∧
    (l.overrun = false → ws.length ≤ freeWords l → exec (.creelWrite f) s = onward s { setLane k after y with
      cr := { (setLane k after y).cr with statusDue := y.cr.statusDue || due } }) ∧
    (l.overrun = false → freeWords l < ws.length →
      let z := setLane k { l with overrun := true } y
      exec (.creelWrite f) s = onward s (notice 2 (creelEnc creel + lane * 2 ^ 8) 0 ws.length 0
        { z with cr := { z.cr with statusDue := true } }))) ∧
  (∀ (s : State), answers s.sys = true → (s.sys.trd.state = .open ∨ s.sys.svc.state = .open) →
    (s.sys.cr.statusDue = true ∨ s.sys.cr.lastStatus + 100000 ≤ s.sys.t.timeBase) →
    let p := statusPayload s.sys
    let y := if s.sys.trd.state = .open then sendSeq false 0x13 p s.sys else s.sys
    let y := if s.sys.svc.state = .open then sendSeq true 0x13 p y else y
    exec .creelStatus s = onward s { y with cr := { y.cr with statusDue := false, lastStatus := s.sys.t.timeBase } }) ∧
  (∀ (s : State) (svc : Bool), answers s.sys = true → (sessOf s.sys svc).state = .open → flushDue s.sys (sessOf s.sys svc) = true →
    exec (.replyFlush svc) s = onward s (flushHeld svc s.sys))

/-- A session frame that no common reason rejects: SESSION_OPEN opens a session where there is none, is accepted again where
it names the open one, forces out a lapsed one and, with FORCE, another; SESSION_RESUME resumes the session that it names
and sends again what is not acknowledged; SESSION_CLOSE discards what is not read and ends the session once its commands
have completed. A forced end takes place once the session's commands have completed; a session whose timer runs out lapses,
which breaks its locks. -/
def Obligations.SessionEventsComplete : Prop :=
  (∀ (s : State) (f : RxFrame) (z : Sys), SessionTaken 0x01 f s z →
    let svc := onService f
    let ss := sessOf z svc
    at8 f.payload 8 1 ≤ 0x10 → 0x10 ≤ at8 f.payload 9 1 → ss.forced = none →
    (ss.state = .none → exec (.sessionOpen f) s = onward s (openSession svc (sessionId f) f.port z)) ∧
    (ss.state = .open → ss.id = sessionId f → exec (.sessionOpen f) s = onward s (sendAccept svc f.port z)) ∧
    (ss.state = .lapsed ∨ (ss.state = .open ∧ ss.id ≠ sessionId f ∧ (at8 f.payload 10 1).testBit 0 = true) →
      exec (.sessionOpen f) s = onward s (forceOut svc (sessionId f) f.port z)) ∧
    (ss.state = .open → ss.id ≠ sessionId f → (at8 f.payload 10 1).testBit 0 = false →
      exec (.sessionOpen f) s = onward s (sendReject f 0x02 z))) ∧
  (∀ (s : State) (svc : Bool) (q : Word64 × Port), answers s.sys = true → (sessOf s.sys svc).forced = some q →
    (sessOf s.sys svc).deferred = [] → (∀ c ∈ s.sys.cm.cmds, (c.creel = 64) = (svc = true) → False) →
    exec (.sessionForceEnd svc) s = onward s (openSession svc q.1 q.2 (sessionEnded svc 0x01 (breakLocks svc 2 s.sys)))) ∧
  (∀ (s : State) (f : RxFrame) (z : Sys), SessionTaken 0x05 f s z →
    let svc := onService f
    let d := discardUnread svc z
    let ss := sessOf d.2 svc
    (sessOf z svc).state ≠ .none → (sessOf z svc).id = sessionId f → (sessOf z svc).forced = none → (sessOf z svc).closing = false →
    exec (.sessionClose f) s = onward s (tryClose svc (setSess d.2 svc { ss with closing := true, discarded := ss.discarded + d.1 }))) ∧
  (∀ (s : State) (f : RxFrame) (z : Sys), SessionTaken 0x04 f s z →
    let svc := onService f
    let ss := sessOf z svc
    ss.state ≠ .none → ss.id = sessionId f → ss.forced = none →
    let back := ackFrames (at8 f.payload 8 4) { ss with state := .open, port := f.port, lastRx := z.t.timeBase }
    let y := sendAccept svc f.port (setSess z svc back)
    let open' := sessOf y svc
    let again := open'.unacked.map (fun t => { t with port := f.port, ack := open'.rxSeq })
    let y := setSess y svc { open' with wire := open'.wire ++ again }
    exec (.sessionResume f) s = onward s (if ss.state = .lapsed then flushHeld svc y else y)) ∧
  (∀ (s : State) (svc : Bool), answers s.sys = true →
    let ss := sessOf s.sys svc
    ss.state = .open → ss.forced = none → ss.closing = false → ss.lastRx + s.sys.cr.timeoutMs.toNat * 1000000 ≤ s.sys.t.timeBase →
    let y := if svc then endTransfer 0x25 s.sys else s.sys
    exec (.sessionLapse svc) s = onward s (breakLocks svc 4 (setSess y svc { sessOf y svc with state := .lapsed })))

/-- The head packet of the highest lane that has a ready one is read into a command; a head that waits for STALL_TIME is
reported; the oldest command of a lane completes once its work is done; a lock whose lease has ended is broken. -/
def Obligations.ReadingAndCompletionComplete : Prop :=
  (∀ (s : State) (creel lane : Nat), nextHead s.sys = some (creel, lane) →
    let ws := headWords 32 (laneAt s.sys (laneKey creel lane)).queue
    let b := wordsBytes ws
    ∃ y, exec .packetRead s = onward s y ∧
      (laneAt y (laneKey creel lane)).queue = (laneAt s.sys (laneKey creel lane)).queue.drop ws.length ∧
      y.cm.nextId = s.sys.cm.nextId + 1 ∧ (∃ c ∈ y.cm.cmds, c.id = s.sys.cm.nextId ∧ c.pkt = packetOf b ∧ c.creel = creel ∧
        c.lane = lane ∧ c.words = ws.length) ∧ y = readHead creel lane s.sys) ∧
  (∀ (s : State) (creel lane : Nat), isUp s.sys = true → (creel < 64 ∧ lane < 8 ∨ creel = 64 ∧ lane = 0) →
    let k := laneKey creel lane
    let l := laneAt s.sys k
    l.queue ≠ [] → l.stalled = false → l.stallTime ≠ 0 → l.timerStart + l.stallTime.toNat * 1000 ≤ s.sys.t.timeBase →
    exec (.stall creel lane) s = onward s (notice 1 (creelEnc creel + lane * 2 ^ 8) (at8 (wordsBytes (headWords 32 l.queue)) 4 4)
      (packetsIn l) 0 (setLane k { l with stalled := true } s.sys))) ∧
  (∀ (s : State) (creel lane : Nat) (c : Cmd) (st : Status) (res : List Word64), answers s.sys = true →
    s.sys.cm.cmds.find? (fun c => c.creel == creel && c.lane == lane) = some c → c.phase = .done st res →
    exec (.commandCompletion creel lane) s = onward s (complete c st res s.sys)) ∧
  (∀ (s : State) (k : Nat), answers s.sys = true → k < 64 →
    let l := mapGet ({} : Lock) s.sys.lck k
    l.state = .held → l.expires ≤ pickNow s.sys →
    exec (.lockExpired k) s = onward s (recordEvent 0 0x0061 k (1 + creelEnc l.owner * 256) (notice 8 k 0 (creelEnc l.owner) 0
      { s.sys with lck := mapSet {} s.sys.lck k { l with state := .broken, cause := 1 } })))

/-! ### Picks and counter samples (R477 to R494, R549) -/

/-- A pick marker schedules an advance to the pick that it names, counting what it misses, or is counted as stale; with
SOURCE PIN it is checked against the count; a PICK_IN edge schedules the target pick; the first advance whose apply time is
reached takes effect, and the samples due at it are taken; an echo leaves; the record of a sample is written, unless its slot
meets the state map now (log 114). -/
def Obligations.PickEventsComplete : Prop :=
  (∀ (s : State) (f : RxFrame), FrameTaken 0x20 f s → f.payload.length = 8 → at8 f.payload 6 2 = 0 → f.fflags = 0 →
    let y := takeFrame f s.sys
    let p := at8 f.payload 0 6
    let t := s.sys.t
    (t.source ≠ 1 → countAhead t < p → exec (.pick f) s =
      onward s { y with t := addMissed (p - countAhead t - 1) (schedule p t.timeBase false false t) }) ∧
    (t.source ≠ 1 → p ≤ countAhead t → exec (.pick f) s =
      onward s { y with t := { t with stale := satAt (umax 16) (t.stale + 1), staleTotal := satAt (umax 32) (t.staleTotal + 1) } }) ∧
    (t.source = 1 → p < countAhead t → exec (.pick f) s =
      onward s { y with t := { t with pinMismatch := satAt (umax 8) (t.pinMismatch + 1) } }) ∧
    (t.source = 1 → countAhead t ≤ p → p ≤ t.pinTarget → exec (.pick f) s = onward s y) ∧
    (t.source = 1 → countAhead t ≤ p → t.pinTarget < p → exec (.pick f) s =
      onward s { y with t := { addMissed (p - t.pinTarget) t with pinTarget := p } })) ∧
  (∀ (s : State), answers s.sys = true → s.sys.t.source = 1 → (∀ e, s.sys.t.lastEdge = some e → e + 250 ≤ s.sys.t.timeBase) →
    exec .pickInEdge s = onward s { s.sys with
      t := { schedule s.sys.t.pinTarget s.sys.t.timeBase true false s.sys.t with lastEdge := some s.sys.t.timeBase } }) ∧
  (∀ (s : State) (a : Advance) (r : List Advance), s.sys.t.sched = a :: r → a.apply ≤ s.sys.t.timeBase →
    ∃ y, exec .pickAdvance s = onward s y ∧ y.t.pick = a.target ∧ y.t.pickTb = a.apply ∧ y.t.sched = r ∧
      y = applyAdvance a r s.sys) ∧
  (∀ (s : State) (e : Echo) (r : List Echo), s.sys.t.echoes = e :: r → answers s.sys = true → s.sys.trd.state = .open →
    let y := { s.sys with t := { s.sys.t with echoes := r } }
    exec .pickEcho s = onward s (sendPlain false s.sys.trd.port 0x21 (echoBytes s.sys.t e) y)) ∧
  (∀ (s : State) (set : Nat) (d : CtrDue) (rest : List CtrDue), isUp s.sys = true →
    let x := ctrSet s.sys set
    let b := sampleBytes set d.seq false d.pick d.skipped d.tb d.size d.vals s.sys
    x.due = d :: rest → rangeHeld s.sys d.addr d.size = false →
    (mapHit s.sys d.addr d.size = false → exec (.ctrSample set) s = onward s
      (setCtrSet set { x with seq := if d.fresh then d.seq else x.seq, due := rest } (writeBytes none d.addr b.1 b.2))) ∧
    (mapHit s.sys d.addr d.size = true → exec (.ctrSample set) s = onward s (setCtrSet set { x with due := rest } s.sys))) ∧
  (∀ (s : State) (a : Advance) (rest : List Advance) (k : Nat), k < 8 → s.sys.t.sched = a :: rest → a.apply ≤ s.sys.t.timeBase →
    let x := ctrSet s.sys k
    x.running = true → 0 < multiples x.interval s.sys.t.pick a.target →
    ∃ (y : Sys) (vals : List Nat), exec .pickAdvance s = onward s y ∧ (ctrSet y k).due = x.due ++ [{
      pick := a.target, tb := a.apply, skipped := multiples x.interval s.sys.t.pick a.target - 1, seq := (x.taken + 1) % 2 ^ 32,
      addr := x.ring + recBytes x.sels * (x.taken % 2 ^ x.ringLog2), size := recBytes x.sels, vals := vals }])

/-! ### Buckets on their way (R335 to R353) -/

/-- A bucket in progress converts its source into staging and starts sending; a partial that arrives is added to the
member's own piece, written where the owner's result stands or relayed; a gather packet is written and sent on; a twin's half
joins the own half; held packets are taken; the final shard gives the command its status and results, or, after an
overflow, exponent and generation rise and the source is converted and sent again. -/
def Obligations.BucketEventsComplete : Prop :=
  (∀ (s : State) (tag : Nat) (b b' : Bucket) (z : Sys), isUp s.sys = true →
    bucketIs s.sys tag (fun b => !b.gather && !b.converted) = some b → anyHeld s.sys (bucketRanges b (routeAt s.sys b.route)) = false →
    convertBucket b s.sys = .inr (b', z) → b'.converted = true ∧
    (b.shadow = false → exec (.bucketConversionDone tag) s = onward s (bucketsMoved (startSending b' z))) ∧
    (b.shadow = true → exec (.bucketConversionDone tag) s = onward s (bucketsMoved (shadowDone b' (routeAt s.sys b.route) z)))) ∧
  (∀ (s : State) (port : Nat) (bytes : List Byte) (h : BucketHdr) (b : Bucket) (r : Route), PacketMeets port bytes s h b r →
    hdrFlag h 3 = false → hdrFlag h 4 = false → atInPort port r h = true → Safety.onTime s b r → b.gather = false →
    let b := openWindow b (pickNow s.sys)
    let y := putBucket b s.sys
    let sum := bytes64 (sum64 (elems64 h.elems (bytes.drop 32)) (ownPiece s.sys b h.first h.elems))
    let fl := (h.flags &&& 3) ||| b.ownFlags
    let b' := { b with handled := b.handled ++ [(h.shard, h.first, fl)] }
    consume 5 (b.stage + 8 * h.first) (8 * h.elems) y = none →
    (h.shard = r.selfPos → r.split = false → exec (.bucketPacket port (.bucket bytes)) s = onward s (bucketsMoved (stopSpoiled b.cmd
      (putBucket { b' with shardFlags := b.shardFlags ||| fl } (writeBytes (some b.cmd) (resultAddr b r h.shard h.first) sum y))))) ∧
    (h.shard ≠ r.selfPos → exec (.bucketPacket port (.bucket bytes)) s = onward s (bucketsMoved (stopSpoiled b.cmd
      (sendOn b' r fl h.strand h.shard h.first h.elems sum
        (putBucket b' (writeBytes (some b.cmd) (resultAddr b r h.shard h.first) sum y))))))) ∧
  (∀ (s : State) (port e : Nat) (bytes : List Byte) (h : BucketHdr) (b : Bucket) (r : Route), PacketMeets port bytes s h b r →
    hdrFlag h 3 = false → hdrFlag h 4 = false → atInPort port r h = true →
    let b := openWindow b (pickNow s.sys)
    let x := expireWindow b r e (putBucket b s.sys)
    lateFrom b r = some e → e ≤ pickNow s.sys → twinCopies (putBucket b s.sys) = true → x.1.asked.elem (h.shard, h.first) = true →
    x.1.refusedCopy.elem (h.shard, h.first) = false →
    exec (.bucketPacket port (.bucket bytes)) s =
      onward s (bucketsMoved (stopSpoiled b.cmd (holdPacket port (pickNow s.sys) h (bytes.drop 32) x.2)))) ∧
  (∀ (s : State) (port : Nat) (bytes : List Byte) (h : BucketHdr) (b : Bucket) (r : Route), PacketMeets port bytes s h b r →
    hdrFlag h 3 = false → hdrFlag h 4 = true → atInPort port r h = true → Safety.onTime s b r → b.gather = true →
    let b := openWindow b (pickNow s.sys)
    let b' := { b with handled := b.handled ++ [(h.shard, h.first, 0)] }
    let y := putBucket b' (writeBytes (some b.cmd) (resultAddr b r h.shard h.first) (bytes.drop 32) (putBucket b s.sys))
    let y := if nextPos r r.selfPos = h.shard then y else sendOn b' r 0 h.strand h.shard h.first h.elems (bytes.drop 32) y
    exec (.gatherPacket port (.bucket bytes)) s = onward s (bucketsMoved (stopSpoiled b.cmd (tryGather b' r y)))) ∧
  (∀ (s : State) (port : Nat) (bytes : List Byte) (h : BucketHdr) (b : Bucket) (r : Route), PacketMeets port bytes s h b r →
    hdrFlag h 3 = true → hdrFlag h 4 = false → twinPorts.elem port = true →
    let b := openWindow b (pickNow s.sys)
    let y := putBucket b s.sys
    let half := elems64 h.elems (bytes.drop 32)
    b.joined.elem h.first = false → b.twinHalf.any (fun p => p.1 == h.first) = false →
    (∀ o, b.ownHalf.find? (fun p => p.1 == h.first) = some o → exec (.twinHalfSum port (.bucket bytes)) s =
      onward s (bucketsMoved (stopSpoiled b.cmd (joinHalves b r h.first (o.2.1, o.2.2) (half, h.flags &&& 3) y)))) ∧
    (b.ownHalf.find? (fun p => p.1 == h.first) = none → exec (.twinHalfSum port (.bucket bytes)) s =
      onward s (bucketsMoved (stopSpoiled b.cmd (putBucket { b with twinHalf := b.twinHalf ++ [(h.first, half, h.flags &&& 3)] } y))))) ∧
  (∀ (s : State) (tag : Nat) (b : Bucket), isUp s.sys = true →
    s.sys.coll.buckets.find? (fun b => b.tag == tag && b.converted && !b.shadow && s.sys.coll.holding.any (releasable b)) = some b →
    (∀ p ∈ s.sys.coll.holding, releasable b p = true → packetHeld s.sys p.hdr = false) →
    exec (.heldPartialRelease tag) s = onward s (bucketsMoved (takeHeld (s.sys.coll.holding.filter (releasable b)) { s.sys with
      coll := { s.sys.coll with holding := s.sys.coll.holding.filter (fun p => !releasable b p) } }))) ∧
  (∀ (s : State) (tag : Nat) (b : Bucket) (st : Status), isUp s.sys = true →
    bucketIs s.sys tag (fun b => !b.gather && !b.shadow && b.converted) = some b →
    let r := routeAt s.sys b.route
    anyHeld s.sys (bucketRanges b r) = false → shardFinal b r = true → relaysDone b r = true → sendsDone s.sys b = true → shardStatus b = some st → st ≠ .bucketOverflow →
    let y := bucketTrace b 2 r.selfPos (bucketPort r) s.sys
    let dS := elemDigest s.sys b.tag 8 b.stage 0 b.count
    let dR := elemDigest s.sys b.tag 8 b.dst (shardFirst b.count r.p r.selfPos) (shardLen b.count r.p r.selfPos)
    let rec' := recordOf b false (flag b.shardFlags 1) dS dR
    exec (.shardFinal tag) s = onward s (bucketsMoved (finish b.cmd st (reduceResults b r b.shardFlags dS dR)
      (putBucket { b with finished := true } (modCmd b.cmd (fun c => { c with record := some rec' }) y))))) ∧
  (∀ (s : State) (tag : Nat) (b : Bucket), isUp s.sys = true →
    bucketIs s.sys tag (fun b => !b.gather && !b.shadow && b.converted) = some b →
    let r := routeAt s.sys b.route
    anyHeld s.sys (bucketRanges b r) = false →
    shardFinal b r = true → relaysDone b r = true → flag b.shardFlags 0 = true → flag b.shardFlags 1 = false → b.exp + 8 ≤ 255 →
    let y := bucketTrace b 2 r.selfPos (bucketPort r) s.sys
    let n := { nextGen b with window := heldSince y b.tag b.step (b.gen + 1) false }
    let y := bucketTrace n 3 r.selfPos (bucketPort r) { y with coll := { y.coll with resends := satAt (umax 16) (y.coll.resends + 1) } }
    ∀ (b' : Bucket) (z : Sys), convertBucket n (putBucket n y) = .inr (b', z) →
      n.exp = b.exp + 8 ∧ n.gen = b.gen + 1 ∧ exec (.bucketResend tag) s = onward s (bucketsMoved (startSending b' z)))

/-- A bucket that has waited LATE_PICKS picks asks its twin for what is missing, or waits where the twin cannot be asked; a
device that holds the result asked for answers with it, one that cannot supply it says so, and one that does not hold it yet
keeps the request; the answer is used as the member's own result. -/
def Obligations.BucketTwinEventsComplete : Prop :=
  (∀ (s : State) (tag a : Nat) (b : Bucket), isUp s.sys = true →
    bucketIs s.sys tag (fun _ => true) = some b →
    let r := routeAt s.sys b.route
    (b.gather = false → anyHeld s.sys (bucketRanges b r) = false) →
    b.shadow = false → b.latePicks ≠ 0 → b.window = some a → r.split = false → a + b.latePicks ≤ pickNow s.sys →
    let late := (expected b r).filter (isLate s.sys b (a + b.latePicks))
    let asked := b.asked ++ late.map (fun q => (q.2.1, q.2.2.1))
    (twinCopies s.sys = true → exec (.latenessExpiry tag) s =
      onward s (bucketsMoved (putBucket { b with asked := asked } (late.foldl (fun z q => askTwin { b with asked := asked } r q z) s.sys)))) ∧
    (twinCopies s.sys = false → exec (.latenessExpiry tag) s = onward s (bucketsMoved (putBucket
      { b with asked := asked, refusedCopy := b.refusedCopy ++ late.map (fun q => (q.2.1, q.2.2.1)) } s.sys)))) ∧
  (∀ (s : State) (port : Nat) (bytes : List Byte), isUp s.sys = true → portTakes s.sys port = true →
    twinPorts.elem port = true → twinOn s.sys = true →
    let h := hdrOf bytes
    let keep := { s.sys with coll := { s.sys.coll with requests := s.sys.coll.requests ++ [h] } }
    (bucketFor s.sys h = none → stepAhead s.sys h.step = true → exec (.twinCopyRequest port (.copyRequest bytes)) s = onward s keep) ∧
    (bucketFor s.sys h = none → stepAhead s.sys h.step = false →
      exec (.twinCopyRequest port (.copyRequest bytes)) s = onward s (answerCopy h 0 none s.sys)) ∧
    (∀ b, bucketFor s.sys h = some b →
      let r := routeAt s.sys b.route
      let a := resultAddr b r h.shard h.first
      let n := bktElemBytes b * h.elems
      (b.failed = true ∨ h.gen < b.gen → exec (.twinCopyRequest port (.copyRequest bytes)) s = onward s (answerCopy h 0 none s.sys)) ∧
      (b.failed = false → b.gen ≤ h.gen → (h.gen = b.gen → ∀ q ∈ b.handled, (q.1, q.2.1) ≠ (h.shard, h.first)) →
        (portUp s.sys (inPort r h.strand) = true → exec (.twinCopyRequest port (.copyRequest bytes)) s = onward s keep) ∧
        (portUp s.sys (inPort r h.strand) = false →
          exec (.twinCopyRequest port (.copyRequest bytes)) s = onward s (answerCopy h 0 none s.sys))) ∧
      (∀ q, b.failed = false → h.gen = b.gen → b.handled.find? (fun q => q.1 == h.shard && q.2.1 == h.first) = some q →
        rangeHeld s.sys a n = false → consume 5 a n s.sys = none →
        exec (.twinCopyRequest port (.copyRequest bytes)) s = onward s (answerCopy h q.2.2 (some (readBytes s.sys a n)) s.sys)))) ∧
  (∀ (s : State) (port : Nat) (bytes : List Byte) (b : Bucket), isUp s.sys = true → portTakes s.sys port = true →
    twinPorts.elem port = true → twinOn s.sys = true → let h := hdrOf bytes
    packetHeld s.sys h = false →
    let r := routeAt s.sys b.route
    let key := (h.shard, h.first)
    bucketFor s.sys h = some b → b.finished = false → h.gen = b.gen → b.asked.elem key = true → b.used.elem key = false →
    b.refusedCopy.elem key = false → b.handled.any (fun q => q.1 == h.shard && q.2.1 == h.first) = false →
    (exec (.twinCopyAnswer port (.copyAnswer bytes none)) s =
      onward s (bucketsMoved (putBucket { b with refusedCopy := b.refusedCopy ++ [key] } s.sys))) ∧
    (∀ payload, payload.length = bktElemBytes b * h.elems → exec (.twinCopyAnswer port (.copyAnswer bytes (some payload))) s =
      onward s (bucketsMoved (useCopy b r h payload s.sys))))

/-! ### Warp ports and other devices (R261, R277, R319 to R324, R368 to R371, R604) -/

/-- A port that is DOWN trains when a peer answers, shows its lanes as they lock, and is UP after the exchange of identities;
16 failed retries of one packet, lanes and timeouts fault it; a lost peer takes it DOWN; its link packets move sequence, retry buffer and counters; a lane equalizes every
10 s; a LINK_RESET ends after 200 ms at the latest. -/
def Obligations.PortEventsComplete : Prop :=
  (∀ (s : State) (w : Nat) (lanes : BitVec 8), portRuns s.sys w = true → (portAt s.sys w).state = 0 →
    let y := if (portAt s.sys w).wasUp then onLife (fun l => { l with retrains := mapMod 0 l.retrains w inc32 }) s.sys else s.sys
    exec (.portTraining ⟨w, lanes⟩) s =
      onward s (sendIdentity w (onPort w (fun p => { p with state := 1, wasUp := false, lanesOk := lanes }) y))) ∧
  (∀ (s : State) (w : Nat) (lanes : BitVec 8), portRuns s.sys w = true → (portAt s.sys w).state = 1 →
    exec (.portTraining ⟨w, lanes⟩) s = onward s (onPort w (fun p => { p with lanesOk := p.lanesOk ||| lanes }) s.sys)) ∧
  (∀ (s : State) (w dev pp : Nat) (valid : Bool) (twin : Option (Nat × Nat)), portRuns s.sys w = true →
    ((portAt s.sys w).state = 1 ∨ (portAt s.sys w).state = 2 →
      exec (.identityFrame w (.identity dev valid pp twin)) s = onward s (setAgreed (takeIdentity w dev valid pp twin s.sys))) ∧
    (let up := fun (p : PortSt) => { p with state := 2, wasUp := true, lanesOk := 0xFF, txSeq := 0, rxSeq := 0, retry := [],
                                            lastEq := s.sys.t.timeBase }
     (portAt s.sys w).state = 1 → exec (.portUp w (.identity dev valid pp twin)) s =
       onward s (linkResetUp (setAgreed (takeIdentity w dev valid pp twin (onPort w up s.sys)))))) ∧
  (∀ (s : State) (w : Nat) (c : FaultCause), portRuns s.sys w = true →
    (if c = .retries then (portAt s.sys w).state = 2 ∧ ∃ q ∈ (portAt s.sys w).retry, 17 ≤ q.refused
     else (portAt s.sys w).state = 1 ∨ (portAt s.sys w).state = 2) →
    exec (.portFault w c) s = onward s (faultPort w s.sys)) ∧
  (∀ (s : State) (w : Nat), portRuns s.sys w = true → ((portAt s.sys w).state = 1 ∨ (portAt s.sys w).state = 2) →
    exec (.portDown w) s = onward s (serveRequests (twinLinkLost (dropStreams w (dropRemote w (onPort w (fun p =>
      { stopPort 0 p with peerDevice := 0, peerPort := 0, peerValid := false, peerTwin := none }) s.sys)))))) ∧
  (∀ (s : State) (w : Nat) (e : LinkEvent), portRuns s.sys w = true → portUp s.sys w = true →
    exec (.linkPacket w e) s = onward s (outDone w (onPort w (linkEvent e) s.sys))) ∧
  (∀ (s : State) (w : Nat), portRuns s.sys w = true → (portAt s.sys w).state = 2 →
    (portAt s.sys w).lastEq + 10000000000 ≤ s.sys.t.timeBase →
    exec (.laneEqualization w) s =
      onward s (onPort w (fun p => { p with nextLane := (p.nextLane + 1) % 8, lastEq := s.sys.t.timeBase }) s.sys)) ∧
  (∀ (s : State) (r : LinkResetSt), s.sys.lnk.reset = some r → r.start + 200000000 ≤ s.sys.t.timeBase →
    exec .linkResetTimeout s =
      onward s (finish r.cmd .ok [BitVec.ofNat 64 (upBitmap s.sys r.die)] { s.sys with lnk := { s.sys.lnk with reset := none } }))

/-- A packet for a third device goes on by the forwarding table; another device's write is written, or refused where it
touches a face range, and reported; the last report completes the MEM_COPY that it names. -/
def Obligations.RemoteEventsComplete : Prop :=
  (∀ (s : State) (port dst w : Nat) (m : WarpMsg), addressee m = some dst → powered s.sys = true → portTakes s.sys port = true →
    ownNumber s.sys dst = false → portTo s.sys dst = some w → exec (.warpForward port m) s = onward s (sendWarp w m s.sys)) ∧
  (∀ (s : State) (port src dst cmd a w : Nat) (free : Bool) (bytes : List Byte), isUp s.sys = true → portTakes s.sys port = true →
    ownNumber s.sys dst = true → inDram a bytes.length = true → rangeHeld s.sys a bytes.length = false → portTo s.sys src = some w →
    (protectedHit s.sys free a bytes.length = false → exec (.remoteWrite port (.memWrite src dst cmd a free bytes)) s = onward s
      (sendWarp w (.memDone dst src cmd false) (addDigests (backBytes s.sys a bytes) (writeBytes none a bytes s.sys)))) ∧
    (protectedHit s.sys free a bytes.length = true → exec (.remoteWrite port (.memWrite src dst cmd a free bytes)) s = onward s
      (sendWarp w (.memDone dst src cmd true) s.sys))) ∧
  (∀ (s : State) (port src dst cmd : Nat) (refused : Bool) (r : RemoteCopy), isUp s.sys = true → portTakes s.sys port = true →
    ownNumber s.sys dst = true → s.sys.mem.remote.find? (fun r => r.cmd == cmd && r.device == src) = some r →
    let others := s.sys.mem.remote.filter (fun q => !(q.cmd == cmd && q.device == src))
    let st := if refused then .stateFaceWrite else r.st
    (r.left ≤ 1 → exec (.writesCompleteReport port (.memDone src dst cmd refused)) s = onward s
      (finish cmd st [] { s.sys with mem := { s.sys.mem with remote := others } })) ∧
    (1 < r.left → exec (.writesCompleteReport port (.memDone src dst cmd refused)) s = onward s
      { s.sys with mem := { s.sys.mem with remote := others ++ [{ r with left := r.left - 1, st := st }] } }))

/-! ### Steps, twins, streams and the burler (R386 to R412, R508 to R526) -/

/-- The prepare of a step takes its digests once the step's commands have completed, and ends with the twin's message, which is
held until then, also for a step to come; the command that holds the creels flips the banks once it is alone; the receiver of a weave takes content, and
its outcome ends the sender's command. -/
def Obligations.StepEventsComplete : Prop :=
  (∀ (s : State) (p : Prep), s.sys.stp.prep = some p → isUp s.sys = true → p.digested = false → coveredLeft s.sys = false →
    sealedLeft s.sys = false → exec .prepareDigest s = onward s (digestPrepare p s.sys)) ∧
  (∀ (s : State) (port : Nat) (q : PrepareMsg), isUp s.sys = true → portTakes s.sys port = true → twinPorts.elem port = true →
    twinOn s.sys = true → openStep s.sys ≤ q.step → (q.aborted = true → q.step = openStep s.sys → s.sys.stp.abortPending = false) →
    let others := s.sys.stp.twinMsgs.filter (fun m => m.step != q.step)
    let y := { s.sys with stp := { s.sys.stp with twinMsgs := others ++ [q] } }
    ((∀ p, s.sys.stp.prep = some p → p.digested = false ∨ q.step ≠ openStep s.sys) →
      exec (.prepareMessage port (.prepare q)) s = onward s y) ∧
    (∀ p, s.sys.stp.prep = some p → p.digested = true → q.step = openStep s.sys → exec (.prepareMessage port (.prepare q)) s = onward s (endPrepare (some q) y))) ∧
  (∀ (s : State) (id : Nat) (c : Cmd), isUp s.sys = true → s.sys.cm.commitWait = some id → findCmd s.sys id = some c →
    c.phase = .running → commitAlone id s.sys = true →
    (c.op = 0x0602 → exec .commitStart s = onward s (commitNow id s.sys)) ∧
    (c.op ≠ 0x0602 → exec .commitStart s = onward s (undoNow id s.sys))) ∧
  (∀ (s : State) (port : Nat) (w : Weave), s.sys.stp.weave = some w → isUp s.sys = true → portTakes s.sys port = true →
    twinPorts.elem port = true → twinOn s.sys = true →
    (∀ m, w.sender = false → weaveHeld s.sys m = false → exec (.weavePacket port m) s = onward s (weaveIn w m s.sys)) ∧
    (∀ ok, w.sender = true → exec (.weavePacket port (.weaveResult ok)) s =
      onward s (endWeave w (if ok then .ok else .weaveFailed) s.sys)))

/-- A checkpoint stream in writes the data that arrives for its entry and ends with the peer's END packet. A burler slice
takes a closed tile position or waits; a test that matches moves on, one that does not marks the position failed and starts
its mend; a mend ends with the slot at the spare, or lost. A unit whose control state fails ends its commands and stops the
device. -/
def Obligations.IntegrityEventsComplete : Prop :=
  (∀ (s : State) (port : Nat) (x : Ckpt) (b : List Byte), isUp s.sys = true → portUp s.sys port = true →
    s.sys.stp.ckpts.find? (fun c => c.port == port && c.inward) = some x → badCkpt x b = false →
    (at8 b 1 1 = 1 → (entryAt s.sys x.entry).state = .loading →
      rangeHeld s.sys ((entryAt s.sys x.entry).face + at8 b 16 5) (b.drop 32).length = false → at8 b 16 5 + (b.drop 32).length ≤ (entryAt s.sys x.entry).length →
      let x' := { x with moved := x.moved + (b.drop 32).length, digest := x.digest + bytesDigest s.sys x.entry (at8 b 16 5) (b.drop 32) }
      let y := writeBytes none ((entryAt s.sys x.entry).face + at8 b 16 5) (b.drop 32) s.sys
      exec (.ckptData port (.ckpt b)) s = onward s { y with
        stp := { y.stp with ckpts := y.stp.ckpts.map (fun d => if d.cmd = x.cmd then x' else d) } }) ∧
    (at8 b 1 1 = 2 → exec (.ckptEnd port (.ckpt b)) s = onward s (finish x.cmd .ok
      [BitVec.ofNat 64 x.moved, x.digest, BitVec.ofNat 64 (at8 b 6 6), BitVec.ofNat 64 (at8 b 40 8)] (dropCkpt x.cmd s.sys)))) ∧
  (∀ (s : State) (die n : Nat), burlerRuns s.sys die = true → (underTest s.sys die).bind (shuttleAt s.sys) = some n →
    let b := burDie s.sys die
    let t := (List.range 8).find? (fun t => tileClosed (tileAt s.sys n t))
    exec (.burlerSlice die false) s = onward s (setBur die { b with holds := none } s.sys) ∧
    (∀ k, t = some k → exec (.burlerSlice die true) s = onward s (setBur die { b with holds := some (n, k) } s.sys)) ∧
    (t = none → exec (.burlerSlice die true) s =
      onward s (setBur die { b with holds := none, delayed := satAt (umax 8) (b.delayed + 1) } s.sys))) ∧
  (∀ (s : State) (die part pos : Nat) (digest expected : Word64), underTest s.sys die = some pos → burlerRuns s.sys die = true →
    1 ≤ part → part ≤ 5 → let y := endTest die s.sys
    (digest = expected → exec (.burlerTestDone die part digest expected) s = onward s { y with
      bur := { y.bur with cleanPicks := mapPut y.bur.cleanPicks pos (pickNow y + 1) } }) ∧
    (∀ n, digest ≠ expected → shuttleAt s.sys pos = some n → let p := markFailed pos s.perm
      exec (.burlerTestDone die part digest expected) s =
        onwardAll s (p, startMend p n pos (failTiles n (reportFail (some n) pos part y))))) ∧
  (∀ (s : State) (die : Nat) (m : Mend), mendOf s.sys die = some m →
    let n := 128 * die + m.slot
    let y := setBur die { burDie s.sys die with mend := none } s.sys
    let pos := 17 * (n / 16) + m.spare
    exec (.mendDone die true) s = onward s (moveSlot n m.failed (some m.spare)
      { y with bur := { y.bur with cleanPicks := mapPut y.bur.cleanPicks pos (pickNow y + 1) } }) ∧
    exec (.mendDone die false) s = onwardAll s (markFailed pos s.perm, moveSlot n m.failed none
      (failTiles n (reportFail none pos ((freshWord y).1.toNat % 5 + 1) (freshWord y).2)))) ∧
  (∀ (s : State) (cls inst : Nat), isUp s.sys = true → inst < checkedUnits cls →
    let cs := s.sys.cm.cmds.filter (onFailedUnit s.sys cls inst)
    let y := trimAll (abortEngines (cs.map (fun c => c.id)) (cs.foldl failCmd s.sys))
    exec (.unitFailure cls inst) s = onward s (recordEvent 4 0x0030 0 (inst + cls * 2 ^ 32) { y with pwr := { y.pwr with stopped := true } }))

/-- The ending command of a tile starts once every contribution before it has been made, and reads out, exports, discards,
finds the accumulation failed, or meets a parity error in the accumulator file; the trace unit drains a granule, fills a gap, and ends its window. -/
def Obligations.EndingAndTraceEventsComplete : Prop :=
  (∀ (s : State) (n t u id : Nat) (c : Cmd), isUp s.sys = true →
    let p := tileAt s.sys n t
    let v := if p.guarded then u else 0
    let z := viewed c s.sys
    (namedTile p v).1 = .ending id → findCmd s.sys id = some c → c.phase = .running → endingHeld z c = false → readoutTaken z c = false →
    (∀ parity, c.op = 0x0205 → exec (.endingStart n t ⟨u, parity⟩) s = onward s (finish c.id .ok [] s.sys)) ∧
    (∀ parity, c.op ≠ 0x0205 → (namedTile p v).2.1 = true →
      exec (.endingStart n t ⟨u, parity⟩) s = onward s (finish c.id .accFailed [] (reopenTile n t v s.sys))) ∧
    (c.op ≠ 0x0205 → (namedTile p v).2.1 = false →
      exec (.endingStart n t ⟨u, false⟩) s = worked s (if p.guarded then endGuarded c n t v z else endExact c n t z) ∧
      exec (.endingStart n t ⟨u, true⟩) s = onward s (finish c.id .memUncorrectable [] (storeError n s.sys)))) ∧
  (∀ (s : State) (u : Nat), isUp s.sys = true → unitOn s.sys u = true →
    (s.sys.obs.trace.state = .running ∨ s.sys.obs.trace.state = .triggered →
      exec (.traceDrain u) s = onward s (tryStop (drainMany (2 - (unitAt s.sys u).wp % 2) u s.sys))) ∧
    exec (.traceGap u) s = onward s (setUnit u (writeGap s.sys.obs.trace u (stampNow s.sys) (unitAt s.sys u)) s.sys)) ∧
  (∀ (s : State), isUp s.sys = true → s.sys.obs.trace.state = .triggered → s.sys.obs.trace.stopping = none →
    windowEnd s.sys.obs.trace ≤ pickNow s.sys →
    exec .traceWindowEnd s = onward s (onTrace (fun t => { t with state := .done }) (drainAll s.sys)))

/-! ### Images, headstocks, heat and power (R47 to R58, R578 to R606, R624 to R656) -/

/-- An image transfer begins where no check of its header fails, takes its data in order, makes the image pending once
length, digest and signature hold, ends where the MRAM is not written, and is aborted. -/
def Obligations.ImageEventsComplete : Prop :=
  (∀ (s : State) (f : RxFrame), FrameTaken 0x40 f s → let y := takeFrame f s.sys
    (headerResult s.perm y f.payload = none → exec (.imageBegin f) s = onward s (beginTransfer f.payload y)) ∧
    (∀ r, headerResult s.perm y f.payload = some r → exec (.imageBegin f) s = onward s (refuseHeader f.payload r y))) ∧
  (∀ (s : State) (f : RxFrame), FrameTaken 0x41 f s → let y := takeFrame f s.sys
    let tr := s.sys.sec.transfer
    let data := f.payload.drop 8
    64 ≤ data.length → data.length ≤ 8128 → data.length % 64 = 0 → at8 f.payload 0 4 = tr.received →
    tr.received + data.length ≤ transferBytes tr →
    exec (.imageData ⟨f, true⟩) s = onward s { y with sec :=
      { y.sec with transfer := { tr with data := tr.data ++ data, received := tr.received + data.length } } } ∧
    exec (.imageData ⟨f, false⟩) s = onward s (endTransfer 0x24 y)) ∧
  (∀ (s : State) (f : RxFrame), FrameTaken 0x42 f s → let y := takeFrame f s.sys
    (∀ r ok, imageResult s.sys.sec.transfer = some r → exec (.imageEnd ⟨f, ok⟩) s = onward s (endTransfer r y)) ∧
    (imageResult s.sys.sec.transfer = none → exec (.imageEnd ⟨f, true⟩) s = onward s (stageImage y) ∧
      exec (.imageEnd ⟨f, false⟩) s = onward s (endTransfer 0x24 y))) ∧
  (∀ (s : State) (f : RxFrame), FrameTaken 0x44 f s → exec (.imageAbort f) s = onward s (endTransfer 0x25 (takeFrame f s.sys)))

/-- A watchdog declares a headstock faulted; a READY standby takes over from a faulted active one; a standby that has booted,
or comes out of its reset in a HEADSTOCK slot that starts, is READY, its MRAM the same as the active one's; a unit in reset reports ready with its pending image activated, or, once its time has passed, tries the former
image and then fails its command. -/
def Obligations.HeadstockEventsComplete : Prop :=
  (∀ (s : State) (h : Nat), powered s.sys = true → h < 2 → s.sys.pwr.phase ≠ .failed →
    (if h = s.sys.hs.active then s.sys.hs.silent = false ∧ s.sys.hs.activeFaulted = false else s.sys.hs.standby ≠ .absent) →
    exec (.hsFault h) s = onward s (faultHeadstock h s.sys)) ∧
  (∀ (s : State), powered s.sys = true → s.sys.hs.activeFaulted = true → s.sys.hs.standby = .ready →
    let h := 1 - s.sys.hs.active
    let n := satAt (umax 8) (s.sys.hs.takeovers + 1)
    let hs := { s.sys.hs with active := h, standby := .absent, takeovers := n, takeoverEvent := true, activeFaulted := false }
    let y := onLife (fun l => { l with takeovers := inc32 l.takeovers })
      (endTransfer 0x25 { s.sys with hs := hs, copy := some (s.sys.copy.getD s.sys.nv) })
    exec .takeover s = onward s (expireLocks (migrate (payOwed (settleDevice (loseAdvances (resendAll true (resendAll false
      (takeoverNotice (recordEvent 4 0x0002 h n y)))))))))) ∧
  (∀ (s : State) (bad : List Nat), isUp s.sys = true → s.sys.hs.activeFaulted = false →
    let h := 1 - s.sys.hs.active
    let fell := s.sys.sec.resets.any (fun r => r.standby && r.second)
    let comes := fun (x : Perm × Sys) => onwardAll s
      (x.1, migrate (measureBoot x.1 h false { x.2 with hs := { x.2.hs with standby := .ready }, copy := none }))
    (s.sys.hs.standby = .booting → exec (.standbyReady bad) s = comes (s.perm, s.sys)) ∧
    (s.sys.hs.standby = .reset → (∃ r ∈ s.sys.sec.resets, r.standby = true) →
      (fell = true → slotStarts bad s.sys h (unitSlot s.sys 1 h) = true → exec (.standbyReady bad) s =
        comes (s.perm, onBoot h (fun _ => { slot := unitSlot s.sys 1 h, fallback := 1 }) s.sys)) ∧
      (fell = false → slotStarts bad s.sys h (ownOf s.sys h).images.current = true →
        ∃ x, standbyBoots bad (s.perm, s.sys) = some x ∧ exec (.standbyReady bad) s = comes x) ∧
      (standbyBoots bad (s.perm, s.sys) = none → exec (.standbyReady bad) s = onward s s.sys))) ∧
  (∀ (s : State) (standby : Bool) (die : Nat) (r : UnitReset), isUp s.sys = true →
    s.sys.sec.resets.find? (fun r => r.standby == standby && (standby || r.die == die)) = some r →
    (standby = true → s.sys.hs.standby = .ready → exec (.unitReportsReady standby die) s =
      onward s (finish r.cmd .ok (resetWords (dropReset r s.sys) r) (dropReset r s.sys))) ∧
    (standby = false → let x := if r.second then (s.perm, s.sys) else activateUnit 3 die true (activateUnit 2 die true (s.perm, s.sys))
      let y := dropReset r x.2
      let y := { y with sec := { y.sec with heldInReset := setDel y.sec.heldInReset die } }
      exec (.unitReportsReady standby die) s = onwardAll s (x.1, finish r.cmd .ok (resetWords y r) y)) ∧
    (r.began + readyWithin standby ≤ s.sys.t.timeBase → r.second = true → exec (.readyTimeExpiry standby die) s =
      onward s (finish r.cmd .unitResetFailed [] (dropReset r s.sys))) ∧
    (r.began + readyWithin standby ≤ s.sys.t.timeBase → r.second = false →
      let again := s.sys.sec.resets.map (fun q => if q.cmd = r.cmd then { q with second := true, began := s.sys.t.timeBase } else q)
      exec (.readyTimeExpiry standby die) s =
        onward s (fallbackRecords { s.sys with sec := { s.sys.sec with resets := again } } r)))

/-- A die whose clocks run is sampled every 100 µs: its stretch level rises, stays or falls, or it trips; each second a life
sample fills the histograms, and each tenth of an hour hours and histograms are stored. -/
def Obligations.HeatEventsComplete : Prop :=
  (∀ (s : State) (die : Nat) (r : ThermReading), powered s.sys = true → die < 28 → dieStopped s.sys die = false →
    mapGet 0 s.sys.pwr.lastSample die + 100000 ≤ s.sys.t.timeBase →
    let y := { s.sys with pwr := { s.sys.pwr with lastSample := mapSet 0 s.sys.pwr.lastSample die s.sys.t.timeBase } }
    let t := thermAt s.sys die
    let n := nextStretch s.sys r t.stretch
    (die < 18 → tripCause true r = none → exec (.thermalSample die r) s = onward s (stretchNotices die r t.stretch n
      (setTherm die { t with logic := encTemp r.logic, dram := encTemp r.dram, stretch := n,
                             currentLimit := decide (520 < r.current) && decide (t.stretch < n) } y))) ∧
    (∀ k, die < 18 → tripCause true r = some k → exec (.thermalSample die r) s =
      onward s (tripDie die k (encTemp (if k = 1 then r.logic else r.dram)).toNat t.stretch
        (setTherm die { t with tripped := true, logic := 0x8000, dram := 0x8000 } y))) ∧
    (18 ≤ die → exec (.thermalSample die r) s = onward s (sampleOther die r y))) ∧
  (∀ (s : State) (vcore : List Nat), answers s.sys = true → s.sys.pwr.lastLife + 1000000000 ≤ s.sys.t.timeBase → vcore.length = 18 →
    exec (.lifeSample vcore) s = onward s { s.sys with pwr := { s.sys.pwr with
      bins := vcore.zipIdx.foldl (fun m p => sampleBins s.sys p.2 p.1 m) s.sys.pwr.bins,
      vcore := vcore.zipIdx.foldl (fun m p => mapSet 0 m p.2 (p.1 % 2 ^ 16)) s.sys.pwr.vcore,
      lastLife := s.sys.t.timeBase } }) ∧
  (∀ (s : State), answers s.sys = true → s.sys.pwr.lastHour + 360000000000 ≤ s.sys.t.timeBase →
    let l := s.sys.nv.life
    let bins := s.sys.pwr.bins.foldl (fun m p => mapMod 0 m p.1 (fun v => satAt (umax 32) (v + p.2))) l.bins
    exec .hoursTick s = onward s { s.sys with
      nv := { s.sys.nv with life := { l with hours := satAt (umax 32) (l.hours + 1), bins := bins } },
      pwr := { s.sys.pwr with bins := [], lastHour := s.sys.pwr.lastHour + 360000000000 } })

/-- PERST_N low for 1 µs, and a loss of VAUX, leave the state of reset but for what is nonvolatile; less than 100 ns leaves
everything. VAUX that rises marks a new power cycle. The release of PERST_N starts a headstock whose boot ROM stage passes, on
the records of its own MRAM, or fails; stage 1 then boots it; a SHDN_REQ_N of 1 µs starts the shutdown, and
the next nanosecond that no command takes up ends it (log 67). -/
def Obligations.PowerEventsComplete : Prop :=
  (∀ (s : State) (ns : Nat), (1000 ≤ ns → exec (.perstNAssert ns) s =
      onward s { State.reset.sys with
        pwr := { State.reset.sys.pwr with vaux := s.sys.pwr.vaux, firstRise := s.sys.pwr.firstRise },
        nv := (mramOf s.sys).1, copy := some (mramOf s.sys).2, own := s.sys.own, free := s.sys.free }) ∧
    (ns < 100 → exec (.perstNAssert ns) s = onward s s.sys)) ∧
  (∀ (s : State), exec .vauxLoss s =
    onward s { State.reset.sys with
      pwr := { State.reset.sys.pwr with vaux := false, firstRise := s.sys.pwr.firstRise },
      nv := (mramOf s.sys).1, copy := some (mramOf s.sys).2, own := s.sys.own, free := s.sys.free }) ∧
  (∀ (s : State), s.sys.pwr.vaux = false →
    exec .vauxRise s = onward s { s.sys with pwr := { s.sys.pwr with vaux := true, firstRise := true } }) ∧
  (∀ (s : State) (hs0 hs1 : HeadTest), s.sys.pwr.phase = .held → s.sys.pwr.vaux = true →
    let a := if hs0.selfTest then bootRom hs0.bad 0 s.sys else none
    let b := if hs1.selfTest then bootRom hs1.bad 1 (a.getD s.sys) else none
    exec (.perstNRelease hs0 hs1) s = onward s {
      b.getD (a.getD s.sys) with
      hs := { s.sys.hs with active := if a.isSome then 0 else 1, standby := if a.isSome && b.isSome then .booting else .absent },
      nv := if a.isSome then (mramOf s.sys).1 else (mramOf s.sys).2,
      copy := some (if a.isSome then (mramOf s.sys).2 else (mramOf s.sys).1),
      pwr := { s.sys.pwr with phase := if a.isSome || b.isSome then .stage1 else .failed, perstLow := false } }) ∧
  (∀ (s : State) (failing badA badB : List Nat), s.sys.pwr.phase = .stage1 → s.sys.pwr.sdSource = 0 →
    exec (.bootStage1 failing badA badB) s =
      onwardAll s (stageOne failing (badA.map (fun t => 2 * t) ++ badB.map (fun t => 2 * t + 1)) (s.perm, s.sys))) ∧
  (∀ (s : State) (ns : Nat), answers s.sys = true → 1000 ≤ ns → exec (.shdnReqN ns) s = onward s (shutDown 2 s.sys)) ∧
  (∀ s : State, s.pending = [] → answers s.sys = true → s.sys.t.sched = [] → s.sys.obs.reads = [] → s.sys.cm.handover = none →
    s.sys.pwr.sdSource ≠ 0 → s.sys.pwr.sdDone = false → ∃ y, step s = onward s y ∧ y.pwr.sdDone = true ∧ y.pwr.pwrdnAck = true ∧
      y.pwr.stopped = true ∧ (ownOf y y.hs.active).clean = true ∧ y.t.timeBase = (s.sys.t.timeBase + 1) % 2 ^ 64)

/-- While VAUX is up the SMBus target answers each code with its bytes, and an alert response with its address, which
releases SMB_ALERT_N. The test access port answers nothing once DEBUG_OFF is blown or VAUX is down; open, boundary scan changes
nothing else, a read of the accumulator files returns the debug view, and any other debug instruction, to which the manual gives
no effect, is refused. -/
def Obligations.SidebandTargetsAnswer : Prop :=
  (∀ (s : State) (d : Nat), s.sys.pwr.vaux = true →
    let answer := fun (b : List Byte) => onward s { s.sys with pin := { s.sys.pin with smbOut := b } }
    let l := s.sys.nv.life
    let die := fun (w : BitVec 16) => answer (if d < 18 then leBytes 2 w.toNat else [])
    exec .smbVersion s = answer (leBytes 1 0x10) ∧
    exec .smbStatus s = answer (leBytes 1 (smbStatusByte s.sys)) ∧
    exec .smbHottestLogic s = answer (leBytes 2 (hottest ((List.range 18).map (fun d => (thermAt s.sys d).logic))).toNat) ∧
    exec .smbHottestDram s = answer (leBytes 2 (hottest ((List.range 18).map (fun d => (thermAt s.sys d).dram))).toNat) ∧
    exec .smbHottestOther s = answer (leBytes 2 (hottest (s.sys.pwr.other.map (fun p => p.2))).toNat) ∧
    exec (.smbDieLogicTemp d) s = die (thermAt s.sys d).logic ∧
    exec (.smbStackTemp d) s = die (thermAt s.sys d).dram ∧
    exec (.smbVcore d) s = die (BitVec.ofNat 16 (mapGet 0 s.sys.pwr.vcore d)) ∧
    exec .smbIdent s = answer (leBytes 8 identReg) ∧
    exec .smbLife s = answer (leBytes 4 l.hours ++ leBytes 4 l.pcycles ++ leBytes 4 l.unclean ++ leBytes 4 l.thermalTrips) ∧
    (s.sys.pwr.smbAlert = true → exec .smbAlertResponse s = onward s { s.sys with
      pwr := { s.sys.pwr with smbAlert := false }, pin := { s.sys.pin with smbOut := leBytes 1 smbAddress } })) ∧
  (∀ (s : State) (i : TapInstr),
    let out := fun (b : List Byte) (y : Sys) => onward s { y with pin := { y.pin with tapOut := b } }
    (2 ≤ s.perm.elements ∨ s.sys.pwr.vaux = false → exec (.testAccessPort i) s = out [] s.sys) ∧
    (s.perm.elements < 2 → s.sys.pwr.vaux = true →
      (i = .boundaryScan → exec (.testAccessPort i) s = out [] s.sys) ∧
      (∀ a, i = .readAccumulator a → inFiles a = false → exec (.testAccessPort i) s = out [] s.sys) ∧
      (∀ a, i = .readAccumulator a → inFiles a = true → exec (.testAccessPort i) s = out (readFile a s.sys).1 (readFile a s.sys).2) ∧
      (∀ k, i = .debug k → exec (.testAccessPort i) s = .refused .tapInstruction)))

/-! ### Reset (R15 to R653, R629 to R631) -/

/-- At reset the registers read as their reset columns say, in every instance that
they have: all but LD.IDENT, SEC.BOOT, and those that show
MRAM and fuses, which a reset keeps. LINK.PORT_STATE shows TWIN at the twin-link ports. No session and no step is open, memory
lists nothing, no command waits, the device is held in PERST_N, and every invariant below holds: the one-way state follows
itself, memory is canonical, the state map legal and the commands in order. -/
def Obligations.ResetRegistersReadAsStated : Prop :=
  let p := State.reset.perm
  let y := State.reset.sys
  (∀ i : Nat, ∀ r ∈ ([(0x01, 0x00, 0x0C610096A2011000), (0x01, 0x01, 0x10123688C08882C0), (0x01, 0x02, 0x1000000000001000), (0x02, 0x00, 0x10000007003F03FF),
      (0x03, 0x01, 0x1000800800000000), (0x04, 0x00, 0x1000000000010000), (0x04, 0x01, 0x1000000000000000), (0x04, 0x02, 0x1000000000000000),
      (0x04, 0x10, 0x1000000000000000), (0x04, 0x11, 0x1000000000000000), (0x04, 0x12, 0x1000000000000000), (0x05, 0x00, 0x1000000000000000),
      (0x05, 0x01, 0x1000000000000000), (0x05, 0x02, 0x100000000001000C), (0x06, 0x00, 0x1000000001000001), (0x07, 0x00, 0x1000000000000000),
      (0x07, 0x01, 0x1000000000000000), (0x08, 0x00, 0x1000000000000000), (0x09, 0x01, 0x1000000000000000), (0x0A, 0x00, 0x1000000000000000),
      (0x0A, 0x01, 0x10000000000003E8), (0x0A, 0x02, 0x1000000000000000), (0x0A, 0x03, 0x1000000000000000), (0x0A, 0x04, 0x1000000000000000),
      (0x0B, 0x00, 0x1000000000000000), (0x0B, 0x01, 0x1000000000000000), (0x0C, 0x00, 0x1000000000000000), (0x0D, 0x00, 0x1000000000000000),
      (0x0D, 0x01, 0x10000000000003E8), (0x0D, 0x02, 0x1000000000000200), (0x0E, 0x00, 0x1000000000000000), (0x0E, 0x01, 0x1000000000000000),
      (0x0F, 0x00, 0x1000000000000000), (0x0F, 0x01, 0x1000000003E80001), (0x0F, 0x02, 0x1000000000000000), (0x10, 0x00, 0x1000019000000000),
      (0x10, 0x01, 0x1000000000000000), (0x10, 0x02, 0x1000000000000000), (0x11, 0x00, 0x1000000000000002), (0x11, 0x01, 0x1000000000000000),
      (0x11, 0x02, 0x1000000000000000), (0x11, 0x03, 0x1000000000000000), (0x12, 0x00, 0x1000000000000000), (0x12, 0x01, 0x1000000000000000),
      (0x12, 0x02, 0x1000000000000000), (0x12, 0x03, 0x1000000000000000), (0x12, 0x04, 0x1000000000000000),
      (0x14, 0x02, 0x1000000000000000),
      (0x15, 0x00, 0x1000005A00640000), (0x15, 0x01, 0x1000800080000000), (0x15, 0x02, 0x1000000000000000)] :
      List (Nat × Nat × Nat)), ∀ k, regKind r.1 r.2.1 = some k → i ∈ instances k → (regValue p y r.1 r.2.1 i).toNat = r.2.2) ∧
  (∀ w : Nat, (regValue p y 0x09 0x00 w).toNat = 0x1000000000000000 + (if w = 7 ∨ w = 31 ∨ w = 39 ∨ w = 63 then 0x10000 else 0)) ∧
  onlyForward p p ∧ memoryWf y.mem ∧ mapLegal y ∧ cmdsInOrder y ∧ y.mem.cells = [] ∧ State.reset.pending = [] ∧ y.pwr.phase = .held ∧
  y.trd.state = .none ∧ y.svc.state = .none ∧ y.stp.state = .idle

/-! ### What a step can do at all -/

/-- Every command answers a next state but three: DRAM_READ and DRAM_WRITE of a granule that does not exist, and a debug
instruction that an open test access port receives. -/
def Obligations.StopsAreNamed : Prop :=
  ∀ (i : Instr) (s : State), (∃ t, exec i s = .next t) ∨
    ((∃ g, ((∃ a k, i = .dramRead g a k) ∨ ∃ m d, i = .dramWrite g m d) ∧ dramEnd ≤ g * 64) ∧ exec i s = .fault .noSuchAddress) ∨
    ((∃ k, i = .testAccessPort (.debug k)) ∧ s.perm.elements < 2 ∧ s.sys.pwr.vaux = true ∧ exec i s = .refused .tapInstruction)

/-- No command moves the queue, and only eight move the one-way state: LINK_RESET, FUSE_DEBUG_OFF and the events that activate
an image, end a test of a position or a retraining, or boot. -/
def Obligations.QueueAndOneWayStateStay : Prop :=
  ∀ (i : Instr) (s t : State), exec i s = .next t → t.pending = s.pending ∧ (movesOneWay i = false → t.perm = s.perm)

/-- The one-way state follows itself over every step: no fuse element is restored, a revoked key stays revoked and a failed
position failed, and no SVN floor falls. -/
def Obligations.OneWayStateIsKept : Prop :=
  ∀ (p : Perm) (s t : State), onlyForward p s.perm → step s = .next t → onlyForward p t.perm

/-- Memory stays in canonical form over every step: addresses rise strictly, and no byte is listed that reads so unlisted. -/
def Obligations.MemoryStaysCanonical : Prop := ∀ s t : State, memoryWf s.sys.mem → step s = .next t → memoryWf t.sys.mem

/-- The state map stays legal over every step: the ranges of its entries stay aligned, each entry in one stack, and disjoint,
and SEL is 0 in a LOADING entry. -/
def Obligations.StateMapStaysLegal : Prop := ∀ s t : State, mapLegal s.sys → step s = .next t → mapLegal t.sys

/-- Over every step each command keeps an identity of its own, in the order of reading, and one that waits for its unit has
written nothing. -/
def Obligations.CommandsStayInOrder : Prop := ∀ s t : State, cmdsInOrder s.sys → step s = .next t → cmdsInOrder t.sys

/-- A commit that starts toggles SEL of every ACTIVE entry at once and clears its BACK_WRITTEN and digest, sets LAST_COMMIT to
the open step and UNDO_VALID, and returns the device to IDLE; an undo toggles SEL back, clears BACK_WRITTEN and digest of every
entry, takes LAST_COMMIT back by one and clears UNDO_VALID and ABORT_PENDING. No other command, and no passing of time, changes
SEL of an ACTIVE entry that stays ACTIVE. A commit or undo writes no bytes of its own. -/
def Obligations.OnlyCommitAndUndoFlipTheBanks : Prop :=
  (∀ (s : State) (id : Nat) (c : Cmd), isUp s.sys = true → s.sys.cm.commitWait = some id → findCmd s.sys id = some c →
    c.phase = .running → c.wrote = [] → commitAlone id s.sys = true →
    ∃ y, exec .commitStart s = onward s y ∧ (∀ k, (entryAt y k).state = (entryAt s.sys k).state ∧
      (entryAt y k).sel = if (entryAt s.sys k).state = .active then !(entryAt s.sys k).sel else (entryAt s.sys k).sel) ∧
      (c.op = 0x0602 → (∀ k, (entryAt s.sys k).state = .active → (entryAt y k).backWritten = false ∧ (entryAt y k).digest = 0) ∧
        y.stp.state = .idle ∧ y.stp.lastCommit = openStep s.sys ∧ y.stp.undoValid = true) ∧
      (c.op ≠ 0x0602 → (∀ k, (entryAt y k).backWritten = false ∧ (entryAt y k).digest = 0) ∧
        y.stp.lastCommit = s.sys.stp.lastCommit - 1 ∧ y.stp.undoValid = false ∧ y.stp.abortPending = false)) ∧
  (∀ (s t : State) (k : Nat), mapLegal s.sys → step s = .next t → (∀ i, s.pending.head? = some i → flipsBanks i = false) →
    (entryAt s.sys k).state = .active → (entryAt t.sys k).state = .active → (entryAt t.sys k).sel = (entryAt s.sys k).sel)

/-- A packet that a general check refuses, or whose version differs, changes nothing but the list of commands, where the command
stands done, with the refusal's status and no result, until its reply. -/
def Obligations.RefusalHasNoEffect : Prop :=
  ∀ (op : Nat) (layout : List Nat) (bad : Packet → Bool) (ready : Cmd → Sys → Bool)
    (check : Cmd → Sys → Option (Status × List Word64)) (effect : Cmd → Sys → Sys) (pk : Packet) (y z : Sys) (c : Cmd) (st : Status),
    cmdsInOrder y → atUnit op pk y = some (z, c) →
    (pk.version ≠ 0x10 ∧ st = .versionMismatch ∨ pk.version = 0x10 ∧ verdict z op layout (bad pk) c = .refuse st) →
    let w := execCommand op layout bad ready check effect pk y
    { w with cm := y.cm } = y ∧ ∃ d ∈ w.cm.cmds, d.id = c.id ∧ d.pkt = pk ∧ d.phase = .done st []

/-! ### Exact sums, stamps, memory -/

/-- The content of a beam element is the sum of its terms, and an exact tile is the same whatever the order in which
contributions arrive and however their terms are divided among commands. -/
def Obligations.ExactSumsAreOrderFree : Prop :=
  (∀ (e : BeamElem) (ts : List Term), (ts.foldl addTerm e).sum = e.sum + BitVec.ofInt 288 (ts.map (fun t => t.t)).sum) ∧
  (∀ (x : ExactTile) (l m : List (List (List Term))), l.Perm m →
    l.foldl (fun x ts => tileAdd ts x) x = m.foldl (fun x ts => tileAdd ts x) x) ∧
  (∀ (x : ExactTile) (ts us : List (List Term)), ts.length = us.length →
    tileAdd us (tileAdd ts x) = tileAdd (List.zipWith (fun a b => a ++ b) ts us) x)

/-- GF64 addition is addition modulo 2^64, element by element, and the sum of any list of partials is the same in every order. -/
def Obligations.GridSumsAreOrderFree : Prop :=
  (∀ (a b : List Nat) (i : Nat), i < a.length → i < b.length → (sum64 a b)[i]? = some ((a.getD i 0 + b.getD i 0) % 2 ^ 64)) ∧
  (∀ (a : List Nat) (l m : List (List Nat)), l.Perm m → l.foldl sum64 a = m.foldl sum64 a)

/-- Stamps compare by pick first and then by subpick; a saturated stamp has the largest subpick. -/
def Obligations.StampsComparePickFirst : Prop :=
  (∀ a b : Stamp, stampLt a b = true ↔ a.pick < b.pick ∨ (a.pick = b.pick ∧ a.sub < b.sub)) ∧
  (∀ y : Sys, (stampNow y).sat = true → (stampNow y).sub = 2 ^ 24 - 1)

/-- The completion stamps of a lane never decrease. -/
def Obligations.CompletionStampsNeverFall : Prop :=
  ∀ (c : Cmd) (st : Status) (res : List Word64) (y : Sys),
    let k := laneKey c.creel c.lane
    stampLt (laneAt (complete c st res y) k).last (laneAt y k).last = false

/-- In a legal state map, as every step keeps it, an address in a face range of a LOADING or ACTIVE entry reaches that range or
the back range as SEL says, one in its back range the other copy, and one that no entry holds itself; a command that began
before its entry was freed keeps the copies that it began with. -/
def Obligations.TranslationReachesACopy : Prop :=
  (∀ (y : Sys) (e : Entry) (k o : Nat), mapLegal y → y.smap.view = [] → (k, e) ∈ y.smap.entries → e.state ≠ .free → o < e.length →
    translateAddr y (e.face + o) = (if e.sel then e.back + o else e.face + o) ∧
    translateAddr y (e.back + o) = (if e.sel then e.face + o else e.back + o)) ∧
  (∀ (y : Sys) (a : Nat), y.smap.view = [] →
    (∀ p ∈ y.smap.entries, p.2.state ≠ .free → overlap a 1 p.2.face p.2.length = false ∧ overlap a 1 p.2.back p.2.length = false) →
    translateAddr y a = a) ∧
  (∀ (y : Sys) (c : Cmd) (e : Entry) (o : Nat), c.phase = .running → c ∈ y.cm.cmds → e.sel = true → o < e.length →
    ∃ d ∈ (keepView e y).cm.cmds, d.id = c.id ∧ ∀ x : Sys,
      translateAddr (viewed d x) (e.face + o) = e.back + o ∧
      (overlap (e.back + o) 1 e.face e.length = false → translateAddr (viewed d x) (e.back + o) = e.face + o))

/-- A write of bytes stores byte i at its physical address: every address that reads elsewhere reads as before, and where no
granule is poisoned and no word marked, a byte that no other byte of the write falls on reads back. -/
def Obligations.WritesStoreTheirBytes : Prop :=
  ∀ (y : Sys) (id : Option Nat) (a : Nat) (bs : List Byte),
    (∀ x, (∀ i < bs.length, storedAt y a i ≠ translateAddr y x) → readByte (writeBytes id a bs y) x = readByte y x) ∧
    (y.mem.poison = [] → y.mem.badWords = [] → ∀ i < bs.length, (∀ j < bs.length, j ≠ i → storedAt y a j ≠ storedAt y a i) →
      ∀ x, translateAddr y x = storedAt y a i → some (readByte (writeBytes id a bs y) x) = bs[i]?)
end

