-- ==== Sys2Proof/Laws/Commands.lean ====
section
/-! SUPPORT. What the shared operations of a command can do: meeting its unit, being taken up, being refused, finishing. -/

namespace Sys2Proof.Laws

open Sys2Proof Sys2Proof.Machine Sys2Proof.Safety

/-- Reading a packet from its lane changes the list of commands and nothing else. -/
theorem atUnit_cm {op : Nat} {pk : Packet} {y z : Sys} {c : Cmd} (h : atUnit op pk y = some (z, c)) :
    z = { y with cm := z.cm } := by
  unfold atUnit at h
  split at h
  · split at h
    · cases h; rfl
    · cases h
  · simp only at h
    split at h
    · obtain ⟨c', _, hc⟩ := Option.map_eq_some_iff.mp h
      cases hc; rfl
    · cases h

/-- The command that meets its unit is of the packet's opcode and holds the packet. -/
theorem atUnit_packet {op : Nat} {pk : Packet} {y z : Sys} {c : Cmd} (h : atUnit op pk y = some (z, c)) :
    c.op = op ∧ c.pkt = pk := by
  unfold atUnit at h
  split at h
  · rename_i hf
    have hp := List.find?_some hf
    simp only [Bool.and_eq_true, beq_iff_eq] at hp
    split at h
    · cases h; exact hp.1
    · cases h
  · simp only [newCmd, List.getLast?_append, List.getLast?_singleton, Option.some_or, Option.map_some] at h
    split at h
    · cases h; split <;> exact ⟨rfl, rfl⟩
    · cases h

/-- A trace record changes trace buffers and nothing else. -/
theorem traceRec_units (u typ : Nat) (s : Stamp) (code tag status creel lane arg : Nat) (y : Sys) :
    traceRec u typ s code tag status creel lane arg y =
      { y with obs := { y.obs with units := (traceRec u typ s code tag status creel lane arg y).obs.units } } := by
  generalize hz : traceRec u typ s code tag status creel lane arg y = z
  unfold traceRec at hz
  dsimp only at hz
  split at hz <;> (subst hz; rfl)

/-- Taking a command up changes the list of commands and the trace buffers. -/
theorem accept_frame (c : Cmd) (shadow : Bool) (y : Sys) :
    accept c shadow y = { y with cm := (accept c shadow y).cm, obs := { y.obs with units := (accept c shadow y).obs.units } } := by
  unfold accept
  rw [traceRec_units]
  rfl

/-- A packet that meets its unit is taken up in a state that differs in the list of commands and the trace buffers. -/
theorem taken_frame {op : Nat} {layout : List Nat} {bad : Bool} {pk : Packet} {s : State} {z : Sys} {c : Cmd}
    (h : Meets op layout bad pk s z c) :
    taken c z = { s.sys with cm := (taken c z).cm, obs := { s.sys.obs with units := (taken c z).obs.units } } := by
  obtain ⟨d, sh, ha, _, _, rfl⟩ := h
  have hz := atUnit_cm ha
  unfold taken
  rw [accept_frame]
  rw [hz]

/-- The state in which a packet met its unit differs in the list of commands. -/
theorem meets_cm {op : Nat} {layout : List Nat} {bad : Bool} {pk : Packet} {s : State} {z : Sys} {c : Cmd}
    (h : Meets op layout bad pk s z c) : z = { s.sys with cm := z.cm } := by
  obtain ⟨d, sh, ha, _, _, rfl⟩ := h
  exact atUnit_cm ha

/-- The command of a packet that meets its unit is of the packet's opcode and holds the packet. -/
theorem meets_packet {op : Nat} {layout : List Nat} {bad : Bool} {pk : Packet} {s : State} {z : Sys} {c : Cmd}
    (h : Meets op layout bad pk s z c) : c.op = op ∧ c.pkt = pk := by
  obtain ⟨d, sh, ha, _, _, rfl⟩ := h
  have hd := atUnit_packet ha
  exact hd

/-- A packet that meets its unit, which is ready and finds no fault with it, is taken up. -/
theorem meetUnit_go {op : Nat} {layout : List Nat} {bad : Packet → Bool} {pk : Packet} {s : State} {z : Sys} {c : Cmd}
    {ready : Cmd → Sys → Bool} {check : Cmd → Sys → Option (Status × List Word64)}
    (h : Meets op layout (bad pk) pk s z c) (hr : ready c z = true) (hc : check c z = none) :
    meetUnit op layout bad ready check pk s.sys = (taken c z, some c) := by
  obtain ⟨d, sh, ha, hv, hg, rfl⟩ := h
  unfold meetUnit
  rw [ha]
  simp only
  rw [if_neg (by simp [hv])]
  rw [hg]
  simp only
  rw [if_pos (by simp [hr])]
  rw [hc]
  rfl

/-- The same with the effect of the command. -/
theorem execCommand_go {op : Nat} {layout : List Nat} {bad : Packet → Bool} {pk : Packet} {s : State} {z : Sys} {c : Cmd}
    {ready : Cmd → Sys → Bool} {check : Cmd → Sys → Option (Status × List Word64)} {effect : Cmd → Sys → Sys}
    (h : Meets op layout (bad pk) pk s z c) (hr : ready c z = true) (hc : check c z = none) :
    execCommand op layout bad ready check effect pk s.sys = effect c (taken c z) := by
  unfold execCommand
  rw [meetUnit_go h hr hc]

/-- A packet that its unit refuses finishes with the status and has no other effect. -/
theorem execCommand_refuse {op : Nat} {layout : List Nat} {bad : Packet → Bool} {pk : Packet} {s : State} {z : Sys} {c : Cmd}
    {ready : Cmd → Sys → Bool} {check : Cmd → Sys → Option (Status × List Word64)} {effect : Cmd → Sys → Sys}
    {st : Status} {res : List Word64}
    (h : Meets op layout (bad pk) pk s z c) (hr : ready c z = true) (hc : check c z = some (st, res)) :
    execCommand op layout bad ready check effect pk s.sys = finish c.id st res z := by
  obtain ⟨d, sh, ha, hv, hg, rfl⟩ := h
  unfold execCommand meetUnit
  rw [ha]
  simp only
  rw [if_neg (by simp [hv])]
  rw [hg]
  simp only
  rw [if_pos (by simp [hr])]
  rw [hc]

/-- A meaning that changes neither the queue nor the one-way state. -/
theorem onSys_eq {s : State} {f : Perm → Sys → Sys} {y : Sys} (h : f s.perm s.sys = y) : onSys s f = onward s y := by
  subst h; rfl

/-- A meaning that may move the one-way state. -/
theorem onAll_eq {s : State} {f : Perm → Sys → Perm × Sys} {x : Perm × Sys} (h : f s.perm s.sys = x) :
    onAll s f = onwardAll s x := by
  subst h; rfl

/-! ### Fields of the state in which a packet met its unit, and in which its command was taken up -/

section
variable {op : Nat} {layout : List Nat} {bad : Bool} {pk : Packet} {s : State} {z : Sys} {c : Cmd}

theorem meets_t (h : Meets op layout bad pk s z c) : z.t = s.sys.t := by
  have e := congrArg Sys.t (meets_cm h)
  exact e
theorem meets_hs (h : Meets op layout bad pk s z c) : z.hs = s.sys.hs := by
  have e := congrArg Sys.hs (meets_cm h)
  exact e
theorem meets_pwr (h : Meets op layout bad pk s z c) : z.pwr = s.sys.pwr := by
  have e := congrArg Sys.pwr (meets_cm h)
  exact e
theorem meets_pin (h : Meets op layout bad pk s z c) : z.pin = s.sys.pin := by
  have e := congrArg Sys.pin (meets_cm h)
  exact e
theorem meets_trd (h : Meets op layout bad pk s z c) : z.trd = s.sys.trd := by
  have e := congrArg Sys.trd (meets_cm h)
  exact e
theorem meets_svc (h : Meets op layout bad pk s z c) : z.svc = s.sys.svc := by
  have e := congrArg Sys.svc (meets_cm h)
  exact e
theorem meets_cr (h : Meets op layout bad pk s z c) : z.cr = s.sys.cr := by
  have e := congrArg Sys.cr (meets_cm h)
  exact e
theorem meets_lck (h : Meets op layout bad pk s z c) : z.lck = s.sys.lck := by
  have e := congrArg Sys.lck (meets_cm h)
  exact e
theorem meets_mem (h : Meets op layout bad pk s z c) : z.mem = s.sys.mem := by
  have e := congrArg Sys.mem (meets_cm h)
  exact e
theorem meets_arb (h : Meets op layout bad pk s z c) : z.arb = s.sys.arb := by
  have e := congrArg Sys.arb (meets_cm h)
  exact e
theorem meets_eng (h : Meets op layout bad pk s z c) : z.eng = s.sys.eng := by
  have e := congrArg Sys.eng (meets_cm h)
  exact e
theorem meets_yarn (h : Meets op layout bad pk s z c) : z.yarn = s.sys.yarn := by
  have e := congrArg Sys.yarn (meets_cm h)
  exact e
theorem meets_acc (h : Meets op layout bad pk s z c) : z.acc = s.sys.acc := by
  have e := congrArg Sys.acc (meets_cm h)
  exact e
theorem meets_vec (h : Meets op layout bad pk s z c) : z.vec = s.sys.vec := by
  have e := congrArg Sys.vec (meets_cm h)
  exact e
theorem meets_upd (h : Meets op layout bad pk s z c) : z.upd = s.sys.upd := by
  have e := congrArg Sys.upd (meets_cm h)
  exact e
theorem meets_smap (h : Meets op layout bad pk s z c) : z.smap = s.sys.smap := by
  have e := congrArg Sys.smap (meets_cm h)
  exact e
theorem meets_cen (h : Meets op layout bad pk s z c) : z.cen = s.sys.cen := by
  have e := congrArg Sys.cen (meets_cm h)
  exact e
theorem meets_lnk (h : Meets op layout bad pk s z c) : z.lnk = s.sys.lnk := by
  have e := congrArg Sys.lnk (meets_cm h)
  exact e
theorem meets_coll (h : Meets op layout bad pk s z c) : z.coll = s.sys.coll := by
  have e := congrArg Sys.coll (meets_cm h)
  exact e
theorem meets_stp (h : Meets op layout bad pk s z c) : z.stp = s.sys.stp := by
  have e := congrArg Sys.stp (meets_cm h)
  exact e
theorem meets_bur (h : Meets op layout bad pk s z c) : z.bur = s.sys.bur := by
  have e := congrArg Sys.bur (meets_cm h)
  exact e
theorem meets_nv (h : Meets op layout bad pk s z c) : z.nv = s.sys.nv := by
  have e := congrArg Sys.nv (meets_cm h)
  exact e
theorem meets_sec (h : Meets op layout bad pk s z c) : z.sec = s.sys.sec := by
  have e := congrArg Sys.sec (meets_cm h)
  exact e
theorem meets_free (h : Meets op layout bad pk s z c) : z.free = s.sys.free := by
  have e := congrArg Sys.free (meets_cm h)
  exact e
theorem meets_obs (h : Meets op layout bad pk s z c) : z.obs = s.sys.obs := by
  have e := congrArg Sys.obs (meets_cm h)
  exact e

theorem taken_t (h : Meets op layout bad pk s z c) : (taken c z).t = s.sys.t := by
  have e := congrArg Sys.t (taken_frame h)
  exact e
theorem taken_hs (h : Meets op layout bad pk s z c) : (taken c z).hs = s.sys.hs := by
  have e := congrArg Sys.hs (taken_frame h)
  exact e
theorem taken_pwr (h : Meets op layout bad pk s z c) : (taken c z).pwr = s.sys.pwr := by
  have e := congrArg Sys.pwr (taken_frame h)
  exact e
theorem taken_pin (h : Meets op layout bad pk s z c) : (taken c z).pin = s.sys.pin := by
  have e := congrArg Sys.pin (taken_frame h)
  exact e
theorem taken_trd (h : Meets op layout bad pk s z c) : (taken c z).trd = s.sys.trd := by
  have e := congrArg Sys.trd (taken_frame h)
  exact e
theorem taken_svc (h : Meets op layout bad pk s z c) : (taken c z).svc = s.sys.svc := by
  have e := congrArg Sys.svc (taken_frame h)
  exact e
theorem taken_cr (h : Meets op layout bad pk s z c) : (taken c z).cr = s.sys.cr := by
  have e := congrArg Sys.cr (taken_frame h)
  exact e
theorem taken_lck (h : Meets op layout bad pk s z c) : (taken c z).lck = s.sys.lck := by
  have e := congrArg Sys.lck (taken_frame h)
  exact e
theorem taken_mem (h : Meets op layout bad pk s z c) : (taken c z).mem = s.sys.mem := by
  have e := congrArg Sys.mem (taken_frame h)
  exact e
theorem taken_arb (h : Meets op layout bad pk s z c) : (taken c z).arb = s.sys.arb := by
  have e := congrArg Sys.arb (taken_frame h)
  exact e
theorem taken_eng (h : Meets op layout bad pk s z c) : (taken c z).eng = s.sys.eng := by
  have e := congrArg Sys.eng (taken_frame h)
  exact e
theorem taken_yarn (h : Meets op layout bad pk s z c) : (taken c z).yarn = s.sys.yarn := by
  have e := congrArg Sys.yarn (taken_frame h)
  exact e
theorem taken_acc (h : Meets op layout bad pk s z c) : (taken c z).acc = s.sys.acc := by
  have e := congrArg Sys.acc (taken_frame h)
  exact e
theorem taken_vec (h : Meets op layout bad pk s z c) : (taken c z).vec = s.sys.vec := by
  have e := congrArg Sys.vec (taken_frame h)
  exact e
theorem taken_upd (h : Meets op layout bad pk s z c) : (taken c z).upd = s.sys.upd := by
  have e := congrArg Sys.upd (taken_frame h)
  exact e
theorem taken_smap (h : Meets op layout bad pk s z c) : (taken c z).smap = s.sys.smap := by
  have e := congrArg Sys.smap (taken_frame h)
  exact e
theorem taken_cen (h : Meets op layout bad pk s z c) : (taken c z).cen = s.sys.cen := by
  have e := congrArg Sys.cen (taken_frame h)
  exact e
theorem taken_lnk (h : Meets op layout bad pk s z c) : (taken c z).lnk = s.sys.lnk := by
  have e := congrArg Sys.lnk (taken_frame h)
  exact e
theorem taken_coll (h : Meets op layout bad pk s z c) : (taken c z).coll = s.sys.coll := by
  have e := congrArg Sys.coll (taken_frame h)
  exact e
theorem taken_stp (h : Meets op layout bad pk s z c) : (taken c z).stp = s.sys.stp := by
  have e := congrArg Sys.stp (taken_frame h)
  exact e
theorem taken_bur (h : Meets op layout bad pk s z c) : (taken c z).bur = s.sys.bur := by
  have e := congrArg Sys.bur (taken_frame h)
  exact e
theorem taken_nv (h : Meets op layout bad pk s z c) : (taken c z).nv = s.sys.nv := by
  have e := congrArg Sys.nv (taken_frame h)
  exact e
theorem taken_sec (h : Meets op layout bad pk s z c) : (taken c z).sec = s.sys.sec := by
  have e := congrArg Sys.sec (taken_frame h)
  exact e
theorem taken_free (h : Meets op layout bad pk s z c) : (taken c z).free = s.sys.free := by
  have e := congrArg Sys.free (taken_frame h)
  exact e
theorem taken_trace (h : Meets op layout bad pk s z c) : (taken c z).obs.trace = s.sys.obs.trace := by
  have e := congrArg (fun y : Sys => y.obs.trace) (taken_frame h)
  exact e
theorem taken_watch (h : Meets op layout bad pk s z c) : (taken c z).obs.watch = s.sys.obs.watch := by
  have e := congrArg (fun y : Sys => y.obs.watch) (taken_frame h)
  exact e
theorem taken_sets (h : Meets op layout bad pk s z c) : (taken c z).obs.sets = s.sys.obs.sets := by
  have e := congrArg (fun y : Sys => y.obs.sets) (taken_frame h)
  exact e

end

end Sys2Proof.Laws
end

