-- ==== Sys2Proof/Laws/Map.lean ====
section
/-! SUPPORT. Sparse data: reading after writing, and the canonical form. -/

namespace Sys2Proof.Laws

open Sys2Proof Sys2Proof.Machine

variable {α : Type}

/-! ### Reading after writing, for every list of entries -/

@[simp] theorem mapFind_put (m : SMap α) (x k : Nat) (v : α) : mapFind (mapPut m x v) k = if k = x then some v else mapFind m k := by
  induction m with
  | nil => simp [mapPut, mapFind]
  | cons p r ih =>
    obtain ⟨j, u⟩ := p
    by_cases h1 : x < j
    · by_cases h : k = x <;> simp [mapPut, h1, mapFind, h]
    · by_cases h2 : x = j
      · subst h2; by_cases h : k = x <;> simp [mapPut, mapFind, h]
      · simp only [mapPut, h1, if_false, h2, mapFind, ih]
        by_cases h3 : k = j
        · subst h3; simp [Ne.symm h2]
        · simp [h3]

@[simp] theorem mapFind_del (m : SMap α) (x k : Nat) : mapFind (mapDel m x) k = if k = x then none else mapFind m k := by
  induction m with
  | nil => simp [mapDel, mapFind]
  | cons p r ih =>
    obtain ⟨j, u⟩ := p
    unfold mapDel at ih ⊢
    by_cases h1 : j = x
    · subst h1
      by_cases h : k = j
      · subst h; simpa [List.filter_cons] using ih
      · simpa [List.filter_cons, mapFind, h] using ih
    · by_cases h : k = j
      · subst h; simp [mapFind, h1]
      · simpa [List.filter_cons, mapFind, h1, h] using ih

/-- The entry of a key, as its default where it is not listed. -/
theorem mapGet_find (d : α) (m : SMap α) (k : Nat) : mapGet d m k = (mapFind m k).getD d := by
  induction m with
  | nil => rfl
  | cons p r ih =>
    obtain ⟨j, u⟩ := p
    by_cases h : k = j <;> simp [mapGet, mapFind, h, ih]

@[simp] theorem mapGet_put (d : α) (m : SMap α) (x k : Nat) (v : α) : mapGet d (mapPut m x v) k = if k = x then v else mapGet d m k := by
  rw [mapGet_find, mapFind_put, mapGet_find]
  split <;> rfl

@[simp] theorem mapGet_set [DecidableEq α] (d : α) (m : SMap α) (x k : Nat) (v : α) :
    mapGet d (mapSet d m x v) k = if k = x then v else mapGet d m k := by
  rw [mapGet_find, mapGet_find]
  unfold mapSet
  split
  · next h => subst h; rw [mapFind_del]; split <;> rfl
  · rw [mapFind_put]; split <;> rfl

@[simp] theorem mapGet_mod [DecidableEq α] (d : α) (m : SMap α) (x k : Nat) (f : α → α) :
    mapGet d (mapMod d m x f) k = if k = x then f (mapGet d m x) else mapGet d m k := mapGet_set d m x k _

/-! ### The canonical form -/

theorem mapAbove_mono {a b : Nat} (h : a ≤ b) : ∀ m : SMap α, mapAbove b m = true → mapAbove a m = true
  | [], _ => rfl
  | (k, _) :: r, hm => by
    simp only [mapAbove, Bool.and_eq_true, Nat.blt_eq] at hm ⊢
    exact ⟨by omega, hm.2⟩

theorem mapAbove_put : ∀ (m : SMap α) (b x : Nat) (v : α), b < x → mapAbove b m = true → mapAbove b (mapPut m x v) = true
  | [], b, x, v, h, _ => by simp [mapPut, mapAbove, h]
  | (k, u) :: r, b, x, v, h, hm => by
    simp only [mapAbove, Bool.and_eq_true, Nat.blt_eq] at hm
    unfold mapPut
    split
    · next h1 => simp [mapAbove, h, h1, hm.2]
    · split
      · next h2 => subst h2; simp [mapAbove, h, hm.2]
      · next h1 h2 => simp [mapAbove, hm.1, mapAbove_put r k x v (by omega) hm.2]

theorem mapAbove_filter (t : Nat × α → Bool) : ∀ (m : SMap α) (b : Nat), mapAbove b m = true → mapAbove b (m.filter t) = true
  | [], _, _ => rfl
  | (k, u) :: r, b, hm => by
    simp only [mapAbove, Bool.and_eq_true, Nat.blt_eq] at hm
    rw [List.filter_cons]
    split
    · simp [mapAbove, hm.1, mapAbove_filter t r k hm.2]
    · exact mapAbove_mono (by omega) _ (mapAbove_filter t r k hm.2)

theorem mapRising_of_above {b : Nat} {m : SMap α} (h : mapAbove b m = true) : mapRising m = true := by
  cases m with
  | nil => rfl
  | cons p r => simp only [mapAbove, Bool.and_eq_true] at h; exact h.2

/-- Inserting an entry keeps the keys rising. -/
theorem mapRising_put (m : SMap α) (x : Nat) (v : α) (h : mapRising m = true) : mapRising (mapPut m x v) = true := by
  cases m with
  | nil => rfl
  | cons p r =>
    obtain ⟨k, u⟩ := p
    unfold mapPut
    split
    · next h1 =>
      change mapAbove x ((k, u) :: r) = true
      simp only [mapAbove, Bool.and_eq_true, Nat.blt_eq]
      exact ⟨h1, h⟩
    · split
      · next h2 => subst h2; exact h
      · next h1 h2 => exact mapAbove_put r k x v (by omega) h

/-- Leaving entries out keeps the keys rising. -/
theorem mapRising_filter (t : Nat × α → Bool) (m : SMap α) (h : mapRising m = true) : mapRising (m.filter t) = true := by
  cases m with
  | nil => rfl
  | cons p r =>
    rw [List.filter_cons]
    split
    · exact mapAbove_filter t r p.1 h
    · exact mapRising_of_above (mapAbove_filter t r p.1 h)

/-- Writing an entry keeps the keys rising. -/
theorem mapRising_set [DecidableEq α] (d : α) (m : SMap α) (x : Nat) (v : α) (h : mapRising m = true) :
    mapRising (mapSet d m x v) = true := by
  unfold mapSet
  split
  · exact mapRising_filter _ m h
  · exact mapRising_put m x v h

theorem mem_put {m : SMap α} {x : Nat} {v : α} {p : Nat × α} (h : p ∈ mapPut m x v) : p = (x, v) ∨ p ∈ m := by
  induction m with
  | nil => simpa [mapPut] using h
  | cons q r ih =>
    obtain ⟨k, u⟩ := q
    unfold mapPut at h
    split at h
    · simpa using h
    · split at h
      · simp only [List.mem_cons] at h ⊢
        rcases h with h | h
        · exact .inl h
        · exact .inr (.inr h)
      · simp only [List.mem_cons] at h ⊢
        rcases h with h | h
        · exact .inr (.inl h)
        · rcases ih h with h | h
          · exact .inl h
          · exact .inr (.inr h)

/-- Writing keeps the canonical form. -/
theorem mapWf_set [DecidableEq α] (d : α) (m : SMap α) (x : Nat) (v : α) (h : mapWf d m = true) : mapWf d (mapSet d m x v) = true := by
  simp only [mapWf, Bool.and_eq_true, mapNoDefault, List.all_eq_true, decide_eq_true_eq] at h ⊢
  refine ⟨mapRising_set d m x v h.1, ?_⟩
  intro p hp
  unfold mapSet at hp
  split at hp
  · exact h.2 p (List.mem_filter.mp hp).1
  · next hv =>
    rcases mem_put hp with rfl | hp
    · exact hv
    · exact h.2 p hp

end Sys2Proof.Laws
end

