-- ==== Sys2Proof/Laws/State.lean ====
section
/-! SUPPORT. The fields of the state under each update: what an update leaves as it was. -/

namespace Sys2Proof.Laws

open Sys2Proof Sys2Proof.Machine

section

variable (y : Sys)

/-! An update of a lane. -/
@[simp] theorem setLane_t (k : Nat) (l : Lane) : (setLane k l y).t = y.t := rfl
@[simp] theorem setLane_hs (k : Nat) (l : Lane) : (setLane k l y).hs = y.hs := rfl
@[simp] theorem setLane_pwr (k : Nat) (l : Lane) : (setLane k l y).pwr = y.pwr := rfl
@[simp] theorem setLane_pin (k : Nat) (l : Lane) : (setLane k l y).pin = y.pin := rfl
@[simp] theorem setLane_trd (k : Nat) (l : Lane) : (setLane k l y).trd = y.trd := rfl
@[simp] theorem setLane_svc (k : Nat) (l : Lane) : (setLane k l y).svc = y.svc := rfl
@[simp] theorem setLane_cr (k : Nat) (l : Lane) : (setLane k l y).cr = { y.cr with lanes := mapSet {} y.cr.lanes k l } := rfl
@[simp] theorem setLane_cm (k : Nat) (l : Lane) : (setLane k l y).cm = y.cm := rfl
@[simp] theorem setLane_lck (k : Nat) (l : Lane) : (setLane k l y).lck = y.lck := rfl
@[simp] theorem setLane_mem (k : Nat) (l : Lane) : (setLane k l y).mem = y.mem := rfl
@[simp] theorem setLane_arb (k : Nat) (l : Lane) : (setLane k l y).arb = y.arb := rfl
@[simp] theorem setLane_eng (k : Nat) (l : Lane) : (setLane k l y).eng = y.eng := rfl
@[simp] theorem setLane_yarn (k : Nat) (l : Lane) : (setLane k l y).yarn = y.yarn := rfl
@[simp] theorem setLane_acc (k : Nat) (l : Lane) : (setLane k l y).acc = y.acc := rfl
@[simp] theorem setLane_vec (k : Nat) (l : Lane) : (setLane k l y).vec = y.vec := rfl
@[simp] theorem setLane_upd (k : Nat) (l : Lane) : (setLane k l y).upd = y.upd := rfl
@[simp] theorem setLane_smap (k : Nat) (l : Lane) : (setLane k l y).smap = y.smap := rfl
@[simp] theorem setLane_cen (k : Nat) (l : Lane) : (setLane k l y).cen = y.cen := rfl
@[simp] theorem setLane_lnk (k : Nat) (l : Lane) : (setLane k l y).lnk = y.lnk := rfl
@[simp] theorem setLane_coll (k : Nat) (l : Lane) : (setLane k l y).coll = y.coll := rfl
@[simp] theorem setLane_stp (k : Nat) (l : Lane) : (setLane k l y).stp = y.stp := rfl
@[simp] theorem setLane_bur (k : Nat) (l : Lane) : (setLane k l y).bur = y.bur := rfl
@[simp] theorem setLane_nv (k : Nat) (l : Lane) : (setLane k l y).nv = y.nv := rfl
@[simp] theorem setLane_copy (k : Nat) (l : Lane) : (setLane k l y).copy = y.copy := rfl
@[simp] theorem setLane_own (k : Nat) (l : Lane) : (setLane k l y).own = y.own := rfl
@[simp] theorem setLane_sec (k : Nat) (l : Lane) : (setLane k l y).sec = y.sec := rfl
@[simp] theorem setLane_obs (k : Nat) (l : Lane) : (setLane k l y).obs = y.obs := rfl
@[simp] theorem setLane_free (k : Nat) (l : Lane) : (setLane k l y).free = y.free := rfl

/-! An update of a tile position. -/
@[simp] theorem setTile_t (n t : Nat) (p : TilePos) : (setTile n t p y).t = y.t := rfl
@[simp] theorem setTile_hs (n t : Nat) (p : TilePos) : (setTile n t p y).hs = y.hs := rfl
@[simp] theorem setTile_pwr (n t : Nat) (p : TilePos) : (setTile n t p y).pwr = y.pwr := rfl
@[simp] theorem setTile_pin (n t : Nat) (p : TilePos) : (setTile n t p y).pin = y.pin := rfl
@[simp] theorem setTile_trd (n t : Nat) (p : TilePos) : (setTile n t p y).trd = y.trd := rfl
@[simp] theorem setTile_svc (n t : Nat) (p : TilePos) : (setTile n t p y).svc = y.svc := rfl
@[simp] theorem setTile_cr (n t : Nat) (p : TilePos) : (setTile n t p y).cr = y.cr := rfl
@[simp] theorem setTile_cm (n t : Nat) (p : TilePos) : (setTile n t p y).cm = y.cm := rfl
@[simp] theorem setTile_lck (n t : Nat) (p : TilePos) : (setTile n t p y).lck = y.lck := rfl
@[simp] theorem setTile_mem (n t : Nat) (p : TilePos) : (setTile n t p y).mem = y.mem := rfl
@[simp] theorem setTile_arb (n t : Nat) (p : TilePos) : (setTile n t p y).arb = y.arb := rfl
@[simp] theorem setTile_eng (n t : Nat) (p : TilePos) : (setTile n t p y).eng = y.eng := rfl
@[simp] theorem setTile_yarn (n t : Nat) (p : TilePos) : (setTile n t p y).yarn = y.yarn := rfl
@[simp] theorem setTile_vec (n t : Nat) (p : TilePos) : (setTile n t p y).vec = y.vec := rfl
@[simp] theorem setTile_upd (n t : Nat) (p : TilePos) : (setTile n t p y).upd = y.upd := rfl
@[simp] theorem setTile_smap (n t : Nat) (p : TilePos) : (setTile n t p y).smap = y.smap := rfl
@[simp] theorem setTile_cen (n t : Nat) (p : TilePos) : (setTile n t p y).cen = y.cen := rfl
@[simp] theorem setTile_lnk (n t : Nat) (p : TilePos) : (setTile n t p y).lnk = y.lnk := rfl
@[simp] theorem setTile_coll (n t : Nat) (p : TilePos) : (setTile n t p y).coll = y.coll := rfl
@[simp] theorem setTile_stp (n t : Nat) (p : TilePos) : (setTile n t p y).stp = y.stp := rfl
@[simp] theorem setTile_bur (n t : Nat) (p : TilePos) : (setTile n t p y).bur = y.bur := rfl
@[simp] theorem setTile_nv (n t : Nat) (p : TilePos) : (setTile n t p y).nv = y.nv := rfl
@[simp] theorem setTile_copy (n t : Nat) (p : TilePos) : (setTile n t p y).copy = y.copy := rfl
@[simp] theorem setTile_own (n t : Nat) (p : TilePos) : (setTile n t p y).own = y.own := rfl
@[simp] theorem setTile_sec (n t : Nat) (p : TilePos) : (setTile n t p y).sec = y.sec := rfl
@[simp] theorem setTile_obs (n t : Nat) (p : TilePos) : (setTile n t p y).obs = y.obs := rfl
@[simp] theorem setTile_free (n t : Nat) (p : TilePos) : (setTile n t p y).free = y.free := rfl

/-! An update of an entry of the state map. -/
@[simp] theorem setEntry_t (k : Nat) (e : Entry) : (setEntry k e y).t = y.t := rfl
@[simp] theorem setEntry_hs (k : Nat) (e : Entry) : (setEntry k e y).hs = y.hs := rfl
@[simp] theorem setEntry_pwr (k : Nat) (e : Entry) : (setEntry k e y).pwr = y.pwr := rfl
@[simp] theorem setEntry_pin (k : Nat) (e : Entry) : (setEntry k e y).pin = y.pin := rfl
@[simp] theorem setEntry_trd (k : Nat) (e : Entry) : (setEntry k e y).trd = y.trd := rfl
@[simp] theorem setEntry_svc (k : Nat) (e : Entry) : (setEntry k e y).svc = y.svc := rfl
@[simp] theorem setEntry_cr (k : Nat) (e : Entry) : (setEntry k e y).cr = y.cr := rfl
@[simp] theorem setEntry_cm (k : Nat) (e : Entry) : (setEntry k e y).cm = y.cm := rfl
@[simp] theorem setEntry_lck (k : Nat) (e : Entry) : (setEntry k e y).lck = y.lck := rfl
@[simp] theorem setEntry_mem (k : Nat) (e : Entry) : (setEntry k e y).mem = y.mem := rfl
@[simp] theorem setEntry_arb (k : Nat) (e : Entry) : (setEntry k e y).arb = y.arb := rfl
@[simp] theorem setEntry_eng (k : Nat) (e : Entry) : (setEntry k e y).eng = y.eng := rfl
@[simp] theorem setEntry_yarn (k : Nat) (e : Entry) : (setEntry k e y).yarn = y.yarn := rfl
@[simp] theorem setEntry_acc (k : Nat) (e : Entry) : (setEntry k e y).acc = y.acc := rfl
@[simp] theorem setEntry_vec (k : Nat) (e : Entry) : (setEntry k e y).vec = y.vec := rfl
@[simp] theorem setEntry_upd (k : Nat) (e : Entry) : (setEntry k e y).upd = y.upd := rfl
@[simp] theorem setEntry_cen (k : Nat) (e : Entry) : (setEntry k e y).cen = y.cen := rfl
@[simp] theorem setEntry_lnk (k : Nat) (e : Entry) : (setEntry k e y).lnk = y.lnk := rfl
@[simp] theorem setEntry_coll (k : Nat) (e : Entry) : (setEntry k e y).coll = y.coll := rfl
@[simp] theorem setEntry_stp (k : Nat) (e : Entry) : (setEntry k e y).stp = y.stp := rfl
@[simp] theorem setEntry_bur (k : Nat) (e : Entry) : (setEntry k e y).bur = y.bur := rfl
@[simp] theorem setEntry_nv (k : Nat) (e : Entry) : (setEntry k e y).nv = y.nv := rfl
@[simp] theorem setEntry_copy (k : Nat) (e : Entry) : (setEntry k e y).copy = y.copy := rfl
@[simp] theorem setEntry_own (k : Nat) (e : Entry) : (setEntry k e y).own = y.own := rfl
@[simp] theorem setEntry_sec (k : Nat) (e : Entry) : (setEntry k e y).sec = y.sec := rfl
@[simp] theorem setEntry_obs (k : Nat) (e : Entry) : (setEntry k e y).obs = y.obs := rfl
@[simp] theorem setEntry_free (k : Nat) (e : Entry) : (setEntry k e y).free = y.free := rfl

/-! An update of the burler of a die. -/
@[simp] theorem setBur_t (d : Nat) (x : BurlerDie) : (setBur d x y).t = y.t := rfl
@[simp] theorem setBur_hs (d : Nat) (x : BurlerDie) : (setBur d x y).hs = y.hs := rfl
@[simp] theorem setBur_pwr (d : Nat) (x : BurlerDie) : (setBur d x y).pwr = y.pwr := rfl
@[simp] theorem setBur_pin (d : Nat) (x : BurlerDie) : (setBur d x y).pin = y.pin := rfl
@[simp] theorem setBur_trd (d : Nat) (x : BurlerDie) : (setBur d x y).trd = y.trd := rfl
@[simp] theorem setBur_svc (d : Nat) (x : BurlerDie) : (setBur d x y).svc = y.svc := rfl
@[simp] theorem setBur_cr (d : Nat) (x : BurlerDie) : (setBur d x y).cr = y.cr := rfl
@[simp] theorem setBur_cm (d : Nat) (x : BurlerDie) : (setBur d x y).cm = y.cm := rfl
@[simp] theorem setBur_lck (d : Nat) (x : BurlerDie) : (setBur d x y).lck = y.lck := rfl
@[simp] theorem setBur_mem (d : Nat) (x : BurlerDie) : (setBur d x y).mem = y.mem := rfl
@[simp] theorem setBur_arb (d : Nat) (x : BurlerDie) : (setBur d x y).arb = y.arb := rfl
@[simp] theorem setBur_eng (d : Nat) (x : BurlerDie) : (setBur d x y).eng = y.eng := rfl
@[simp] theorem setBur_yarn (d : Nat) (x : BurlerDie) : (setBur d x y).yarn = y.yarn := rfl
@[simp] theorem setBur_acc (d : Nat) (x : BurlerDie) : (setBur d x y).acc = y.acc := rfl
@[simp] theorem setBur_vec (d : Nat) (x : BurlerDie) : (setBur d x y).vec = y.vec := rfl
@[simp] theorem setBur_upd (d : Nat) (x : BurlerDie) : (setBur d x y).upd = y.upd := rfl
@[simp] theorem setBur_smap (d : Nat) (x : BurlerDie) : (setBur d x y).smap = y.smap := rfl
@[simp] theorem setBur_cen (d : Nat) (x : BurlerDie) : (setBur d x y).cen = y.cen := rfl
@[simp] theorem setBur_lnk (d : Nat) (x : BurlerDie) : (setBur d x y).lnk = y.lnk := rfl
@[simp] theorem setBur_coll (d : Nat) (x : BurlerDie) : (setBur d x y).coll = y.coll := rfl
@[simp] theorem setBur_stp (d : Nat) (x : BurlerDie) : (setBur d x y).stp = y.stp := rfl
@[simp] theorem setBur_nv (d : Nat) (x : BurlerDie) : (setBur d x y).nv = y.nv := rfl
@[simp] theorem setBur_copy (d : Nat) (x : BurlerDie) : (setBur d x y).copy = y.copy := rfl
@[simp] theorem setBur_own (d : Nat) (x : BurlerDie) : (setBur d x y).own = y.own := rfl
@[simp] theorem setBur_sec (d : Nat) (x : BurlerDie) : (setBur d x y).sec = y.sec := rfl
@[simp] theorem setBur_obs (d : Nat) (x : BurlerDie) : (setBur d x y).obs = y.obs := rfl
@[simp] theorem setBur_free (d : Nat) (x : BurlerDie) : (setBur d x y).free = y.free := rfl

/-! An update of a yarn engine. -/
@[simp] theorem setYarn_t (n : Nat) (st : YarnSt) : (setYarn n st y).t = y.t := rfl
@[simp] theorem setYarn_hs (n : Nat) (st : YarnSt) : (setYarn n st y).hs = y.hs := rfl
@[simp] theorem setYarn_pwr (n : Nat) (st : YarnSt) : (setYarn n st y).pwr = y.pwr := rfl
@[simp] theorem setYarn_pin (n : Nat) (st : YarnSt) : (setYarn n st y).pin = y.pin := rfl
@[simp] theorem setYarn_trd (n : Nat) (st : YarnSt) : (setYarn n st y).trd = y.trd := rfl
@[simp] theorem setYarn_svc (n : Nat) (st : YarnSt) : (setYarn n st y).svc = y.svc := rfl
@[simp] theorem setYarn_cr (n : Nat) (st : YarnSt) : (setYarn n st y).cr = y.cr := rfl
@[simp] theorem setYarn_cm (n : Nat) (st : YarnSt) : (setYarn n st y).cm = y.cm := rfl
@[simp] theorem setYarn_lck (n : Nat) (st : YarnSt) : (setYarn n st y).lck = y.lck := rfl
@[simp] theorem setYarn_mem (n : Nat) (st : YarnSt) : (setYarn n st y).mem = y.mem := rfl
@[simp] theorem setYarn_arb (n : Nat) (st : YarnSt) : (setYarn n st y).arb = y.arb := rfl
@[simp] theorem setYarn_eng (n : Nat) (st : YarnSt) : (setYarn n st y).eng = y.eng := rfl
@[simp] theorem setYarn_acc (n : Nat) (st : YarnSt) : (setYarn n st y).acc = y.acc := rfl
@[simp] theorem setYarn_vec (n : Nat) (st : YarnSt) : (setYarn n st y).vec = y.vec := rfl
@[simp] theorem setYarn_upd (n : Nat) (st : YarnSt) : (setYarn n st y).upd = y.upd := rfl
@[simp] theorem setYarn_smap (n : Nat) (st : YarnSt) : (setYarn n st y).smap = y.smap := rfl
@[simp] theorem setYarn_cen (n : Nat) (st : YarnSt) : (setYarn n st y).cen = y.cen := rfl
@[simp] theorem setYarn_lnk (n : Nat) (st : YarnSt) : (setYarn n st y).lnk = y.lnk := rfl
@[simp] theorem setYarn_coll (n : Nat) (st : YarnSt) : (setYarn n st y).coll = y.coll := rfl
@[simp] theorem setYarn_stp (n : Nat) (st : YarnSt) : (setYarn n st y).stp = y.stp := rfl
@[simp] theorem setYarn_bur (n : Nat) (st : YarnSt) : (setYarn n st y).bur = y.bur := rfl
@[simp] theorem setYarn_nv (n : Nat) (st : YarnSt) : (setYarn n st y).nv = y.nv := rfl
@[simp] theorem setYarn_copy (n : Nat) (st : YarnSt) : (setYarn n st y).copy = y.copy := rfl
@[simp] theorem setYarn_own (n : Nat) (st : YarnSt) : (setYarn n st y).own = y.own := rfl
@[simp] theorem setYarn_sec (n : Nat) (st : YarnSt) : (setYarn n st y).sec = y.sec := rfl
@[simp] theorem setYarn_obs (n : Nat) (st : YarnSt) : (setYarn n st y).obs = y.obs := rfl
@[simp] theorem setYarn_free (n : Nat) (st : YarnSt) : (setYarn n st y).free = y.free := rfl

/-! An update of a vector engine. -/
@[simp] theorem setEng_t (e : Nat) (x : Engine) : (setEng e x y).t = y.t := rfl
@[simp] theorem setEng_hs (e : Nat) (x : Engine) : (setEng e x y).hs = y.hs := rfl
@[simp] theorem setEng_pwr (e : Nat) (x : Engine) : (setEng e x y).pwr = y.pwr := rfl
@[simp] theorem setEng_pin (e : Nat) (x : Engine) : (setEng e x y).pin = y.pin := rfl
@[simp] theorem setEng_trd (e : Nat) (x : Engine) : (setEng e x y).trd = y.trd := rfl
@[simp] theorem setEng_svc (e : Nat) (x : Engine) : (setEng e x y).svc = y.svc := rfl
@[simp] theorem setEng_cr (e : Nat) (x : Engine) : (setEng e x y).cr = y.cr := rfl
@[simp] theorem setEng_cm (e : Nat) (x : Engine) : (setEng e x y).cm = y.cm := rfl
@[simp] theorem setEng_lck (e : Nat) (x : Engine) : (setEng e x y).lck = y.lck := rfl
@[simp] theorem setEng_mem (e : Nat) (x : Engine) : (setEng e x y).mem = y.mem := rfl
@[simp] theorem setEng_arb (e : Nat) (x : Engine) : (setEng e x y).arb = y.arb := rfl
@[simp] theorem setEng_yarn (e : Nat) (x : Engine) : (setEng e x y).yarn = y.yarn := rfl
@[simp] theorem setEng_acc (e : Nat) (x : Engine) : (setEng e x y).acc = y.acc := rfl
@[simp] theorem setEng_vec (e : Nat) (x : Engine) : (setEng e x y).vec = y.vec := rfl
@[simp] theorem setEng_upd (e : Nat) (x : Engine) : (setEng e x y).upd = y.upd := rfl
@[simp] theorem setEng_smap (e : Nat) (x : Engine) : (setEng e x y).smap = y.smap := rfl
@[simp] theorem setEng_cen (e : Nat) (x : Engine) : (setEng e x y).cen = y.cen := rfl
@[simp] theorem setEng_lnk (e : Nat) (x : Engine) : (setEng e x y).lnk = y.lnk := rfl
@[simp] theorem setEng_coll (e : Nat) (x : Engine) : (setEng e x y).coll = y.coll := rfl
@[simp] theorem setEng_stp (e : Nat) (x : Engine) : (setEng e x y).stp = y.stp := rfl
@[simp] theorem setEng_bur (e : Nat) (x : Engine) : (setEng e x y).bur = y.bur := rfl
@[simp] theorem setEng_nv (e : Nat) (x : Engine) : (setEng e x y).nv = y.nv := rfl
@[simp] theorem setEng_copy (e : Nat) (x : Engine) : (setEng e x y).copy = y.copy := rfl
@[simp] theorem setEng_own (e : Nat) (x : Engine) : (setEng e x y).own = y.own := rfl
@[simp] theorem setEng_sec (e : Nat) (x : Engine) : (setEng e x y).sec = y.sec := rfl
@[simp] theorem setEng_obs (e : Nat) (x : Engine) : (setEng e x y).obs = y.obs := rfl
@[simp] theorem setEng_free (e : Nat) (x : Engine) : (setEng e x y).free = y.free := rfl

/-! An update of a run. -/
@[simp] theorem setRun_t (n : Nat) (r : VecRun) : (setRun n r y).t = y.t := rfl
@[simp] theorem setRun_hs (n : Nat) (r : VecRun) : (setRun n r y).hs = y.hs := rfl
@[simp] theorem setRun_pwr (n : Nat) (r : VecRun) : (setRun n r y).pwr = y.pwr := rfl
@[simp] theorem setRun_pin (n : Nat) (r : VecRun) : (setRun n r y).pin = y.pin := rfl
@[simp] theorem setRun_trd (n : Nat) (r : VecRun) : (setRun n r y).trd = y.trd := rfl
@[simp] theorem setRun_svc (n : Nat) (r : VecRun) : (setRun n r y).svc = y.svc := rfl
@[simp] theorem setRun_cr (n : Nat) (r : VecRun) : (setRun n r y).cr = y.cr := rfl
@[simp] theorem setRun_cm (n : Nat) (r : VecRun) : (setRun n r y).cm = y.cm := rfl
@[simp] theorem setRun_lck (n : Nat) (r : VecRun) : (setRun n r y).lck = y.lck := rfl
@[simp] theorem setRun_mem (n : Nat) (r : VecRun) : (setRun n r y).mem = y.mem := rfl
@[simp] theorem setRun_arb (n : Nat) (r : VecRun) : (setRun n r y).arb = y.arb := rfl
@[simp] theorem setRun_eng (n : Nat) (r : VecRun) : (setRun n r y).eng = y.eng := rfl
@[simp] theorem setRun_yarn (n : Nat) (r : VecRun) : (setRun n r y).yarn = y.yarn := rfl
@[simp] theorem setRun_acc (n : Nat) (r : VecRun) : (setRun n r y).acc = y.acc := rfl
@[simp] theorem setRun_upd (n : Nat) (r : VecRun) : (setRun n r y).upd = y.upd := rfl
@[simp] theorem setRun_smap (n : Nat) (r : VecRun) : (setRun n r y).smap = y.smap := rfl
@[simp] theorem setRun_cen (n : Nat) (r : VecRun) : (setRun n r y).cen = y.cen := rfl
@[simp] theorem setRun_lnk (n : Nat) (r : VecRun) : (setRun n r y).lnk = y.lnk := rfl
@[simp] theorem setRun_coll (n : Nat) (r : VecRun) : (setRun n r y).coll = y.coll := rfl
@[simp] theorem setRun_stp (n : Nat) (r : VecRun) : (setRun n r y).stp = y.stp := rfl
@[simp] theorem setRun_bur (n : Nat) (r : VecRun) : (setRun n r y).bur = y.bur := rfl
@[simp] theorem setRun_nv (n : Nat) (r : VecRun) : (setRun n r y).nv = y.nv := rfl
@[simp] theorem setRun_copy (n : Nat) (r : VecRun) : (setRun n r y).copy = y.copy := rfl
@[simp] theorem setRun_own (n : Nat) (r : VecRun) : (setRun n r y).own = y.own := rfl
@[simp] theorem setRun_sec (n : Nat) (r : VecRun) : (setRun n r y).sec = y.sec := rfl
@[simp] theorem setRun_obs (n : Nat) (r : VecRun) : (setRun n r y).obs = y.obs := rfl
@[simp] theorem setRun_free (n : Nat) (r : VecRun) : (setRun n r y).free = y.free := rfl

/-! An update of a microprogram run. -/
@[simp] theorem setMicro_t (d : Nat) (r : MicroRun) : (setMicro d r y).t = y.t := rfl
@[simp] theorem setMicro_hs (d : Nat) (r : MicroRun) : (setMicro d r y).hs = y.hs := rfl
@[simp] theorem setMicro_pwr (d : Nat) (r : MicroRun) : (setMicro d r y).pwr = y.pwr := rfl
@[simp] theorem setMicro_pin (d : Nat) (r : MicroRun) : (setMicro d r y).pin = y.pin := rfl
@[simp] theorem setMicro_trd (d : Nat) (r : MicroRun) : (setMicro d r y).trd = y.trd := rfl
@[simp] theorem setMicro_svc (d : Nat) (r : MicroRun) : (setMicro d r y).svc = y.svc := rfl
@[simp] theorem setMicro_cr (d : Nat) (r : MicroRun) : (setMicro d r y).cr = y.cr := rfl
@[simp] theorem setMicro_cm (d : Nat) (r : MicroRun) : (setMicro d r y).cm = y.cm := rfl
@[simp] theorem setMicro_lck (d : Nat) (r : MicroRun) : (setMicro d r y).lck = y.lck := rfl
@[simp] theorem setMicro_mem (d : Nat) (r : MicroRun) : (setMicro d r y).mem = y.mem := rfl
@[simp] theorem setMicro_arb (d : Nat) (r : MicroRun) : (setMicro d r y).arb = y.arb := rfl
@[simp] theorem setMicro_eng (d : Nat) (r : MicroRun) : (setMicro d r y).eng = y.eng := rfl
@[simp] theorem setMicro_yarn (d : Nat) (r : MicroRun) : (setMicro d r y).yarn = y.yarn := rfl
@[simp] theorem setMicro_acc (d : Nat) (r : MicroRun) : (setMicro d r y).acc = y.acc := rfl
@[simp] theorem setMicro_vec (d : Nat) (r : MicroRun) : (setMicro d r y).vec = y.vec := rfl
@[simp] theorem setMicro_smap (d : Nat) (r : MicroRun) : (setMicro d r y).smap = y.smap := rfl
@[simp] theorem setMicro_cen (d : Nat) (r : MicroRun) : (setMicro d r y).cen = y.cen := rfl
@[simp] theorem setMicro_lnk (d : Nat) (r : MicroRun) : (setMicro d r y).lnk = y.lnk := rfl
@[simp] theorem setMicro_coll (d : Nat) (r : MicroRun) : (setMicro d r y).coll = y.coll := rfl
@[simp] theorem setMicro_stp (d : Nat) (r : MicroRun) : (setMicro d r y).stp = y.stp := rfl
@[simp] theorem setMicro_bur (d : Nat) (r : MicroRun) : (setMicro d r y).bur = y.bur := rfl
@[simp] theorem setMicro_nv (d : Nat) (r : MicroRun) : (setMicro d r y).nv = y.nv := rfl
@[simp] theorem setMicro_copy (d : Nat) (r : MicroRun) : (setMicro d r y).copy = y.copy := rfl
@[simp] theorem setMicro_own (d : Nat) (r : MicroRun) : (setMicro d r y).own = y.own := rfl
@[simp] theorem setMicro_sec (d : Nat) (r : MicroRun) : (setMicro d r y).sec = y.sec := rfl
@[simp] theorem setMicro_obs (d : Nat) (r : MicroRun) : (setMicro d r y).obs = y.obs := rfl
@[simp] theorem setMicro_free (d : Nat) (r : MicroRun) : (setMicro d r y).free = y.free := rfl

/-! An update of a counter set. -/
@[simp] theorem setCtrSet_t (k : Nat) (x : CtrSet) : (setCtrSet k x y).t = y.t := rfl
@[simp] theorem setCtrSet_hs (k : Nat) (x : CtrSet) : (setCtrSet k x y).hs = y.hs := rfl
@[simp] theorem setCtrSet_pwr (k : Nat) (x : CtrSet) : (setCtrSet k x y).pwr = y.pwr := rfl
@[simp] theorem setCtrSet_pin (k : Nat) (x : CtrSet) : (setCtrSet k x y).pin = y.pin := rfl
@[simp] theorem setCtrSet_trd (k : Nat) (x : CtrSet) : (setCtrSet k x y).trd = y.trd := rfl
@[simp] theorem setCtrSet_svc (k : Nat) (x : CtrSet) : (setCtrSet k x y).svc = y.svc := rfl
@[simp] theorem setCtrSet_cr (k : Nat) (x : CtrSet) : (setCtrSet k x y).cr = y.cr := rfl
@[simp] theorem setCtrSet_cm (k : Nat) (x : CtrSet) : (setCtrSet k x y).cm = y.cm := rfl
@[simp] theorem setCtrSet_lck (k : Nat) (x : CtrSet) : (setCtrSet k x y).lck = y.lck := rfl
@[simp] theorem setCtrSet_mem (k : Nat) (x : CtrSet) : (setCtrSet k x y).mem = y.mem := rfl
@[simp] theorem setCtrSet_arb (k : Nat) (x : CtrSet) : (setCtrSet k x y).arb = y.arb := rfl
@[simp] theorem setCtrSet_eng (k : Nat) (x : CtrSet) : (setCtrSet k x y).eng = y.eng := rfl
@[simp] theorem setCtrSet_yarn (k : Nat) (x : CtrSet) : (setCtrSet k x y).yarn = y.yarn := rfl
@[simp] theorem setCtrSet_acc (k : Nat) (x : CtrSet) : (setCtrSet k x y).acc = y.acc := rfl
@[simp] theorem setCtrSet_vec (k : Nat) (x : CtrSet) : (setCtrSet k x y).vec = y.vec := rfl
@[simp] theorem setCtrSet_upd (k : Nat) (x : CtrSet) : (setCtrSet k x y).upd = y.upd := rfl
@[simp] theorem setCtrSet_smap (k : Nat) (x : CtrSet) : (setCtrSet k x y).smap = y.smap := rfl
@[simp] theorem setCtrSet_cen (k : Nat) (x : CtrSet) : (setCtrSet k x y).cen = y.cen := rfl
@[simp] theorem setCtrSet_lnk (k : Nat) (x : CtrSet) : (setCtrSet k x y).lnk = y.lnk := rfl
@[simp] theorem setCtrSet_coll (k : Nat) (x : CtrSet) : (setCtrSet k x y).coll = y.coll := rfl
@[simp] theorem setCtrSet_stp (k : Nat) (x : CtrSet) : (setCtrSet k x y).stp = y.stp := rfl
@[simp] theorem setCtrSet_bur (k : Nat) (x : CtrSet) : (setCtrSet k x y).bur = y.bur := rfl
@[simp] theorem setCtrSet_nv (k : Nat) (x : CtrSet) : (setCtrSet k x y).nv = y.nv := rfl
@[simp] theorem setCtrSet_copy (k : Nat) (x : CtrSet) : (setCtrSet k x y).copy = y.copy := rfl
@[simp] theorem setCtrSet_own (k : Nat) (x : CtrSet) : (setCtrSet k x y).own = y.own := rfl
@[simp] theorem setCtrSet_sec (k : Nat) (x : CtrSet) : (setCtrSet k x y).sec = y.sec := rfl
@[simp] theorem setCtrSet_free (k : Nat) (x : CtrSet) : (setCtrSet k x y).free = y.free := rfl

/-! An update of the trace settings. -/
@[simp] theorem onTrace_t (f : TraceSt → TraceSt) : (onTrace f y).t = y.t := rfl
@[simp] theorem onTrace_hs (f : TraceSt → TraceSt) : (onTrace f y).hs = y.hs := rfl
@[simp] theorem onTrace_pwr (f : TraceSt → TraceSt) : (onTrace f y).pwr = y.pwr := rfl
@[simp] theorem onTrace_pin (f : TraceSt → TraceSt) : (onTrace f y).pin = y.pin := rfl
@[simp] theorem onTrace_trd (f : TraceSt → TraceSt) : (onTrace f y).trd = y.trd := rfl
@[simp] theorem onTrace_svc (f : TraceSt → TraceSt) : (onTrace f y).svc = y.svc := rfl
@[simp] theorem onTrace_cr (f : TraceSt → TraceSt) : (onTrace f y).cr = y.cr := rfl
@[simp] theorem onTrace_cm (f : TraceSt → TraceSt) : (onTrace f y).cm = y.cm := rfl
@[simp] theorem onTrace_lck (f : TraceSt → TraceSt) : (onTrace f y).lck = y.lck := rfl
@[simp] theorem onTrace_mem (f : TraceSt → TraceSt) : (onTrace f y).mem = y.mem := rfl
@[simp] theorem onTrace_arb (f : TraceSt → TraceSt) : (onTrace f y).arb = y.arb := rfl
@[simp] theorem onTrace_eng (f : TraceSt → TraceSt) : (onTrace f y).eng = y.eng := rfl
@[simp] theorem onTrace_yarn (f : TraceSt → TraceSt) : (onTrace f y).yarn = y.yarn := rfl
@[simp] theorem onTrace_acc (f : TraceSt → TraceSt) : (onTrace f y).acc = y.acc := rfl
@[simp] theorem onTrace_vec (f : TraceSt → TraceSt) : (onTrace f y).vec = y.vec := rfl
@[simp] theorem onTrace_upd (f : TraceSt → TraceSt) : (onTrace f y).upd = y.upd := rfl
@[simp] theorem onTrace_smap (f : TraceSt → TraceSt) : (onTrace f y).smap = y.smap := rfl
@[simp] theorem onTrace_cen (f : TraceSt → TraceSt) : (onTrace f y).cen = y.cen := rfl
@[simp] theorem onTrace_lnk (f : TraceSt → TraceSt) : (onTrace f y).lnk = y.lnk := rfl
@[simp] theorem onTrace_coll (f : TraceSt → TraceSt) : (onTrace f y).coll = y.coll := rfl
@[simp] theorem onTrace_stp (f : TraceSt → TraceSt) : (onTrace f y).stp = y.stp := rfl
@[simp] theorem onTrace_bur (f : TraceSt → TraceSt) : (onTrace f y).bur = y.bur := rfl
@[simp] theorem onTrace_nv (f : TraceSt → TraceSt) : (onTrace f y).nv = y.nv := rfl
@[simp] theorem onTrace_copy (f : TraceSt → TraceSt) : (onTrace f y).copy = y.copy := rfl
@[simp] theorem onTrace_own (f : TraceSt → TraceSt) : (onTrace f y).own = y.own := rfl
@[simp] theorem onTrace_sec (f : TraceSt → TraceSt) : (onTrace f y).sec = y.sec := rfl
@[simp] theorem onTrace_free (f : TraceSt → TraceSt) : (onTrace f y).free = y.free := rfl

/-! An update of a trace unit. -/
@[simp] theorem setUnit_t (u : Nat) (x : TraceUnit) : (setUnit u x y).t = y.t := rfl
@[simp] theorem setUnit_hs (u : Nat) (x : TraceUnit) : (setUnit u x y).hs = y.hs := rfl
@[simp] theorem setUnit_pwr (u : Nat) (x : TraceUnit) : (setUnit u x y).pwr = y.pwr := rfl
@[simp] theorem setUnit_pin (u : Nat) (x : TraceUnit) : (setUnit u x y).pin = y.pin := rfl
@[simp] theorem setUnit_trd (u : Nat) (x : TraceUnit) : (setUnit u x y).trd = y.trd := rfl
@[simp] theorem setUnit_svc (u : Nat) (x : TraceUnit) : (setUnit u x y).svc = y.svc := rfl
@[simp] theorem setUnit_cr (u : Nat) (x : TraceUnit) : (setUnit u x y).cr = y.cr := rfl
@[simp] theorem setUnit_cm (u : Nat) (x : TraceUnit) : (setUnit u x y).cm = y.cm := rfl
@[simp] theorem setUnit_lck (u : Nat) (x : TraceUnit) : (setUnit u x y).lck = y.lck := rfl
@[simp] theorem setUnit_mem (u : Nat) (x : TraceUnit) : (setUnit u x y).mem = y.mem := rfl
@[simp] theorem setUnit_arb (u : Nat) (x : TraceUnit) : (setUnit u x y).arb = y.arb := rfl
@[simp] theorem setUnit_eng (u : Nat) (x : TraceUnit) : (setUnit u x y).eng = y.eng := rfl
@[simp] theorem setUnit_yarn (u : Nat) (x : TraceUnit) : (setUnit u x y).yarn = y.yarn := rfl
@[simp] theorem setUnit_acc (u : Nat) (x : TraceUnit) : (setUnit u x y).acc = y.acc := rfl
@[simp] theorem setUnit_vec (u : Nat) (x : TraceUnit) : (setUnit u x y).vec = y.vec := rfl
@[simp] theorem setUnit_upd (u : Nat) (x : TraceUnit) : (setUnit u x y).upd = y.upd := rfl
@[simp] theorem setUnit_smap (u : Nat) (x : TraceUnit) : (setUnit u x y).smap = y.smap := rfl
@[simp] theorem setUnit_cen (u : Nat) (x : TraceUnit) : (setUnit u x y).cen = y.cen := rfl
@[simp] theorem setUnit_lnk (u : Nat) (x : TraceUnit) : (setUnit u x y).lnk = y.lnk := rfl
@[simp] theorem setUnit_coll (u : Nat) (x : TraceUnit) : (setUnit u x y).coll = y.coll := rfl
@[simp] theorem setUnit_stp (u : Nat) (x : TraceUnit) : (setUnit u x y).stp = y.stp := rfl
@[simp] theorem setUnit_bur (u : Nat) (x : TraceUnit) : (setUnit u x y).bur = y.bur := rfl
@[simp] theorem setUnit_nv (u : Nat) (x : TraceUnit) : (setUnit u x y).nv = y.nv := rfl
@[simp] theorem setUnit_copy (u : Nat) (x : TraceUnit) : (setUnit u x y).copy = y.copy := rfl
@[simp] theorem setUnit_own (u : Nat) (x : TraceUnit) : (setUnit u x y).own = y.own := rfl
@[simp] theorem setUnit_sec (u : Nat) (x : TraceUnit) : (setUnit u x y).sec = y.sec := rfl
@[simp] theorem setUnit_free (u : Nat) (x : TraceUnit) : (setUnit u x y).free = y.free := rfl

/-! An update of a lock. -/
@[simp] theorem setLock_t (k : Nat) (l : Lock) : (setLock k l y).t = y.t := rfl
@[simp] theorem setLock_hs (k : Nat) (l : Lock) : (setLock k l y).hs = y.hs := rfl
@[simp] theorem setLock_pwr (k : Nat) (l : Lock) : (setLock k l y).pwr = y.pwr := rfl
@[simp] theorem setLock_pin (k : Nat) (l : Lock) : (setLock k l y).pin = y.pin := rfl
@[simp] theorem setLock_trd (k : Nat) (l : Lock) : (setLock k l y).trd = y.trd := rfl
@[simp] theorem setLock_svc (k : Nat) (l : Lock) : (setLock k l y).svc = y.svc := rfl
@[simp] theorem setLock_cr (k : Nat) (l : Lock) : (setLock k l y).cr = y.cr := rfl
@[simp] theorem setLock_cm (k : Nat) (l : Lock) : (setLock k l y).cm = y.cm := rfl
@[simp] theorem setLock_mem (k : Nat) (l : Lock) : (setLock k l y).mem = y.mem := rfl
@[simp] theorem setLock_arb (k : Nat) (l : Lock) : (setLock k l y).arb = y.arb := rfl
@[simp] theorem setLock_eng (k : Nat) (l : Lock) : (setLock k l y).eng = y.eng := rfl
@[simp] theorem setLock_yarn (k : Nat) (l : Lock) : (setLock k l y).yarn = y.yarn := rfl
@[simp] theorem setLock_acc (k : Nat) (l : Lock) : (setLock k l y).acc = y.acc := rfl
@[simp] theorem setLock_vec (k : Nat) (l : Lock) : (setLock k l y).vec = y.vec := rfl
@[simp] theorem setLock_upd (k : Nat) (l : Lock) : (setLock k l y).upd = y.upd := rfl
@[simp] theorem setLock_smap (k : Nat) (l : Lock) : (setLock k l y).smap = y.smap := rfl
@[simp] theorem setLock_cen (k : Nat) (l : Lock) : (setLock k l y).cen = y.cen := rfl
@[simp] theorem setLock_lnk (k : Nat) (l : Lock) : (setLock k l y).lnk = y.lnk := rfl
@[simp] theorem setLock_coll (k : Nat) (l : Lock) : (setLock k l y).coll = y.coll := rfl
@[simp] theorem setLock_stp (k : Nat) (l : Lock) : (setLock k l y).stp = y.stp := rfl
@[simp] theorem setLock_bur (k : Nat) (l : Lock) : (setLock k l y).bur = y.bur := rfl
@[simp] theorem setLock_nv (k : Nat) (l : Lock) : (setLock k l y).nv = y.nv := rfl
@[simp] theorem setLock_copy (k : Nat) (l : Lock) : (setLock k l y).copy = y.copy := rfl
@[simp] theorem setLock_own (k : Nat) (l : Lock) : (setLock k l y).own = y.own := rfl
@[simp] theorem setLock_sec (k : Nat) (l : Lock) : (setLock k l y).sec = y.sec := rfl
@[simp] theorem setLock_obs (k : Nat) (l : Lock) : (setLock k l y).obs = y.obs := rfl
@[simp] theorem setLock_free (k : Nat) (l : Lock) : (setLock k l y).free = y.free := rfl

/-! An update of the step state. -/
@[simp] theorem onStep_t (f : StepSt → StepSt) : (onStep f y).t = y.t := rfl
@[simp] theorem onStep_hs (f : StepSt → StepSt) : (onStep f y).hs = y.hs := rfl
@[simp] theorem onStep_pwr (f : StepSt → StepSt) : (onStep f y).pwr = y.pwr := rfl
@[simp] theorem onStep_pin (f : StepSt → StepSt) : (onStep f y).pin = y.pin := rfl
@[simp] theorem onStep_trd (f : StepSt → StepSt) : (onStep f y).trd = y.trd := rfl
@[simp] theorem onStep_svc (f : StepSt → StepSt) : (onStep f y).svc = y.svc := rfl
@[simp] theorem onStep_cr (f : StepSt → StepSt) : (onStep f y).cr = y.cr := rfl
@[simp] theorem onStep_cm (f : StepSt → StepSt) : (onStep f y).cm = y.cm := rfl
@[simp] theorem onStep_lck (f : StepSt → StepSt) : (onStep f y).lck = y.lck := rfl
@[simp] theorem onStep_mem (f : StepSt → StepSt) : (onStep f y).mem = y.mem := rfl
@[simp] theorem onStep_arb (f : StepSt → StepSt) : (onStep f y).arb = y.arb := rfl
@[simp] theorem onStep_eng (f : StepSt → StepSt) : (onStep f y).eng = y.eng := rfl
@[simp] theorem onStep_yarn (f : StepSt → StepSt) : (onStep f y).yarn = y.yarn := rfl
@[simp] theorem onStep_acc (f : StepSt → StepSt) : (onStep f y).acc = y.acc := rfl
@[simp] theorem onStep_vec (f : StepSt → StepSt) : (onStep f y).vec = y.vec := rfl
@[simp] theorem onStep_upd (f : StepSt → StepSt) : (onStep f y).upd = y.upd := rfl
@[simp] theorem onStep_smap (f : StepSt → StepSt) : (onStep f y).smap = y.smap := rfl
@[simp] theorem onStep_cen (f : StepSt → StepSt) : (onStep f y).cen = y.cen := rfl
@[simp] theorem onStep_lnk (f : StepSt → StepSt) : (onStep f y).lnk = y.lnk := rfl
@[simp] theorem onStep_coll (f : StepSt → StepSt) : (onStep f y).coll = y.coll := rfl
@[simp] theorem onStep_stp (f : StepSt → StepSt) : (onStep f y).stp = f y.stp := rfl
@[simp] theorem onStep_bur (f : StepSt → StepSt) : (onStep f y).bur = y.bur := rfl
@[simp] theorem onStep_nv (f : StepSt → StepSt) : (onStep f y).nv = y.nv := rfl
@[simp] theorem onStep_copy (f : StepSt → StepSt) : (onStep f y).copy = y.copy := rfl
@[simp] theorem onStep_own (f : StepSt → StepSt) : (onStep f y).own = y.own := rfl
@[simp] theorem onStep_sec (f : StepSt → StepSt) : (onStep f y).sec = y.sec := rfl
@[simp] theorem onStep_obs (f : StepSt → StepSt) : (onStep f y).obs = y.obs := rfl
@[simp] theorem onStep_free (f : StepSt → StepSt) : (onStep f y).free = y.free := rfl

/-! An update of a dirty bit. -/
@[simp] theorem setDirty_t (i : Nat) : (setDirty i y).t = y.t := rfl
@[simp] theorem setDirty_hs (i : Nat) : (setDirty i y).hs = y.hs := rfl
@[simp] theorem setDirty_pwr (i : Nat) : (setDirty i y).pwr = y.pwr := rfl
@[simp] theorem setDirty_pin (i : Nat) : (setDirty i y).pin = y.pin := rfl
@[simp] theorem setDirty_trd (i : Nat) : (setDirty i y).trd = y.trd := rfl
@[simp] theorem setDirty_svc (i : Nat) : (setDirty i y).svc = y.svc := rfl
@[simp] theorem setDirty_cr (i : Nat) : (setDirty i y).cr = y.cr := rfl
@[simp] theorem setDirty_cm (i : Nat) : (setDirty i y).cm = y.cm := rfl
@[simp] theorem setDirty_lck (i : Nat) : (setDirty i y).lck = y.lck := rfl
@[simp] theorem setDirty_mem (i : Nat) : (setDirty i y).mem = y.mem := rfl
@[simp] theorem setDirty_arb (i : Nat) : (setDirty i y).arb = y.arb := rfl
@[simp] theorem setDirty_eng (i : Nat) : (setDirty i y).eng = y.eng := rfl
@[simp] theorem setDirty_yarn (i : Nat) : (setDirty i y).yarn = y.yarn := rfl
@[simp] theorem setDirty_acc (i : Nat) : (setDirty i y).acc = y.acc := rfl
@[simp] theorem setDirty_vec (i : Nat) : (setDirty i y).vec = y.vec := rfl
@[simp] theorem setDirty_upd (i : Nat) : (setDirty i y).upd = y.upd := rfl
@[simp] theorem setDirty_smap (i : Nat) : (setDirty i y).smap = y.smap := rfl
@[simp] theorem setDirty_cen (i : Nat) : (setDirty i y).cen = y.cen := rfl
@[simp] theorem setDirty_lnk (i : Nat) : (setDirty i y).lnk = y.lnk := rfl
@[simp] theorem setDirty_coll (i : Nat) : (setDirty i y).coll = y.coll := rfl
@[simp] theorem setDirty_bur (i : Nat) : (setDirty i y).bur = y.bur := rfl
@[simp] theorem setDirty_nv (i : Nat) : (setDirty i y).nv = y.nv := rfl
@[simp] theorem setDirty_copy (i : Nat) : (setDirty i y).copy = y.copy := rfl
@[simp] theorem setDirty_own (i : Nat) : (setDirty i y).own = y.own := rfl
@[simp] theorem setDirty_sec (i : Nat) : (setDirty i y).sec = y.sec := rfl
@[simp] theorem setDirty_obs (i : Nat) : (setDirty i y).obs = y.obs := rfl
@[simp] theorem setDirty_free (i : Nat) : (setDirty i y).free = y.free := rfl

/-! An update of the time state. -/
@[simp] theorem onTime_t (f : TimeSt → TimeSt) : (onTime f y).t = f y.t := rfl
@[simp] theorem onTime_hs (f : TimeSt → TimeSt) : (onTime f y).hs = y.hs := rfl
@[simp] theorem onTime_pwr (f : TimeSt → TimeSt) : (onTime f y).pwr = y.pwr := rfl
@[simp] theorem onTime_pin (f : TimeSt → TimeSt) : (onTime f y).pin = y.pin := rfl
@[simp] theorem onTime_trd (f : TimeSt → TimeSt) : (onTime f y).trd = y.trd := rfl
@[simp] theorem onTime_svc (f : TimeSt → TimeSt) : (onTime f y).svc = y.svc := rfl
@[simp] theorem onTime_cr (f : TimeSt → TimeSt) : (onTime f y).cr = y.cr := rfl
@[simp] theorem onTime_cm (f : TimeSt → TimeSt) : (onTime f y).cm = y.cm := rfl
@[simp] theorem onTime_lck (f : TimeSt → TimeSt) : (onTime f y).lck = y.lck := rfl
@[simp] theorem onTime_mem (f : TimeSt → TimeSt) : (onTime f y).mem = y.mem := rfl
@[simp] theorem onTime_arb (f : TimeSt → TimeSt) : (onTime f y).arb = y.arb := rfl
@[simp] theorem onTime_eng (f : TimeSt → TimeSt) : (onTime f y).eng = y.eng := rfl
@[simp] theorem onTime_yarn (f : TimeSt → TimeSt) : (onTime f y).yarn = y.yarn := rfl
@[simp] theorem onTime_acc (f : TimeSt → TimeSt) : (onTime f y).acc = y.acc := rfl
@[simp] theorem onTime_vec (f : TimeSt → TimeSt) : (onTime f y).vec = y.vec := rfl
@[simp] theorem onTime_upd (f : TimeSt → TimeSt) : (onTime f y).upd = y.upd := rfl
@[simp] theorem onTime_smap (f : TimeSt → TimeSt) : (onTime f y).smap = y.smap := rfl
@[simp] theorem onTime_cen (f : TimeSt → TimeSt) : (onTime f y).cen = y.cen := rfl
@[simp] theorem onTime_lnk (f : TimeSt → TimeSt) : (onTime f y).lnk = y.lnk := rfl
@[simp] theorem onTime_coll (f : TimeSt → TimeSt) : (onTime f y).coll = y.coll := rfl
@[simp] theorem onTime_stp (f : TimeSt → TimeSt) : (onTime f y).stp = y.stp := rfl
@[simp] theorem onTime_bur (f : TimeSt → TimeSt) : (onTime f y).bur = y.bur := rfl
@[simp] theorem onTime_nv (f : TimeSt → TimeSt) : (onTime f y).nv = y.nv := rfl
@[simp] theorem onTime_copy (f : TimeSt → TimeSt) : (onTime f y).copy = y.copy := rfl
@[simp] theorem onTime_own (f : TimeSt → TimeSt) : (onTime f y).own = y.own := rfl
@[simp] theorem onTime_sec (f : TimeSt → TimeSt) : (onTime f y).sec = y.sec := rfl
@[simp] theorem onTime_obs (f : TimeSt → TimeSt) : (onTime f y).obs = y.obs := rfl
@[simp] theorem onTime_free (f : TimeSt → TimeSt) : (onTime f y).free = y.free := rfl

/-! An update of the memory registers of a die. -/
@[simp] theorem onDie_t (d : Nat) (f : MemDie → MemDie) : (onDie d f y).t = y.t := rfl
@[simp] theorem onDie_hs (d : Nat) (f : MemDie → MemDie) : (onDie d f y).hs = y.hs := rfl
@[simp] theorem onDie_pwr (d : Nat) (f : MemDie → MemDie) : (onDie d f y).pwr = y.pwr := rfl
@[simp] theorem onDie_pin (d : Nat) (f : MemDie → MemDie) : (onDie d f y).pin = y.pin := rfl
@[simp] theorem onDie_trd (d : Nat) (f : MemDie → MemDie) : (onDie d f y).trd = y.trd := rfl
@[simp] theorem onDie_svc (d : Nat) (f : MemDie → MemDie) : (onDie d f y).svc = y.svc := rfl
@[simp] theorem onDie_cr (d : Nat) (f : MemDie → MemDie) : (onDie d f y).cr = y.cr := rfl
@[simp] theorem onDie_cm (d : Nat) (f : MemDie → MemDie) : (onDie d f y).cm = y.cm := rfl
@[simp] theorem onDie_lck (d : Nat) (f : MemDie → MemDie) : (onDie d f y).lck = y.lck := rfl
@[simp] theorem onDie_arb (d : Nat) (f : MemDie → MemDie) : (onDie d f y).arb = y.arb := rfl
@[simp] theorem onDie_eng (d : Nat) (f : MemDie → MemDie) : (onDie d f y).eng = y.eng := rfl
@[simp] theorem onDie_yarn (d : Nat) (f : MemDie → MemDie) : (onDie d f y).yarn = y.yarn := rfl
@[simp] theorem onDie_acc (d : Nat) (f : MemDie → MemDie) : (onDie d f y).acc = y.acc := rfl
@[simp] theorem onDie_vec (d : Nat) (f : MemDie → MemDie) : (onDie d f y).vec = y.vec := rfl
@[simp] theorem onDie_upd (d : Nat) (f : MemDie → MemDie) : (onDie d f y).upd = y.upd := rfl
@[simp] theorem onDie_smap (d : Nat) (f : MemDie → MemDie) : (onDie d f y).smap = y.smap := rfl
@[simp] theorem onDie_cen (d : Nat) (f : MemDie → MemDie) : (onDie d f y).cen = y.cen := rfl
@[simp] theorem onDie_lnk (d : Nat) (f : MemDie → MemDie) : (onDie d f y).lnk = y.lnk := rfl
@[simp] theorem onDie_coll (d : Nat) (f : MemDie → MemDie) : (onDie d f y).coll = y.coll := rfl
@[simp] theorem onDie_stp (d : Nat) (f : MemDie → MemDie) : (onDie d f y).stp = y.stp := rfl
@[simp] theorem onDie_bur (d : Nat) (f : MemDie → MemDie) : (onDie d f y).bur = y.bur := rfl
@[simp] theorem onDie_nv (d : Nat) (f : MemDie → MemDie) : (onDie d f y).nv = y.nv := rfl
@[simp] theorem onDie_copy (d : Nat) (f : MemDie → MemDie) : (onDie d f y).copy = y.copy := rfl
@[simp] theorem onDie_own (d : Nat) (f : MemDie → MemDie) : (onDie d f y).own = y.own := rfl
@[simp] theorem onDie_sec (d : Nat) (f : MemDie → MemDie) : (onDie d f y).sec = y.sec := rfl
@[simp] theorem onDie_obs (d : Nat) (f : MemDie → MemDie) : (onDie d f y).obs = y.obs := rfl
@[simp] theorem onDie_free (d : Nat) (f : MemDie → MemDie) : (onDie d f y).free = y.free := rfl

/-! An update of a command. -/
@[simp] theorem modCmd_t (i : Nat) (f : Cmd → Cmd) : (modCmd i f y).t = y.t := rfl
@[simp] theorem modCmd_hs (i : Nat) (f : Cmd → Cmd) : (modCmd i f y).hs = y.hs := rfl
@[simp] theorem modCmd_pwr (i : Nat) (f : Cmd → Cmd) : (modCmd i f y).pwr = y.pwr := rfl
@[simp] theorem modCmd_pin (i : Nat) (f : Cmd → Cmd) : (modCmd i f y).pin = y.pin := rfl
@[simp] theorem modCmd_trd (i : Nat) (f : Cmd → Cmd) : (modCmd i f y).trd = y.trd := rfl
@[simp] theorem modCmd_svc (i : Nat) (f : Cmd → Cmd) : (modCmd i f y).svc = y.svc := rfl
@[simp] theorem modCmd_cr (i : Nat) (f : Cmd → Cmd) : (modCmd i f y).cr = y.cr := rfl
@[simp] theorem modCmd_lck (i : Nat) (f : Cmd → Cmd) : (modCmd i f y).lck = y.lck := rfl
@[simp] theorem modCmd_mem (i : Nat) (f : Cmd → Cmd) : (modCmd i f y).mem = y.mem := rfl
@[simp] theorem modCmd_arb (i : Nat) (f : Cmd → Cmd) : (modCmd i f y).arb = y.arb := rfl
@[simp] theorem modCmd_eng (i : Nat) (f : Cmd → Cmd) : (modCmd i f y).eng = y.eng := rfl
@[simp] theorem modCmd_yarn (i : Nat) (f : Cmd → Cmd) : (modCmd i f y).yarn = y.yarn := rfl
@[simp] theorem modCmd_acc (i : Nat) (f : Cmd → Cmd) : (modCmd i f y).acc = y.acc := rfl
@[simp] theorem modCmd_vec (i : Nat) (f : Cmd → Cmd) : (modCmd i f y).vec = y.vec := rfl
@[simp] theorem modCmd_upd (i : Nat) (f : Cmd → Cmd) : (modCmd i f y).upd = y.upd := rfl
@[simp] theorem modCmd_smap (i : Nat) (f : Cmd → Cmd) : (modCmd i f y).smap = y.smap := rfl
@[simp] theorem modCmd_cen (i : Nat) (f : Cmd → Cmd) : (modCmd i f y).cen = y.cen := rfl
@[simp] theorem modCmd_lnk (i : Nat) (f : Cmd → Cmd) : (modCmd i f y).lnk = y.lnk := rfl
@[simp] theorem modCmd_coll (i : Nat) (f : Cmd → Cmd) : (modCmd i f y).coll = y.coll := rfl
@[simp] theorem modCmd_stp (i : Nat) (f : Cmd → Cmd) : (modCmd i f y).stp = y.stp := rfl
@[simp] theorem modCmd_bur (i : Nat) (f : Cmd → Cmd) : (modCmd i f y).bur = y.bur := rfl
@[simp] theorem modCmd_nv (i : Nat) (f : Cmd → Cmd) : (modCmd i f y).nv = y.nv := rfl
@[simp] theorem modCmd_copy (i : Nat) (f : Cmd → Cmd) : (modCmd i f y).copy = y.copy := rfl
@[simp] theorem modCmd_own (i : Nat) (f : Cmd → Cmd) : (modCmd i f y).own = y.own := rfl
@[simp] theorem modCmd_sec (i : Nat) (f : Cmd → Cmd) : (modCmd i f y).sec = y.sec := rfl
@[simp] theorem modCmd_obs (i : Nat) (f : Cmd → Cmd) : (modCmd i f y).obs = y.obs := rfl
@[simp] theorem modCmd_free (i : Nat) (f : Cmd → Cmd) : (modCmd i f y).free = y.free := rfl

/-! An update of a bucket. -/
@[simp] theorem modBucket_t (i : Nat) (f : Bucket → Bucket) : (modBucket i f y).t = y.t := rfl
@[simp] theorem modBucket_hs (i : Nat) (f : Bucket → Bucket) : (modBucket i f y).hs = y.hs := rfl
@[simp] theorem modBucket_pwr (i : Nat) (f : Bucket → Bucket) : (modBucket i f y).pwr = y.pwr := rfl
@[simp] theorem modBucket_pin (i : Nat) (f : Bucket → Bucket) : (modBucket i f y).pin = y.pin := rfl
@[simp] theorem modBucket_trd (i : Nat) (f : Bucket → Bucket) : (modBucket i f y).trd = y.trd := rfl
@[simp] theorem modBucket_svc (i : Nat) (f : Bucket → Bucket) : (modBucket i f y).svc = y.svc := rfl
@[simp] theorem modBucket_cr (i : Nat) (f : Bucket → Bucket) : (modBucket i f y).cr = y.cr := rfl
@[simp] theorem modBucket_cm (i : Nat) (f : Bucket → Bucket) : (modBucket i f y).cm = y.cm := rfl
@[simp] theorem modBucket_lck (i : Nat) (f : Bucket → Bucket) : (modBucket i f y).lck = y.lck := rfl
@[simp] theorem modBucket_mem (i : Nat) (f : Bucket → Bucket) : (modBucket i f y).mem = y.mem := rfl
@[simp] theorem modBucket_arb (i : Nat) (f : Bucket → Bucket) : (modBucket i f y).arb = y.arb := rfl
@[simp] theorem modBucket_eng (i : Nat) (f : Bucket → Bucket) : (modBucket i f y).eng = y.eng := rfl
@[simp] theorem modBucket_yarn (i : Nat) (f : Bucket → Bucket) : (modBucket i f y).yarn = y.yarn := rfl
@[simp] theorem modBucket_acc (i : Nat) (f : Bucket → Bucket) : (modBucket i f y).acc = y.acc := rfl
@[simp] theorem modBucket_vec (i : Nat) (f : Bucket → Bucket) : (modBucket i f y).vec = y.vec := rfl
@[simp] theorem modBucket_upd (i : Nat) (f : Bucket → Bucket) : (modBucket i f y).upd = y.upd := rfl
@[simp] theorem modBucket_smap (i : Nat) (f : Bucket → Bucket) : (modBucket i f y).smap = y.smap := rfl
@[simp] theorem modBucket_cen (i : Nat) (f : Bucket → Bucket) : (modBucket i f y).cen = y.cen := rfl
@[simp] theorem modBucket_lnk (i : Nat) (f : Bucket → Bucket) : (modBucket i f y).lnk = y.lnk := rfl
@[simp] theorem modBucket_stp (i : Nat) (f : Bucket → Bucket) : (modBucket i f y).stp = y.stp := rfl
@[simp] theorem modBucket_bur (i : Nat) (f : Bucket → Bucket) : (modBucket i f y).bur = y.bur := rfl
@[simp] theorem modBucket_nv (i : Nat) (f : Bucket → Bucket) : (modBucket i f y).nv = y.nv := rfl
@[simp] theorem modBucket_copy (i : Nat) (f : Bucket → Bucket) : (modBucket i f y).copy = y.copy := rfl
@[simp] theorem modBucket_own (i : Nat) (f : Bucket → Bucket) : (modBucket i f y).own = y.own := rfl
@[simp] theorem modBucket_sec (i : Nat) (f : Bucket → Bucket) : (modBucket i f y).sec = y.sec := rfl
@[simp] theorem modBucket_obs (i : Nat) (f : Bucket → Bucket) : (modBucket i f y).obs = y.obs := rfl
@[simp] theorem modBucket_free (i : Nat) (f : Bucket → Bucket) : (modBucket i f y).free = y.free := rfl

/-! An update of the life counts. -/
@[simp] theorem onLife_t (f : LifeSt → LifeSt) : (onLife f y).t = y.t := rfl
@[simp] theorem onLife_hs (f : LifeSt → LifeSt) : (onLife f y).hs = y.hs := rfl
@[simp] theorem onLife_pwr (f : LifeSt → LifeSt) : (onLife f y).pwr = y.pwr := rfl
@[simp] theorem onLife_pin (f : LifeSt → LifeSt) : (onLife f y).pin = y.pin := rfl
@[simp] theorem onLife_trd (f : LifeSt → LifeSt) : (onLife f y).trd = y.trd := rfl
@[simp] theorem onLife_svc (f : LifeSt → LifeSt) : (onLife f y).svc = y.svc := rfl
@[simp] theorem onLife_cr (f : LifeSt → LifeSt) : (onLife f y).cr = y.cr := rfl
@[simp] theorem onLife_cm (f : LifeSt → LifeSt) : (onLife f y).cm = y.cm := rfl
@[simp] theorem onLife_lck (f : LifeSt → LifeSt) : (onLife f y).lck = y.lck := rfl
@[simp] theorem onLife_mem (f : LifeSt → LifeSt) : (onLife f y).mem = y.mem := rfl
@[simp] theorem onLife_arb (f : LifeSt → LifeSt) : (onLife f y).arb = y.arb := rfl
@[simp] theorem onLife_eng (f : LifeSt → LifeSt) : (onLife f y).eng = y.eng := rfl
@[simp] theorem onLife_yarn (f : LifeSt → LifeSt) : (onLife f y).yarn = y.yarn := rfl
@[simp] theorem onLife_acc (f : LifeSt → LifeSt) : (onLife f y).acc = y.acc := rfl
@[simp] theorem onLife_vec (f : LifeSt → LifeSt) : (onLife f y).vec = y.vec := rfl
@[simp] theorem onLife_upd (f : LifeSt → LifeSt) : (onLife f y).upd = y.upd := rfl
@[simp] theorem onLife_smap (f : LifeSt → LifeSt) : (onLife f y).smap = y.smap := rfl
@[simp] theorem onLife_cen (f : LifeSt → LifeSt) : (onLife f y).cen = y.cen := rfl
@[simp] theorem onLife_lnk (f : LifeSt → LifeSt) : (onLife f y).lnk = y.lnk := rfl
@[simp] theorem onLife_coll (f : LifeSt → LifeSt) : (onLife f y).coll = y.coll := rfl
@[simp] theorem onLife_stp (f : LifeSt → LifeSt) : (onLife f y).stp = y.stp := rfl
@[simp] theorem onLife_bur (f : LifeSt → LifeSt) : (onLife f y).bur = y.bur := rfl
@[simp] theorem onLife_nv (f : LifeSt → LifeSt) : (onLife f y).nv = { y.nv with life := f y.nv.life } := rfl
@[simp] theorem onLife_copy (f : LifeSt → LifeSt) : (onLife f y).copy = y.copy := rfl
@[simp] theorem onLife_own (f : LifeSt → LifeSt) : (onLife f y).own = y.own := rfl
@[simp] theorem onLife_sec (f : LifeSt → LifeSt) : (onLife f y).sec = y.sec := rfl
@[simp] theorem onLife_obs (f : LifeSt → LifeSt) : (onLife f y).obs = y.obs := rfl
@[simp] theorem onLife_free (f : LifeSt → LifeSt) : (onLife f y).free = y.free := rfl

/-! An update of the counters of a source. -/
@[simp] theorem onCtr_t (c i : Nat) (f : Counters → Counters) : (onCtr c i f y).t = y.t := rfl
@[simp] theorem onCtr_hs (c i : Nat) (f : Counters → Counters) : (onCtr c i f y).hs = y.hs := rfl
@[simp] theorem onCtr_pwr (c i : Nat) (f : Counters → Counters) : (onCtr c i f y).pwr = y.pwr := rfl
@[simp] theorem onCtr_pin (c i : Nat) (f : Counters → Counters) : (onCtr c i f y).pin = y.pin := rfl
@[simp] theorem onCtr_trd (c i : Nat) (f : Counters → Counters) : (onCtr c i f y).trd = y.trd := rfl
@[simp] theorem onCtr_svc (c i : Nat) (f : Counters → Counters) : (onCtr c i f y).svc = y.svc := rfl
@[simp] theorem onCtr_cr (c i : Nat) (f : Counters → Counters) : (onCtr c i f y).cr = y.cr := rfl
@[simp] theorem onCtr_cm (c i : Nat) (f : Counters → Counters) : (onCtr c i f y).cm = y.cm := rfl
@[simp] theorem onCtr_lck (c i : Nat) (f : Counters → Counters) : (onCtr c i f y).lck = y.lck := rfl
@[simp] theorem onCtr_mem (c i : Nat) (f : Counters → Counters) : (onCtr c i f y).mem = y.mem := rfl
@[simp] theorem onCtr_arb (c i : Nat) (f : Counters → Counters) : (onCtr c i f y).arb = y.arb := rfl
@[simp] theorem onCtr_eng (c i : Nat) (f : Counters → Counters) : (onCtr c i f y).eng = y.eng := rfl
@[simp] theorem onCtr_yarn (c i : Nat) (f : Counters → Counters) : (onCtr c i f y).yarn = y.yarn := rfl
@[simp] theorem onCtr_acc (c i : Nat) (f : Counters → Counters) : (onCtr c i f y).acc = y.acc := rfl
@[simp] theorem onCtr_vec (c i : Nat) (f : Counters → Counters) : (onCtr c i f y).vec = y.vec := rfl
@[simp] theorem onCtr_upd (c i : Nat) (f : Counters → Counters) : (onCtr c i f y).upd = y.upd := rfl
@[simp] theorem onCtr_smap (c i : Nat) (f : Counters → Counters) : (onCtr c i f y).smap = y.smap := rfl
@[simp] theorem onCtr_cen (c i : Nat) (f : Counters → Counters) : (onCtr c i f y).cen = y.cen := rfl
@[simp] theorem onCtr_lnk (c i : Nat) (f : Counters → Counters) : (onCtr c i f y).lnk = y.lnk := rfl
@[simp] theorem onCtr_coll (c i : Nat) (f : Counters → Counters) : (onCtr c i f y).coll = y.coll := rfl
@[simp] theorem onCtr_stp (c i : Nat) (f : Counters → Counters) : (onCtr c i f y).stp = y.stp := rfl
@[simp] theorem onCtr_bur (c i : Nat) (f : Counters → Counters) : (onCtr c i f y).bur = y.bur := rfl
@[simp] theorem onCtr_nv (c i : Nat) (f : Counters → Counters) : (onCtr c i f y).nv = y.nv := rfl
@[simp] theorem onCtr_copy (c i : Nat) (f : Counters → Counters) : (onCtr c i f y).copy = y.copy := rfl
@[simp] theorem onCtr_own (c i : Nat) (f : Counters → Counters) : (onCtr c i f y).own = y.own := rfl
@[simp] theorem onCtr_sec (c i : Nat) (f : Counters → Counters) : (onCtr c i f y).sec = y.sec := rfl
@[simp] theorem onCtr_free (c i : Nat) (f : Counters → Counters) : (onCtr c i f y).free = y.free := rfl

/-! An update of a headstock's own MRAM. -/
@[simp] theorem onOwn_t (h : Nat) (f : HeadMram → HeadMram) : (onOwn h f y).t = y.t := rfl
@[simp] theorem onOwn_hs (h : Nat) (f : HeadMram → HeadMram) : (onOwn h f y).hs = y.hs := rfl
@[simp] theorem onOwn_pwr (h : Nat) (f : HeadMram → HeadMram) : (onOwn h f y).pwr = y.pwr := rfl
@[simp] theorem onOwn_pin (h : Nat) (f : HeadMram → HeadMram) : (onOwn h f y).pin = y.pin := rfl
@[simp] theorem onOwn_trd (h : Nat) (f : HeadMram → HeadMram) : (onOwn h f y).trd = y.trd := rfl
@[simp] theorem onOwn_svc (h : Nat) (f : HeadMram → HeadMram) : (onOwn h f y).svc = y.svc := rfl
@[simp] theorem onOwn_cr (h : Nat) (f : HeadMram → HeadMram) : (onOwn h f y).cr = y.cr := rfl
@[simp] theorem onOwn_cm (h : Nat) (f : HeadMram → HeadMram) : (onOwn h f y).cm = y.cm := rfl
@[simp] theorem onOwn_lck (h : Nat) (f : HeadMram → HeadMram) : (onOwn h f y).lck = y.lck := rfl
@[simp] theorem onOwn_mem (h : Nat) (f : HeadMram → HeadMram) : (onOwn h f y).mem = y.mem := rfl
@[simp] theorem onOwn_arb (h : Nat) (f : HeadMram → HeadMram) : (onOwn h f y).arb = y.arb := rfl
@[simp] theorem onOwn_eng (h : Nat) (f : HeadMram → HeadMram) : (onOwn h f y).eng = y.eng := rfl
@[simp] theorem onOwn_yarn (h : Nat) (f : HeadMram → HeadMram) : (onOwn h f y).yarn = y.yarn := rfl
@[simp] theorem onOwn_acc (h : Nat) (f : HeadMram → HeadMram) : (onOwn h f y).acc = y.acc := rfl
@[simp] theorem onOwn_vec (h : Nat) (f : HeadMram → HeadMram) : (onOwn h f y).vec = y.vec := rfl
@[simp] theorem onOwn_upd (h : Nat) (f : HeadMram → HeadMram) : (onOwn h f y).upd = y.upd := rfl
@[simp] theorem onOwn_smap (h : Nat) (f : HeadMram → HeadMram) : (onOwn h f y).smap = y.smap := rfl
@[simp] theorem onOwn_cen (h : Nat) (f : HeadMram → HeadMram) : (onOwn h f y).cen = y.cen := rfl
@[simp] theorem onOwn_lnk (h : Nat) (f : HeadMram → HeadMram) : (onOwn h f y).lnk = y.lnk := rfl
@[simp] theorem onOwn_coll (h : Nat) (f : HeadMram → HeadMram) : (onOwn h f y).coll = y.coll := rfl
@[simp] theorem onOwn_stp (h : Nat) (f : HeadMram → HeadMram) : (onOwn h f y).stp = y.stp := rfl
@[simp] theorem onOwn_bur (h : Nat) (f : HeadMram → HeadMram) : (onOwn h f y).bur = y.bur := rfl
@[simp] theorem onOwn_nv (h : Nat) (f : HeadMram → HeadMram) : (onOwn h f y).nv = y.nv := rfl
@[simp] theorem onOwn_copy (h : Nat) (f : HeadMram → HeadMram) : (onOwn h f y).copy = y.copy := rfl
@[simp] theorem onOwn_sec (h : Nat) (f : HeadMram → HeadMram) : (onOwn h f y).sec = y.sec := rfl
@[simp] theorem onOwn_obs (h : Nat) (f : HeadMram → HeadMram) : (onOwn h f y).obs = y.obs := rfl
@[simp] theorem onOwn_free (h : Nat) (f : HeadMram → HeadMram) : (onOwn h f y).free = y.free := rfl

/-! An update of how a headstock's boot ended. -/
@[simp] theorem onBoot_t (h : Nat) (f : HsBoot → HsBoot) : (onBoot h f y).t = y.t := rfl
@[simp] theorem onBoot_hs (h : Nat) (f : HsBoot → HsBoot) : (onBoot h f y).hs = y.hs := rfl
@[simp] theorem onBoot_pwr (h : Nat) (f : HsBoot → HsBoot) : (onBoot h f y).pwr = y.pwr := rfl
@[simp] theorem onBoot_pin (h : Nat) (f : HsBoot → HsBoot) : (onBoot h f y).pin = y.pin := rfl
@[simp] theorem onBoot_trd (h : Nat) (f : HsBoot → HsBoot) : (onBoot h f y).trd = y.trd := rfl
@[simp] theorem onBoot_svc (h : Nat) (f : HsBoot → HsBoot) : (onBoot h f y).svc = y.svc := rfl
@[simp] theorem onBoot_cr (h : Nat) (f : HsBoot → HsBoot) : (onBoot h f y).cr = y.cr := rfl
@[simp] theorem onBoot_cm (h : Nat) (f : HsBoot → HsBoot) : (onBoot h f y).cm = y.cm := rfl
@[simp] theorem onBoot_lck (h : Nat) (f : HsBoot → HsBoot) : (onBoot h f y).lck = y.lck := rfl
@[simp] theorem onBoot_mem (h : Nat) (f : HsBoot → HsBoot) : (onBoot h f y).mem = y.mem := rfl
@[simp] theorem onBoot_arb (h : Nat) (f : HsBoot → HsBoot) : (onBoot h f y).arb = y.arb := rfl
@[simp] theorem onBoot_eng (h : Nat) (f : HsBoot → HsBoot) : (onBoot h f y).eng = y.eng := rfl
@[simp] theorem onBoot_yarn (h : Nat) (f : HsBoot → HsBoot) : (onBoot h f y).yarn = y.yarn := rfl
@[simp] theorem onBoot_acc (h : Nat) (f : HsBoot → HsBoot) : (onBoot h f y).acc = y.acc := rfl
@[simp] theorem onBoot_vec (h : Nat) (f : HsBoot → HsBoot) : (onBoot h f y).vec = y.vec := rfl
@[simp] theorem onBoot_upd (h : Nat) (f : HsBoot → HsBoot) : (onBoot h f y).upd = y.upd := rfl
@[simp] theorem onBoot_smap (h : Nat) (f : HsBoot → HsBoot) : (onBoot h f y).smap = y.smap := rfl
@[simp] theorem onBoot_cen (h : Nat) (f : HsBoot → HsBoot) : (onBoot h f y).cen = y.cen := rfl
@[simp] theorem onBoot_lnk (h : Nat) (f : HsBoot → HsBoot) : (onBoot h f y).lnk = y.lnk := rfl
@[simp] theorem onBoot_coll (h : Nat) (f : HsBoot → HsBoot) : (onBoot h f y).coll = y.coll := rfl
@[simp] theorem onBoot_stp (h : Nat) (f : HsBoot → HsBoot) : (onBoot h f y).stp = y.stp := rfl
@[simp] theorem onBoot_bur (h : Nat) (f : HsBoot → HsBoot) : (onBoot h f y).bur = y.bur := rfl
@[simp] theorem onBoot_nv (h : Nat) (f : HsBoot → HsBoot) : (onBoot h f y).nv = y.nv := rfl
@[simp] theorem onBoot_copy (h : Nat) (f : HsBoot → HsBoot) : (onBoot h f y).copy = y.copy := rfl
@[simp] theorem onBoot_own (h : Nat) (f : HsBoot → HsBoot) : (onBoot h f y).own = y.own := rfl
@[simp] theorem onBoot_obs (h : Nat) (f : HsBoot → HsBoot) : (onBoot h f y).obs = y.obs := rfl
@[simp] theorem onBoot_free (h : Nat) (f : HsBoot → HsBoot) : (onBoot h f y).free = y.free := rfl

/-! An update of the thermal state of a die. -/
@[simp] theorem setTherm_t (d : Nat) (x : ThermDie) : (setTherm d x y).t = y.t := rfl
@[simp] theorem setTherm_hs (d : Nat) (x : ThermDie) : (setTherm d x y).hs = y.hs := rfl
@[simp] theorem setTherm_pin (d : Nat) (x : ThermDie) : (setTherm d x y).pin = y.pin := rfl
@[simp] theorem setTherm_trd (d : Nat) (x : ThermDie) : (setTherm d x y).trd = y.trd := rfl
@[simp] theorem setTherm_svc (d : Nat) (x : ThermDie) : (setTherm d x y).svc = y.svc := rfl
@[simp] theorem setTherm_cr (d : Nat) (x : ThermDie) : (setTherm d x y).cr = y.cr := rfl
@[simp] theorem setTherm_cm (d : Nat) (x : ThermDie) : (setTherm d x y).cm = y.cm := rfl
@[simp] theorem setTherm_lck (d : Nat) (x : ThermDie) : (setTherm d x y).lck = y.lck := rfl
@[simp] theorem setTherm_mem (d : Nat) (x : ThermDie) : (setTherm d x y).mem = y.mem := rfl
@[simp] theorem setTherm_arb (d : Nat) (x : ThermDie) : (setTherm d x y).arb = y.arb := rfl
@[simp] theorem setTherm_eng (d : Nat) (x : ThermDie) : (setTherm d x y).eng = y.eng := rfl
@[simp] theorem setTherm_yarn (d : Nat) (x : ThermDie) : (setTherm d x y).yarn = y.yarn := rfl
@[simp] theorem setTherm_acc (d : Nat) (x : ThermDie) : (setTherm d x y).acc = y.acc := rfl
@[simp] theorem setTherm_vec (d : Nat) (x : ThermDie) : (setTherm d x y).vec = y.vec := rfl
@[simp] theorem setTherm_upd (d : Nat) (x : ThermDie) : (setTherm d x y).upd = y.upd := rfl
@[simp] theorem setTherm_smap (d : Nat) (x : ThermDie) : (setTherm d x y).smap = y.smap := rfl
@[simp] theorem setTherm_cen (d : Nat) (x : ThermDie) : (setTherm d x y).cen = y.cen := rfl
@[simp] theorem setTherm_lnk (d : Nat) (x : ThermDie) : (setTherm d x y).lnk = y.lnk := rfl
@[simp] theorem setTherm_coll (d : Nat) (x : ThermDie) : (setTherm d x y).coll = y.coll := rfl
@[simp] theorem setTherm_stp (d : Nat) (x : ThermDie) : (setTherm d x y).stp = y.stp := rfl
@[simp] theorem setTherm_bur (d : Nat) (x : ThermDie) : (setTherm d x y).bur = y.bur := rfl
@[simp] theorem setTherm_nv (d : Nat) (x : ThermDie) : (setTherm d x y).nv = y.nv := rfl
@[simp] theorem setTherm_copy (d : Nat) (x : ThermDie) : (setTherm d x y).copy = y.copy := rfl
@[simp] theorem setTherm_own (d : Nat) (x : ThermDie) : (setTherm d x y).own = y.own := rfl
@[simp] theorem setTherm_sec (d : Nat) (x : ThermDie) : (setTherm d x y).sec = y.sec := rfl
@[simp] theorem setTherm_obs (d : Nat) (x : ThermDie) : (setTherm d x y).obs = y.obs := rfl
@[simp] theorem setTherm_free (d : Nat) (x : ThermDie) : (setTherm d x y).free = y.free := rfl

/-! An update of a warp port. -/
@[simp] theorem onPort_t (w : Nat) (f : PortSt → PortSt) : (onPort w f y).t = y.t := rfl
@[simp] theorem onPort_hs (w : Nat) (f : PortSt → PortSt) : (onPort w f y).hs = y.hs := rfl
@[simp] theorem onPort_pwr (w : Nat) (f : PortSt → PortSt) : (onPort w f y).pwr = y.pwr := rfl
@[simp] theorem onPort_pin (w : Nat) (f : PortSt → PortSt) : (onPort w f y).pin = y.pin := rfl
@[simp] theorem onPort_trd (w : Nat) (f : PortSt → PortSt) : (onPort w f y).trd = y.trd := rfl
@[simp] theorem onPort_svc (w : Nat) (f : PortSt → PortSt) : (onPort w f y).svc = y.svc := rfl
@[simp] theorem onPort_cr (w : Nat) (f : PortSt → PortSt) : (onPort w f y).cr = y.cr := rfl
@[simp] theorem onPort_cm (w : Nat) (f : PortSt → PortSt) : (onPort w f y).cm = y.cm := rfl
@[simp] theorem onPort_lck (w : Nat) (f : PortSt → PortSt) : (onPort w f y).lck = y.lck := rfl
@[simp] theorem onPort_mem (w : Nat) (f : PortSt → PortSt) : (onPort w f y).mem = y.mem := rfl
@[simp] theorem onPort_arb (w : Nat) (f : PortSt → PortSt) : (onPort w f y).arb = y.arb := rfl
@[simp] theorem onPort_eng (w : Nat) (f : PortSt → PortSt) : (onPort w f y).eng = y.eng := rfl
@[simp] theorem onPort_yarn (w : Nat) (f : PortSt → PortSt) : (onPort w f y).yarn = y.yarn := rfl
@[simp] theorem onPort_acc (w : Nat) (f : PortSt → PortSt) : (onPort w f y).acc = y.acc := rfl
@[simp] theorem onPort_vec (w : Nat) (f : PortSt → PortSt) : (onPort w f y).vec = y.vec := rfl
@[simp] theorem onPort_upd (w : Nat) (f : PortSt → PortSt) : (onPort w f y).upd = y.upd := rfl
@[simp] theorem onPort_smap (w : Nat) (f : PortSt → PortSt) : (onPort w f y).smap = y.smap := rfl
@[simp] theorem onPort_cen (w : Nat) (f : PortSt → PortSt) : (onPort w f y).cen = y.cen := rfl
@[simp] theorem onPort_coll (w : Nat) (f : PortSt → PortSt) : (onPort w f y).coll = y.coll := rfl
@[simp] theorem onPort_stp (w : Nat) (f : PortSt → PortSt) : (onPort w f y).stp = y.stp := rfl
@[simp] theorem onPort_bur (w : Nat) (f : PortSt → PortSt) : (onPort w f y).bur = y.bur := rfl
@[simp] theorem onPort_nv (w : Nat) (f : PortSt → PortSt) : (onPort w f y).nv = y.nv := rfl
@[simp] theorem onPort_copy (w : Nat) (f : PortSt → PortSt) : (onPort w f y).copy = y.copy := rfl
@[simp] theorem onPort_own (w : Nat) (f : PortSt → PortSt) : (onPort w f y).own = y.own := rfl
@[simp] theorem onPort_sec (w : Nat) (f : PortSt → PortSt) : (onPort w f y).sec = y.sec := rfl
@[simp] theorem onPort_obs (w : Nat) (f : PortSt → PortSt) : (onPort w f y).obs = y.obs := rfl
@[simp] theorem onPort_free (w : Nat) (f : PortSt → PortSt) : (onPort w f y).free = y.free := rfl

/-! An update of the translation in force to that of a running command. -/
@[simp] theorem viewed_t (c : Cmd) : (viewed c y).t = y.t := rfl
@[simp] theorem viewed_hs (c : Cmd) : (viewed c y).hs = y.hs := rfl
@[simp] theorem viewed_pwr (c : Cmd) : (viewed c y).pwr = y.pwr := rfl
@[simp] theorem viewed_pin (c : Cmd) : (viewed c y).pin = y.pin := rfl
@[simp] theorem viewed_trd (c : Cmd) : (viewed c y).trd = y.trd := rfl
@[simp] theorem viewed_svc (c : Cmd) : (viewed c y).svc = y.svc := rfl
@[simp] theorem viewed_cr (c : Cmd) : (viewed c y).cr = y.cr := rfl
@[simp] theorem viewed_cm (c : Cmd) : (viewed c y).cm = y.cm := rfl
@[simp] theorem viewed_lck (c : Cmd) : (viewed c y).lck = y.lck := rfl
@[simp] theorem viewed_mem (c : Cmd) : (viewed c y).mem = y.mem := rfl
@[simp] theorem viewed_arb (c : Cmd) : (viewed c y).arb = y.arb := rfl
@[simp] theorem viewed_eng (c : Cmd) : (viewed c y).eng = y.eng := rfl
@[simp] theorem viewed_yarn (c : Cmd) : (viewed c y).yarn = y.yarn := rfl
@[simp] theorem viewed_acc (c : Cmd) : (viewed c y).acc = y.acc := rfl
@[simp] theorem viewed_vec (c : Cmd) : (viewed c y).vec = y.vec := rfl
@[simp] theorem viewed_upd (c : Cmd) : (viewed c y).upd = y.upd := rfl
@[simp] theorem viewed_smap (c : Cmd) : (viewed c y).smap = { y.smap with view := c.kept } := rfl
@[simp] theorem viewed_cen (c : Cmd) : (viewed c y).cen = y.cen := rfl
@[simp] theorem viewed_lnk (c : Cmd) : (viewed c y).lnk = y.lnk := rfl
@[simp] theorem viewed_coll (c : Cmd) : (viewed c y).coll = y.coll := rfl
@[simp] theorem viewed_stp (c : Cmd) : (viewed c y).stp = y.stp := rfl
@[simp] theorem viewed_bur (c : Cmd) : (viewed c y).bur = y.bur := rfl
@[simp] theorem viewed_nv (c : Cmd) : (viewed c y).nv = y.nv := rfl
@[simp] theorem viewed_copy (c : Cmd) : (viewed c y).copy = y.copy := rfl
@[simp] theorem viewed_own (c : Cmd) : (viewed c y).own = y.own := rfl
@[simp] theorem viewed_sec (c : Cmd) : (viewed c y).sec = y.sec := rfl
@[simp] theorem viewed_obs (c : Cmd) : (viewed c y).obs = y.obs := rfl
@[simp] theorem viewed_free (c : Cmd) : (viewed c y).free = y.free := rfl

/-! An update of the translation in force. -/
@[simp] theorem unview_t  : (unview y).t = y.t := rfl
@[simp] theorem unview_hs  : (unview y).hs = y.hs := rfl
@[simp] theorem unview_pwr  : (unview y).pwr = y.pwr := rfl
@[simp] theorem unview_pin  : (unview y).pin = y.pin := rfl
@[simp] theorem unview_trd  : (unview y).trd = y.trd := rfl
@[simp] theorem unview_svc  : (unview y).svc = y.svc := rfl
@[simp] theorem unview_cr  : (unview y).cr = y.cr := rfl
@[simp] theorem unview_cm  : (unview y).cm = y.cm := rfl
@[simp] theorem unview_lck  : (unview y).lck = y.lck := rfl
@[simp] theorem unview_mem  : (unview y).mem = y.mem := rfl
@[simp] theorem unview_arb  : (unview y).arb = y.arb := rfl
@[simp] theorem unview_eng  : (unview y).eng = y.eng := rfl
@[simp] theorem unview_yarn  : (unview y).yarn = y.yarn := rfl
@[simp] theorem unview_acc  : (unview y).acc = y.acc := rfl
@[simp] theorem unview_vec  : (unview y).vec = y.vec := rfl
@[simp] theorem unview_upd  : (unview y).upd = y.upd := rfl
@[simp] theorem unview_smap  : (unview y).smap = { y.smap with view := [] } := rfl
@[simp] theorem unview_cen  : (unview y).cen = y.cen := rfl
@[simp] theorem unview_lnk  : (unview y).lnk = y.lnk := rfl
@[simp] theorem unview_coll  : (unview y).coll = y.coll := rfl
@[simp] theorem unview_stp  : (unview y).stp = y.stp := rfl
@[simp] theorem unview_bur  : (unview y).bur = y.bur := rfl
@[simp] theorem unview_nv  : (unview y).nv = y.nv := rfl
@[simp] theorem unview_copy  : (unview y).copy = y.copy := rfl
@[simp] theorem unview_own  : (unview y).own = y.own := rfl
@[simp] theorem unview_sec  : (unview y).sec = y.sec := rfl
@[simp] theorem unview_obs  : (unview y).obs = y.obs := rfl
@[simp] theorem unview_free  : (unview y).free = y.free := rfl

/-! An update of the digests of the state map. -/
@[simp] theorem addDigests_t (w : SMap Byte) : (addDigests w y).t = y.t := rfl
@[simp] theorem addDigests_hs (w : SMap Byte) : (addDigests w y).hs = y.hs := rfl
@[simp] theorem addDigests_pwr (w : SMap Byte) : (addDigests w y).pwr = y.pwr := rfl
@[simp] theorem addDigests_pin (w : SMap Byte) : (addDigests w y).pin = y.pin := rfl
@[simp] theorem addDigests_trd (w : SMap Byte) : (addDigests w y).trd = y.trd := rfl
@[simp] theorem addDigests_svc (w : SMap Byte) : (addDigests w y).svc = y.svc := rfl
@[simp] theorem addDigests_cr (w : SMap Byte) : (addDigests w y).cr = y.cr := rfl
@[simp] theorem addDigests_cm (w : SMap Byte) : (addDigests w y).cm = y.cm := rfl
@[simp] theorem addDigests_lck (w : SMap Byte) : (addDigests w y).lck = y.lck := rfl
@[simp] theorem addDigests_mem (w : SMap Byte) : (addDigests w y).mem = y.mem := rfl
@[simp] theorem addDigests_arb (w : SMap Byte) : (addDigests w y).arb = y.arb := rfl
@[simp] theorem addDigests_eng (w : SMap Byte) : (addDigests w y).eng = y.eng := rfl
@[simp] theorem addDigests_yarn (w : SMap Byte) : (addDigests w y).yarn = y.yarn := rfl
@[simp] theorem addDigests_acc (w : SMap Byte) : (addDigests w y).acc = y.acc := rfl
@[simp] theorem addDigests_vec (w : SMap Byte) : (addDigests w y).vec = y.vec := rfl
@[simp] theorem addDigests_upd (w : SMap Byte) : (addDigests w y).upd = y.upd := rfl
@[simp] theorem addDigests_cen (w : SMap Byte) : (addDigests w y).cen = y.cen := rfl
@[simp] theorem addDigests_lnk (w : SMap Byte) : (addDigests w y).lnk = y.lnk := rfl
@[simp] theorem addDigests_coll (w : SMap Byte) : (addDigests w y).coll = y.coll := rfl
@[simp] theorem addDigests_stp (w : SMap Byte) : (addDigests w y).stp = y.stp := rfl
@[simp] theorem addDigests_bur (w : SMap Byte) : (addDigests w y).bur = y.bur := rfl
@[simp] theorem addDigests_nv (w : SMap Byte) : (addDigests w y).nv = y.nv := rfl
@[simp] theorem addDigests_copy (w : SMap Byte) : (addDigests w y).copy = y.copy := rfl
@[simp] theorem addDigests_own (w : SMap Byte) : (addDigests w y).own = y.own := rfl
@[simp] theorem addDigests_sec (w : SMap Byte) : (addDigests w y).sec = y.sec := rfl
@[simp] theorem addDigests_obs (w : SMap Byte) : (addDigests w y).obs = y.obs := rfl
@[simp] theorem addDigests_free (w : SMap Byte) : (addDigests w y).free = y.free := rfl

/-! An update of a session. -/
@[simp] theorem setSess_t (b : Bool) (s : Session) : (setSess y b s).t = y.t := by cases b <;> rfl
@[simp] theorem setSess_hs (b : Bool) (s : Session) : (setSess y b s).hs = y.hs := by cases b <;> rfl
@[simp] theorem setSess_pwr (b : Bool) (s : Session) : (setSess y b s).pwr = y.pwr := by cases b <;> rfl
@[simp] theorem setSess_pin (b : Bool) (s : Session) : (setSess y b s).pin = y.pin := by cases b <;> rfl
@[simp] theorem setSess_cr (b : Bool) (s : Session) : (setSess y b s).cr = y.cr := by cases b <;> rfl
@[simp] theorem setSess_cm (b : Bool) (s : Session) : (setSess y b s).cm = y.cm := by cases b <;> rfl
@[simp] theorem setSess_lck (b : Bool) (s : Session) : (setSess y b s).lck = y.lck := by cases b <;> rfl
@[simp] theorem setSess_mem (b : Bool) (s : Session) : (setSess y b s).mem = y.mem := by cases b <;> rfl
@[simp] theorem setSess_arb (b : Bool) (s : Session) : (setSess y b s).arb = y.arb := by cases b <;> rfl
@[simp] theorem setSess_eng (b : Bool) (s : Session) : (setSess y b s).eng = y.eng := by cases b <;> rfl
@[simp] theorem setSess_yarn (b : Bool) (s : Session) : (setSess y b s).yarn = y.yarn := by cases b <;> rfl
@[simp] theorem setSess_acc (b : Bool) (s : Session) : (setSess y b s).acc = y.acc := by cases b <;> rfl
@[simp] theorem setSess_vec (b : Bool) (s : Session) : (setSess y b s).vec = y.vec := by cases b <;> rfl
@[simp] theorem setSess_upd (b : Bool) (s : Session) : (setSess y b s).upd = y.upd := by cases b <;> rfl
@[simp] theorem setSess_smap (b : Bool) (s : Session) : (setSess y b s).smap = y.smap := by cases b <;> rfl
@[simp] theorem setSess_cen (b : Bool) (s : Session) : (setSess y b s).cen = y.cen := by cases b <;> rfl
@[simp] theorem setSess_lnk (b : Bool) (s : Session) : (setSess y b s).lnk = y.lnk := by cases b <;> rfl
@[simp] theorem setSess_coll (b : Bool) (s : Session) : (setSess y b s).coll = y.coll := by cases b <;> rfl
@[simp] theorem setSess_stp (b : Bool) (s : Session) : (setSess y b s).stp = y.stp := by cases b <;> rfl
@[simp] theorem setSess_bur (b : Bool) (s : Session) : (setSess y b s).bur = y.bur := by cases b <;> rfl
@[simp] theorem setSess_nv (b : Bool) (s : Session) : (setSess y b s).nv = y.nv := by cases b <;> rfl
@[simp] theorem setSess_copy (b : Bool) (s : Session) : (setSess y b s).copy = y.copy := by cases b <;> rfl
@[simp] theorem setSess_own (b : Bool) (s : Session) : (setSess y b s).own = y.own := by cases b <;> rfl
@[simp] theorem setSess_sec (b : Bool) (s : Session) : (setSess y b s).sec = y.sec := by cases b <;> rfl
@[simp] theorem setSess_obs (b : Bool) (s : Session) : (setSess y b s).obs = y.obs := by cases b <;> rfl
@[simp] theorem setSess_free (b : Bool) (s : Session) : (setSess y b s).free = y.free := by cases b <;> rfl
@[simp] theorem sessOf_setSess (b : Bool) (s : Session) : sessOf (setSess y b s) b = s := by cases b <;> rfl
@[simp] theorem sessOf_setSess_not (b : Bool) (s : Session) : sessOf (setSess y b s) (!b) = sessOf y (!b) := by cases b <;> rfl

/-! The two forms of a meaning. -/
@[simp] theorem onSys_next (s t : State) (f : Perm → Sys → Sys) :
    onSys s f = .next t ↔ t = { s with sys := f s.perm s.sys } := by
  constructor
  · intro h; injection h with h; exact h.symm
  · rintro rfl; rfl

@[simp] theorem onAll_next (s t : State) (f : Perm → Sys → Perm × Sys) :
    onAll s f = .next t ↔ t = { s with perm := (f s.perm s.sys).1, sys := (f s.perm s.sys).2 } := by
  constructor
  · intro h; injection h with h; exact h.symm
  · rintro rfl; rfl

end

end Sys2Proof.Laws
end

