-- ==== Sys2Proof/Laws/Memory.lean ====
section
/-! SUPPORT. Memory: a byte reads back, other bytes stay, and every memory operation keeps the canonical form. -/

namespace Sys2Proof.Laws

open Sys2Proof Sys2Proof.Machine Sys2Proof.Safety

/-! ### Cells -/

@[simp] theorem putCell_unspec (m : MemSt) (a : Nat) (b : Byte) : (putCell m a b).unspec = m.unspec := by
  unfold putCell; split <;> rfl

@[simp] theorem putCell_poison (m : MemSt) (a : Nat) (b : Byte) : (putCell m a b).poison = m.poison := by
  unfold putCell; split <;> rfl

@[simp] theorem putCell_badWords (m : MemSt) (a : Nat) (b : Byte) : (putCell m a b).badWords = m.badWords := by
  unfold putCell; split <;> rfl

@[simp] theorem putCells_unspec (bs : List Byte) : ∀ (m : MemSt) (a : Nat), (putCells m a bs).unspec = m.unspec := by
  induction bs with
  | nil => intros; rfl
  | cons b r ih => intro m a; rw [putCells, ih, putCell_unspec]

@[simp] theorem putCells_poison (bs : List Byte) : ∀ (m : MemSt) (a : Nat), (putCells m a bs).poison = m.poison := by
  induction bs with
  | nil => intros; rfl
  | cons b r ih => intro m a; rw [putCells, ih, putCell_poison]

@[simp] theorem putCells_badWords (bs : List Byte) : ∀ (m : MemSt) (a : Nat), (putCells m a bs).badWords = m.badWords := by
  induction bs with
  | nil => intros; rfl
  | cons b r ih => intro m a; rw [putCells, ih, putCell_badWords]

theorem unspecAt_congr {m n : MemSt} (h : m.unspec = n.unspec) (a : Nat) : unspecAt m a = unspecAt n a := by
  unfold unspecAt; rw [h]

theorem cellAt_congr {m n : MemSt} (hc : m.cells = n.cells) (hu : m.unspec = n.unspec) (a : Nat) : cellAt m a = cellAt n a := by
  unfold cellAt unlisted; rw [hc, unspecAt_congr hu]

/-- A stored byte reads back, and every other byte reads as before. -/
theorem cellAt_putCell (m : MemSt) (a x : Nat) (b : Byte) : cellAt (putCell m a b) x = if x = a then b else cellAt m x := by
  have hu : unlisted (putCell m a b) x = unlisted m x := by
    unfold unlisted; rw [unspecAt_congr (putCell_unspec m a b)]
  unfold cellAt
  rw [hu]
  by_cases hs : (unspecAt m a).isSome = true
  · simp only [putCell, hs, if_true, mapFind_put]; by_cases hx : x = a <;> simp [hx]
  · simp only [putCell, hs, Bool.false_eq_true, if_false, mapSet]
    have hn : unspecAt m a = none := by
      cases h : unspecAt m a with
      | none => rfl
      | some r => rw [h] at hs; exact absurd rfl hs
    by_cases hb : b = 0
    · simp only [hb, if_true, mapFind_del]
      by_cases hx : x = a
      · subst hx; simp [unlisted, hn]
      · simp [hx]
    · simp only [hb, if_false, mapFind_put]; by_cases hx : x = a <;> simp [hx]

/-- Stored bytes read back, and every other byte reads as before. -/
theorem cellAt_putCells (bs : List Byte) : ∀ (m : MemSt) (a x : Nat),
    cellAt (putCells m a bs) x = if a ≤ x ∧ x < a + bs.length then bs.getD (x - a) 0 else cellAt m x := by
  induction bs with
  | nil =>
    intro m a x
    have h : ¬(a ≤ x ∧ x < a + ([] : List Byte).length) := by simp
    rw [putCells, if_neg h]
  | cons b r ih =>
    intro m a x
    rw [putCells, ih, cellAt_putCell]
    by_cases h : x = a
    · subst h
      have h1 : ¬(x + 1 ≤ x ∧ x < x + 1 + r.length) := by omega
      rw [if_neg h1]; simp
    · by_cases h1 : a + 1 ≤ x ∧ x < a + 1 + r.length
      · have h2 : a ≤ x ∧ x < a + (b :: r).length := by simp; omega
        rw [if_pos h1, if_pos h2]
        have h3 : x - a = (x - (a + 1)) + 1 := by omega
        rw [h3]; simp
      · have h2 : ¬(a ≤ x ∧ x < a + (b :: r).length) := by simp; omega
        rw [if_neg h1, if_neg h2, if_neg h]

/-! ### The canonical form -/

theorem memoryWf_congr {m n : MemSt} (hc : m.cells = n.cells) (hu : m.unspec = n.unspec) : memoryWf m ↔ memoryWf n := by
  unfold memoryWf; rw [hc]; simp only [unspecAt_congr hu]

/-- Reset memory is in canonical form. -/
theorem memoryWf_reset : memoryWf State.reset.sys.mem := ⟨rfl, fun p h => by cases h⟩

theorem memoryWf_putCell {m : MemSt} (h : memoryWf m) (a : Nat) (b : Byte) : memoryWf (putCell m a b) := by
  obtain ⟨hr, hz⟩ := h
  refine ⟨?_, ?_⟩
  · unfold putCell; split
    · exact mapRising_put _ _ _ hr
    · exact mapRising_set _ _ _ _ hr
  · intro p hp h0
    rw [unspecAt_congr (putCell_unspec m a b)]
    unfold putCell at hp
    split at hp
    · next hs =>
      rcases mem_put hp with rfl | hp
      · exact hs
      · exact hz p hp h0
    · simp only [mapSet] at hp
      split at hp
      · exact hz p (List.mem_filter.mp hp).1 h0
      · next hb =>
        rcases mem_put hp with rfl | hp
        · exact absurd h0 hb
        · exact hz p hp h0

theorem memoryWf_putCells (bs : List Byte) : ∀ {m : MemSt}, memoryWf m → ∀ a, memoryWf (putCells m a bs) := by
  induction bs with
  | nil => intro m h a; exact h
  | cons b r ih => intro m h a; exact ih (memoryWf_putCell h a b) (a + 1)

/-- Content that becomes unspecified leaves the canonical form. -/
theorem memoryWf_forget {m : MemSt} (h : memoryWf m) (a n idx : Nat) : memoryWf (forget a n idx m) := by
  refine ⟨mapRising_filter _ _ h.1, ?_⟩
  intro p hp h0
  simp only [forget, List.mem_filter] at hp
  have h1 := h.2 p hp.1 h0
  unfold unspecAt at h1 ⊢
  simp only [forget, List.find?_isSome, List.mem_cons, List.mem_filter] at h1 ⊢
  obtain ⟨r, hr, ht⟩ := h1
  by_cases hs : (r.1 == a && r.2.1 == n) = true
  · refine ⟨(a, n, idx), .inl rfl, ?_⟩
    simp only [Bool.and_eq_true, beq_iff_eq] at hs
    simpa [hs.1, hs.2] using ht
  · exact ⟨r, .inr ⟨hr, by rw [Bool.not_eq_true] at hs; rw [hs]; rfl⟩, ht⟩

/-! ### What a write does besides -/

@[simp] theorem dropCopies_mem (n : Nat) (t : Copy → Bool) (b : Bool) (y : Sys) : (dropCopies n t b y).mem = y.mem := by
  unfold dropCopies; dsimp only; split <;> rfl

@[simp] theorem dropCopies_smap (n : Nat) (t : Copy → Bool) (b : Bool) (y : Sys) : (dropCopies n t b y).smap = y.smap := by
  unfold dropCopies; dsimp only; split <;> rfl

/-- A fold of an operation that leaves a part alone leaves it alone. -/
theorem foldl_keeps {α β γ : Type} (g : α → γ) (f : α → β → α) (h : ∀ a b, g (f a b) = g a) (l : List β) : ∀ a, g (l.foldl f a) = g a := by
  induction l with
  | nil => intro a; rfl
  | cons b r ih => intro a; rw [List.foldl_cons, ih, h]

@[simp] theorem dropAllCopies_mem (t : Copy → Bool) (b : Bool) (y : Sys) : (dropAllCopies t b y).mem = y.mem :=
  foldl_keeps (fun y => y.mem) _ (fun y n => dropCopies_mem n t b y) _ y

@[simp] theorem dropAllCopies_smap (t : Copy → Bool) (b : Bool) (y : Sys) : (dropAllCopies t b y).smap = y.smap :=
  foldl_keeps (fun y => y.smap) _ (fun y n => dropCopies_smap n t b y) _ y

@[simp] theorem noteBack_mem (id : Option Nat) (a : Nat) (bs : List Byte) (y : Sys) : (noteBack id a bs y).mem = y.mem := by
  unfold noteBack
  split
  · rfl
  · split <;> rfl

/-- Marking an entry as written leaves the translation as it was. -/
theorem translateIn_mark (k a : Nat) (l : SMap Entry) :
    translateIn (l.map (fun p => if p.1 = k then (p.1, { p.2 with backWritten := true }) else p)) a = translateIn l a := by
  induction l with
  | nil => rfl
  | cons p r ih =>
    rw [List.map_cons]
    split
    · simp only [translateIn, ih]; rfl
    · simp only [translateIn, ih]

@[simp] theorem translate_noteBack (id : Option Nat) (a : Nat) (bs : List Byte) (y : Sys) (x : Nat) :
    translateAddr (noteBack id a bs y) x = translateAddr y x := by
  unfold noteBack
  split
  · rfl
  · split <;> exact congrArg ((translateKept y.smap.view x).getD ·) (translateIn_mark _ x y.smap.entries)

theorem recordEvent_nv (sev code src data : Nat) (y : Sys) :
    recordEvent sev code src data y = { y with nv := (recordEvent sev code src data y).nv } := by
  unfold recordEvent
  dsimp only
  split
  · rfl
  · split <;> rfl

@[simp] theorem reportGranule_cells (g s : Nat) (y : Sys) : (reportGranule g s y).mem.cells = y.mem.cells := by
  unfold reportGranule; dsimp only; rw [recordEvent_nv]; rfl

@[simp] theorem reportGranule_unspec (g s : Nat) (y : Sys) : (reportGranule g s y).mem.unspec = y.mem.unspec := by
  unfold reportGranule; dsimp only; rw [recordEvent_nv]; rfl

@[simp] theorem reportGranule_smap (g s : Nat) (y : Sys) : (reportGranule g s y).smap = y.smap := by
  unfold reportGranule; dsimp only; rw [recordEvent_nv]; rfl

/-! ### Writes -/

/-- What writing a piece does to cells: it stores the piece at its physical address, or nothing where the piece is part of a
granule or word that cannot be read; the translation stays as it was. -/
theorem writePiece_cells (id : Option Nat) (a : Nat) (bs : List Byte) (y : Sys) :
    (((writePiece id a bs y).mem.cells = y.mem.cells ∧ (y.mem.poison ≠ [] ∨ y.mem.badWords ≠ [])) ∨
      (writePiece id a bs y).mem.cells = (putCells y.mem (translateAddr y a) bs).cells) ∧
    (writePiece id a bs y).mem.unspec = y.mem.unspec ∧ ∀ x, translateAddr (writePiece id a bs y) x = translateAddr y x := by
  unfold writePiece
  dsimp only
  generalize hh : (if translateAddr y a < dramEnd then setHas y.mem.poison (translateAddr y a / 64)
    else setHas y.mem.badWords (translateAddr y a / 8)) = hit
  generalize (if translateAddr y a < dramEnd then bs.length == 64 else bs.length == 8) = whole
  cases hw : hit && !whole with
  | true =>
    rw [if_pos rfl]
    have hp : y.mem.poison ≠ [] ∨ y.mem.badWords ≠ [] := by
      simp only [Bool.and_eq_true] at hw
      rw [hw.1] at hh
      split at hh
      · left; intro h; rw [h] at hh; cases hh
      · right; intro h; rw [h] at hh; cases hh
    refine ⟨.inl ⟨?_, hp⟩, ?_, fun x => ?_⟩
    · split <;> cases id <;> simp
    · split <;> cases id <;> simp
    · split <;> cases id <;> simp [translateAddr]
  | false =>
    rw [if_neg (by simp)]
    refine ⟨.inr ?_, ?_, fun x => ?_⟩
    · simp only [noteBack_mem, dropAllCopies_mem]; split <;> rfl
    · simp only [noteBack_mem, dropAllCopies_mem]; split <;> simp
    · rw [translate_noteBack]; unfold translateAddr; rw [dropAllCopies_smap]

theorem memoryWf_writePiece {y : Sys} (h : memoryWf y.mem) (id : Option Nat) (a : Nat) (bs : List Byte) :
    memoryWf (writePiece id a bs y).mem := by
  obtain ⟨hc, hu, _⟩ := writePiece_cells id a bs y
  rcases hc with ⟨hc, _⟩ | hc
  · exact (memoryWf_congr hc hu).mpr h
  · exact (memoryWf_congr hc (hu.trans (putCells_unspec bs y.mem _).symm)).mpr (memoryWf_putCells bs h _)

theorem memoryWf_writePieces (id : Option Nat) : ∀ (fuel a : Nat) (bs : List Byte) {y : Sys}, memoryWf y.mem →
    memoryWf (writePieces id fuel a bs y).mem
  | 0, _, _, _, h => h
  | fuel + 1, a, bs, y, h => by
    unfold writePieces
    split
    · exact h
    · exact memoryWf_writePieces id fuel _ _ (memoryWf_writePiece h id a _)

/-- Writing bytes keeps memory in canonical form. -/
theorem memoryWf_writeBytes {y : Sys} (h : memoryWf y.mem) (id : Option Nat) (a : Nat) (bs : List Byte) :
    memoryWf (writeBytes id a bs y).mem := memoryWf_writePieces id bs.length a bs h

/-- The translation stays as it was. -/
theorem translate_writePieces (id : Option Nat) : ∀ (fuel a : Nat) (bs : List Byte) (y : Sys) (x : Nat),
    translateAddr (writePieces id fuel a bs y) x = translateAddr y x
  | 0, _, _, _, _ => rfl
  | fuel + 1, a, bs, y, x => by
    unfold writePieces
    split
    · rfl
    · rw [translate_writePieces id fuel, (writePiece_cells id a _ y).2.2]

@[simp] theorem translate_writeBytes (id : Option Nat) (a : Nat) (bs : List Byte) (y : Sys) (x : Nat) :
    translateAddr (writeBytes id a bs y) x = translateAddr y x := translate_writePieces id bs.length a bs y x

/-- A byte at an address that the piece does not fall on reads as before. -/
theorem readByte_writePiece_frame (id : Option Nat) (a : Nat) (bs : List Byte) (y : Sys) (x : Nat)
    (h : translateAddr y x < translateAddr y a ∨ translateAddr y a + bs.length ≤ translateAddr y x) :
    readByte (writePiece id a bs y) x = readByte y x := by
  obtain ⟨hc, hu, ht⟩ := writePiece_cells id a bs y
  unfold readByte
  rw [ht]
  rcases hc with ⟨hc, _⟩ | hc
  · exact cellAt_congr hc hu _
  · rw [cellAt_congr hc (hu.trans (putCells_unspec bs y.mem _).symm), cellAt_putCells, if_neg (by omega)]

end Sys2Proof.Laws
end

