-- ==== Sys2Proof/Laws/Reads.lean ====
section
/-! SUPPORT. What the reading operations depend on: memory, the state map and little else. -/

namespace Sys2Proof.Laws

open Sys2Proof Sys2Proof.Machine Sys2Proof.Safety

/-- The checks of a command pass exactly when none of them fails. -/
theorem firstFail_none {l : List (Bool × Status)} : firstFail l = none ↔ ∀ x ∈ l, x.1 = false := by
  induction l with
  | nil => simp [firstFail]
  | cons a r ih =>
    obtain ⟨b, st⟩ := a
    cases b <;> simp [firstFail, ih]

section
variable {y z : Sys}

theorem translate_congr (hs : y.smap = z.smap) (a : Nat) : translateAddr y a = translateAddr z a := by
  unfold translateAddr; rw [hs]

theorem readByte_congr (hm : y.mem = z.mem) (hs : y.smap = z.smap) (a : Nat) : readByte y a = readByte z a := by
  unfold readByte; rw [hm, translate_congr hs]

theorem readBytes_congr (hm : y.mem = z.mem) (hs : y.smap = z.smap) (a n : Nat) : readBytes y a n = readBytes z a n := by
  induction n generalizing a with
  | zero => rfl
  | succ n ih => unfold readBytes; rw [readByte_congr hm hs, ih]

theorem readNat_congr (hm : y.mem = z.mem) (hs : y.smap = z.smap) (a n : Nat) : readNat y a n = readNat z a n := by
  unfold readNat; rw [readBytes_congr hm hs]

theorem protectedHit_congr (hs : y.smap = z.smap) (b : Bool) (a n : Nat) : protectedHit y b a n = protectedHit z b a n := by
  unfold protectedHit; rw [hs]

theorem mapHit_congr (hs : y.smap = z.smap) (a n : Nat) : mapHit y a n = mapHit z a n := by
  unfold mapHit; rw [hs]

theorem entryAt_congr (hs : y.smap = z.smap) (e : Nat) : entryAt y e = entryAt z e := by
  unfold entryAt; rw [hs]

theorem activeEntries_congr (hs : y.smap = z.smap) : activeEntries y = activeEntries z := by
  unfold activeEntries; rw [hs]

theorem digestKey_congr (hc : y.coll = z.coll) : digestKey y = digestKey z := by
  unfold digestKey; rw [hc]

theorem contentDigest_congr (hm : y.mem = z.mem) (hs : y.smap = z.smap) (hc : y.coll = z.coll) (e a o n : Nat) :
    contentDigest y e a o n = contentDigest z e a o n := by
  simp only [contentDigest, digestKey_congr hc, readNat_congr hm hs]

end

end Sys2Proof.Laws
end

