-- ==== Sys2Proof/WellFormed.lean ====
section
/-! DEFINITION. Which commands can occur at all: operands that name a die, shuttle, port, lane or record that the
device has. A command that is not well formed occurs on no interface; the meanings are total on it and make no use of this
predicate (log 28). -/

namespace Sys2Proof

/-- Why a command is not well formed. -/
inductive IllFormed where
  /-- More parameter words than PLEN counts (R432). -/
  | params
  /-- A payload longer than LENGTH counts (R421). -/
  | payload
  /-- A die that is no loom die (R31). -/
  | die
  /-- A shuttle that the device does not have (R42). -/
  | shuttle
  /-- A hardware thread or engine thread that does not exist (R207, R213). -/
  | thread
  /-- A warp port that does not exist (R31). -/
  | port
  /-- A creel or lane that does not exist (R438). -/
  | creel
  /-- A lock, counter set, trace unit, tile, narrow tile or source code that does not exist (R100, R148, R265, R463, R549, R555). -/
  | index
  /-- A reading or a list with the wrong number of entries (R579). -/
  | readings
deriving DecidableEq, Repr

/-- The first failing check of a list. -/
def firstIll : List (Bool × IllFormed) → Option IllFormed
  | [] => none
  | (ok, e) :: r => if ok then firstIll r else some e

/-- A command packet carries at most 252 parameter words (R432). -/
def illPacket (pk : Packet) : Option IllFormed := firstIll [(decide (pk.params.length ≤ 252), .params)]

/-- A frame carries at most 65,535 bytes of payload (R421). -/
def illFrame (f : RxFrame) : Option IllFormed := firstIll [(decide (f.payload.length ≤ 65535), .payload)]

/-- A vector instruction runs on one of 2,304 shuttles in one of 16 hardware threads (R42, R207). -/
def illVec (n h : Nat) : Option IllFormed := firstIll [(decide (n < 2304), .shuttle), (decide (h < 16), .thread)]

/-- One of the 18 loom dies (R31, R33). -/
def illDie (d : Nat) : Option IllFormed := firstIll [(decide (d < 18), .die)]

/-- One of 64 warp ports (R31). -/
def illPort (p : Nat) : Option IllFormed := firstIll [(decide (p < 64), .port)]

/-- One of 64 treadle creels with 8 lanes each, or the service creel, 64, with one (R438). -/
def illLane (c l : Nat) : Option IllFormed :=
  firstIll [(decide (c < 64 ∧ l < 8) || decide (c = 64 ∧ l = 0), .creel)]

/-- An index below a bound. -/
def illIndex (i n : Nat) : Option IllFormed := firstIll [(decide (i < n), .index)]

/-- The first check that a command fails, where it fails one. -/
def illFormed : Instr → Option IllFormed
  | .nop pk => illPacket pk
  | .fence pk => illPacket pk
  | .pickSet pk => illPacket pk
  | .timeRead pk => illPacket pk
  | .memCopy pk => illPacket pk
  | .memFill pk => illPacket pk
  | .yarnLoad pk => illPacket pk
  | .yarnStore pk => illPacket pk
  | .memRetrain pk => illPacket pk
  | .accBegin pk => illPacket pk
  | .accMatmul pk => illPacket pk
  | .accReadout pk => illPacket pk
  | .accExportWide pk => illPacket pk
  | .accImportWide pk => illPacket pk
  | .accDiscard pk => illPacket pk
  | .vecLoad pk => illPacket pk
  | .vecRun pk => illPacket pk
  | .redTopk pk => illPacket pk
  | .redMaxmin pk => illPacket pk
  | .redCensus pk => illPacket pk
  | .warpFwdSet pk => illPacket pk
  | .routeSet pk => illPacket pk
  | .bktReduce pk => illPacket pk
  | .bktGather pk => illPacket pk
  | .bktDigestRead pk => illPacket pk
  | .linkReset pk => illPacket pk
  | .updRun pk => illPacket pk
  | .updMicroLoad pk => illPacket pk
  | .bobConvert pk => illPacket pk
  | .bobGather pk => illPacket pk
  | .bobScatterAdd pk => illPacket pk
  | .stateSet pk => illPacket pk
  | .stateRead pk => illPacket pk
  | .censusClear pk => illPacket pk
  | .censusRead pk => illPacket pk
  | .stepBegin pk => illPacket pk
  | .stepPrepare pk => illPacket pk
  | .stepCommit pk => illPacket pk
  | .stepAbort pk => illPacket pk
  | .stepUndo pk => illPacket pk
  | .twinSet pk => illPacket pk
  | .shadowBegin pk => illPacket pk
  | .shadowEnd pk => illPacket pk
  | .weaveSend pk => illPacket pk
  | .weaveRecv pk => illPacket pk
  | .regRead pk => illPacket pk
  | .regWrite pk => illPacket pk
  | .lockAcquire pk => illPacket pk
  | .lockRenew pk => illPacket pk
  | .lockRelease pk => illPacket pk
  | .fwQuery pk => illPacket pk
  | .unitReset pk => illPacket pk
  | .hsHandover pk => illPacket pk
  | .attest pk => illPacket pk
  | .measureRead pk => illPacket pk
  | .fuseDebugOff pk => illPacket pk
  | .ctrConfig pk => illPacket pk
  | .ctrRead pk => illPacket pk
  | .traceConfig pk => illPacket pk
  | .traceTrigger pk => illPacket pk
  | .watchSet pk => illPacket pk
  | .evlogRead pk => illPacket pk
  | .lifeRead pk => illPacket pk
  | .burlerSet pk => illPacket pk
  | .mendRead pk => illPacket pk
  | .steplogRead pk => illPacket pk
  | .ckptStream pk => illPacket pk
  | .shutdownRequest pk => illPacket pk
  | .collSelfWrite pk => illPacket pk
  | .runaheadDisable pk => illPacket pk
  | .creelModeSet pk => illPacket pk
  | .traceRpWrite pk => illPacket pk
  | .vld n h => illVec n h
  | .vst n h => illVec n h
  | .vgather n h => illVec n h
  | .vscatter n h => illVec n h
  | .vscatadd n h => illVec n h
  | .vadd n h => illVec n h
  | .vsub n h => illVec n h
  | .vmul n h => illVec n h
  | .vfma n h => illVec n h
  | .vdiv n h => illVec n h
  | .vsqrt n h => illVec n h
  | .vmin n h => illVec n h
  | .vmax n h => illVec n h
  | .vand n h => illVec n h
  | .vor n h => illVec n h
  | .vxor n h => illVec n h
  | .vshl n h => illVec n h
  | .vshr n h => illVec n h
  | .vcmp n h => illVec n h
  | .vsel n h => illVec n h
  | .vcvt n h => illVec n h
  | .vredsum n h => illVec n h
  | .vredmax n h => illVec n h
  | .vredmin n h => illVec n h
  | .vwld n h => illVec n h
  | .vwadd n h => illVec n h
  | .vwst n h => illVec n h
  | .sadd n h => illVec n h
  | .smovi n h => illVec n h
  | .slane n h => illVec n h
  | .br n h => illVec n h
  | .bnz n h => illVec n h
  | .vBarrier n h => illVec n h
  | .vBarrierRelease n => illVec n 0
  | .vEnd n h => illVec n h
  | .threadSwitch _ h _ => firstIll [(decide (h < 16), .thread)]
  | .fadd die => illDie die
  | .fsub die => illDie die
  | .fmul die => illDie die
  | .fdiv die => illDie die
  | .fsqrt die => illDie die
  | .fmin die => illDie die
  | .fmax die => illDie die
  | .fneg die => illDie die
  | .fabs die => illDie die
  | .fsign die => illDie die
  | .fscale die => illDie die
  | .fsel die => illDie die
  | .fmov die => illDie die
  | .microEnd die => illDie die
  | .sessionOpen f => illFrame f
  | .sessionForceEnd _ => none
  | .sessionResume f => illFrame f
  | .sessionClose f => illFrame f
  | .sessionLapse _ => none
  | .creelWrite f => illFrame f
  | .keepalive f => illFrame f
  | .keepaliveSend _ => none
  | .frameResend _ _ => none
  | .droppedFrame f => illFrame f
  | .creelStatus => none
  | .replyFlush _ => none
  | .packetRead => none
  | .stall creel lane => illLane creel lane
  | .commandCompletion creel lane => illLane creel lane
  | .lockExpired k => illIndex k 64
  | .pick f => illFrame f
  | .pickInEdge => none
  | .pickAdvance => none
  | .pickEcho => none
  | .ctrSample set => illIndex set 8
  | .arbitrationRound _ _ _ => none
  | .preemption _ _ _ => none
  | .dramRead _ source _ => firstIll [(decide (1 ≤ source ∧ source ≤ 8), .index)]
  | .dramWrite _ _ _ => none
  | .kill n _ => firstIll [(decide (n < 2304), .shuttle)]
  | .writeComplete _ => none
  | .runaheadRead n _ => firstIll [(decide (n < 2304), .shuttle)]
  | .granuleConsume u => firstIll [(decide (u.shuttle < 2304), .shuttle)]
  | .slotFree _ h => firstIll [(decide (h < 16), .thread)]
  | .scrubRead stack _ => illDie stack
  | .memRetrainDone _ _ => none
  | .unitFailure _ _ => none
  | .endingStart n t r => firstIll [(decide (n < 2304), .shuttle), (decide (t < 8 ∧ r.tile < 4), .index)]
  | .bucketConversionDone _ => none
  | .bucketPacket port _ => illPort port
  | .heldPartialRelease _ => none
  | .twinHalfSum port _ => illPort port
  | .shardFinal _ => none
  | .bucketResend _ => none
  | .gatherPacket port _ => illPort port
  | .latenessExpiry _ => none
  | .twinCopyRequest port _ => illPort port
  | .twinCopyAnswer port _ => illPort port
  | .warpForward port _ => illPort port
  | .remoteWrite port _ => illPort port
  | .linkPacket port _ => illPort port
  | .identityFrame port _ => illPort port
  | .portUp port _ => illPort port
  | .portFault port _ => illPort port
  | .portDown port => illPort port
  | .laneEqualization port => illPort port
  | .prepareDigest => none
  | .prepareMessage port _ => illPort port
  | .commitStart => none
  | .weavePacket port _ => illPort port
  | .ckptData port _ => illPort port
  | .ckptEnd port _ => illPort port
  | .burlerSlice die _ => illDie die
  | .burlerTestDone die _ _ _ => illDie die
  | .mendDone die _ => illDie die
  | .imageBegin f => illFrame f
  | .imageData f => illFrame f.frame
  | .imageEnd f => illFrame f.frame
  | .imageAbort f => illFrame f
  | .hsFault h => illIndex h 2
  | .takeover => none
  | .standbyReady _ => none
  | .thermalSample die _ => illDie die
  | .lifeSample vcore => firstIll [(decide (vcore.length = 18), .readings)]
  | .hoursTick => none
  | .perstNAssert _ => none
  | .perstNRelease _ _ => none
  | .bootStage1 _ _ _ => none
  | .vauxRise => none
  | .shdnReqN _ => none
  | .smbVersion => none
  | .smbStatus => none
  | .smbHottestLogic => none
  | .smbHottestDram => none
  | .smbHottestOther => none
  | .smbDieLogicTemp d => illDie d
  | .smbStackTemp d => illDie d
  | .smbVcore d => illDie d
  | .smbIdent => none
  | .smbLife => none
  | .smbAlertResponse => none
  | .traceDrain u => illIndex u 27
  | .traceGap u => illIndex u 27
  | .traceWindowEnd => none
  | .portTraining l => illPort l.port
  | .linkResetTimeout => none
  | .unitReportsReady standby die => firstIll [(standby || decide (die < 18), .die)]
  | .readyTimeExpiry standby die => firstIll [(standby || decide (die < 18), .die)]
  | .writesCompleteReport port _ => illPort port
  | .vauxLoss => none
  | .testAccessPort _ => none

/-- A command that can occur. -/
def WellFormed (i : Instr) : Bool := (illFormed i).isNone

end Sys2Proof
end

