-- ==== Sys2Proof/Tests/Slice0.lean ====
section
/-! SUPPORT. Tests: what WellFormed refuses, a state and operands that meet the hypotheses of each statement, and single
steps whose expected results are worked by hand from the rules named. -/

namespace Sys2Proof.Tests

open Sys2Proof Sys2Proof.Machine Sys2Proof.Safety

set_option synthInstance.maxSize 400
set_option Elab.async false

/-- The device ready after its boot, everything else as at reset. -/
def up : State := { sys := { pwr := { phase := .ready } } }

/-- A packet with the given parameter words. -/
def pkt (ps : List Word64) (step : BitVec 48 := 0) : Packet := { step := step, params := ps }

/-! ### Meeting a unit -/

/-- Some packet meets its unit in some state, and P holds of both. -/
abbrev MetBy (op : Nat) (layout : List Nat) (bad : Packet → Bool) (P : Packet → State → Sys → Cmd → Prop) : Prop :=
  ∃ (pk : Packet) (s : State) (z : Sys) (c : Cmd), Meets op layout (bad pk) pk s z c ∧ P pk s z c

/-- The check that a packet meets its unit and Q holds of the state read and the command. -/
def okMet (op : Nat) (layout : List Nat) (bad : Bool) (pk : Packet) (s : State) (Q : Sys → Cmd → Bool) : Bool :=
  match atUnit op pk s.sys with
  | none => false
  | some (z, d) =>
    match verdict z op layout bad d with
    | .go shadow => pk.version == 0x10 && Q z { d with shadow := shadow }
    | _ => false

theorem okMet_meets {op : Nat} {layout : List Nat} {bad : Bool} {pk : Packet} {s : State} {Q : Sys → Cmd → Bool}
    (h : okMet op layout bad pk s Q = true) : ∃ z c, Meets op layout bad pk s z c ∧ Q z c = true := by
  unfold okMet at h
  split at h
  · cases h
  · rename_i z d hu
    split at h
    · rename_i sh hv
      simp only [Bool.and_eq_true, beq_iff_eq] at h
      exact ⟨z, _, ⟨d, sh, hu, h.1, hv, rfl⟩, h.2⟩
    · cases h

theorem metBy {op : Nat} {layout : List Nat} {bad : Packet → Bool} {P : Packet → State → Sys → Cmd → Prop} (pk : Packet) (s : State)
    [∀ z c, Decidable (P pk s z c)] (h : okMet op layout (bad pk) pk s (fun z c => decide (P pk s z c)) = true) :
    MetBy op layout bad P := by
  obtain ⟨z, c, hm, hp⟩ := okMet_meets h
  exact ⟨pk, s, z, c, hm, of_decide_eq_true hp⟩

/-- Some lock command meets its unit, the leases applied. -/
abbrev LocksMetBy (op : Nat) (P : Packet → State → Sys → Cmd → Prop) : Prop :=
  ∃ (pk : Packet) (s : State) (z : Sys) (c : Cmd), (atUnit op pk s.sys).isSome = true ∧
    Meets op lockLayout false pk (afterLeases s) z c ∧ P pk s z c

theorem locksMetBy {op : Nat} {P : Packet → State → Sys → Cmd → Prop} (pk : Packet) (s : State)
    [∀ z c, Decidable (P pk s z c)]
    (h : ((atUnit op pk s.sys).isSome && okMet op lockLayout false pk (afterLeases s) (fun z c => decide (P pk s z c))) = true) :
    LocksMetBy op P := by
  rw [Bool.and_eq_true] at h
  obtain ⟨z, c, hm, hp⟩ := okMet_meets h.2
  exact ⟨pk, s, z, c, h.1, hm, of_decide_eq_true hp⟩

/-! ### States -/

/-- A port that is UP, its peer device 1. -/
def upPort : PortSt := { state := 2, peerDevice := 1, peerPort := 5, peerValid := true }

/-- Device 0, linked to device 1 by port 5 and by port 0. -/
def linked : State := { up with sys := { up.sys with
  coll := { selfValid := true, fwd := [(1, 5)] }, lnk := { ports := [(0, upPort), (5, upPort)] } } }

/-- linked, with a member list of the devices 0 and 1 at address 0. -/
def ringOfTwo : State := { linked with sys := { linked.sys with mem := { cells := [(4, 1)] } } }

/-- The route of a ring of two over port 5. -/
def ring : Route := { loaded := true, p := 2, members := [(0, 0), (1, 0)], strands := [(5, 5)] }

/-- An open step, number 1. -/
def inStep : State := { up with sys := { up.sys with stp := { state := .opened, agreed := true } } }

/-- An open step with a loaded route. -/
def routed : State := { linked with sys := { linked.sys with
  stp := { state := .opened, agreed := true }, coll := { linked.sys.coll with routes := [(0, ring)] } } }

/-- An exact accumulation of one element open on tile position 0 of shuttle 0. -/
def exactOpen : State := { up with sys := { up.sys with
  acc := { tiles := [(0, { exact := { status := .opened, m := 1, n := 1, elems := [{}] } })] } } }

/-- Entry 0 LOADING, face [0, 65536), back [65536, 131072). -/
def loadingEntry : State := { up with sys := { up.sys with
  smap := { entries := [(0, { state := .loading, face := 0, back := 65536, length := 65536 })] } } }

/-- An open step; an ACTIVE entry, face [0, 65536), back [65536, 131072); a microprogram of END in slot 0. -/
def mappedStep : State := { inStep with sys := { inStep.sys with
  smap := { entries := [(0, { state := .active, face := 0, back := 65536, length := 65536 })] },
  upd := { slots := [(0, [0xFC000000])] } } }

/-- A microprogram of END at address 0. -/
def microImage : State := { up with sys := { up.sys with mem := { cells := [(3, 0xFC)] } } }

/-- The twin is device 2, mode MIRROR, and agrees; one twin-link port is UP. -/
def twinned : State := { up with sys := { up.sys with
  coll := { selfValid := true }, lnk := { ports := [(7, upPort)] },
  stp := { twinValid := true, twinMode := .mirror, twinDev := 2, agreed := true } } }

/-- Lock 0 held by creel 0 until pick 9. -/
def lockHeld : State := { up with sys := { up.sys with lck := [(0, { state := .held, owner := 0, expires := 9 })] } }

/-- A selection list at address 0: every count of class 0x01, instance 0. -/
def selImage : State := { up with sys := { up.sys with mem := { cells := [(3, 1), (4, 1)] } } }

/-- Port 0 UP, entry 0 ACTIVE with 65,536 bytes. -/
def streamOut : State := { linked with sys := { linked.sys with
  smap := { entries := [(0, { state := .active, face := 0, back := 65536, length := 65536 })] } } }

/-- Port 0 UP, entry 0 LOADING with 65,536 bytes. -/
def streamIn : State := { linked with sys := { linked.sys with
  smap := { entries := [(0, { state := .loading, face := 0, back := 65536, length := 65536 })] } } }

/-! Obligations.GeneralCommandsComplete -/

theorem witness_nop : MetBy 0x0000 [] noCodes fun _ _ _ _ =>
    True :=
  metBy (pkt []) up (by decide +kernel)

theorem witness_timeRead : MetBy 0x0011 [] noCodes fun _ _ _ _ =>
    True :=
  metBy (pkt []) up (by decide +kernel)

theorem witness_pickSet : MetBy 0x0010 [bits [(63, 1), (0, 48)], bits [(56, 2), (32, 12), (0, 32)]] (fun pk => badCode pk 1 56 2 [0,
    1]) fun pk _ _ _ =>
    200 ≤ pf pk 1 32 12 ∧ pf pk 0 63 1 = 0 ∧ pf pk 0 0 48 = 0 :=
  metBy (pkt [0, 0xc800000000]) up (by decide +kernel)

theorem witness_pickSet_load : MetBy 0x0010 [bits [(63, 1), (0, 48)], bits [(56, 2), (32, 12), (0,
    32)]] (fun pk => badCode pk 1 56 2 [0, 1]) fun pk s z _ =>
    200 ≤ pf pk 1 32 12 ∧ pf pk 0 63 1 = 1 ∧ (countAhead s.sys.t ≤ pf pk 0 0 48 ∨ (s.sys.stp.state = .idle ∧
        ∀ l ∈ (expireLocks z).lck, l.2.state ≠ .held)) :=
  metBy (pkt [0x8000000000000005, 0xc800000000]) up (by decide +kernel)

theorem witness_fence : MetBy 0x0001 [bits [(16, 2), (8, 8), (0, 8)]] (fun pk => badCode pk 0 16 2 [0, 1, 2]) fun pk _ _ _ =>
    badFence pk = false :=
  metBy (pkt [0]) up (by decide +kernel)

/-! Obligations.MemoryCommandsComplete -/

theorem witness_memFill : MetBy 0x0101 [bits [(32, 5)], allBits, bits [(0, 40)], allBits] noCodes fun pk s _ c =>
    let dst := pw pk 1
    let n := pf pk 2 0 40
    pf pk 0 32 5 ≤ 17 ∧ n % 64 = 0 ∧ 64 ≤ n ∧ n ≤ 2 ^ 39 ∧ aligned64 dst = true ∧ inDramOrStore dst n = true ∧
        rangeHeld s.sys dst n = false ∧ protectedHit s.sys (backIsFace c) dst n = false :=
  metBy (pkt [0, 0, 64, 1]) up (by decide +kernel)

theorem witness_memCopy : MetBy 0x0100 [bits [(32, 5), (0, 1)], allBits, allBits, bits [(0, 40)]] noCodes fun pk s z c =>
    let src := pw pk 1
    let n := pf pk 3 0 40
    let glob := pf pk 0 0 1 = 1
    let dst := if glob then nfld (pw pk 2) 0 54 else pw pk 2
    (pf pk 0 32 5 ≤ 17 ∧ n % 64 = 0 ∧ 64 ≤ n ∧ n ≤ 2 ^ 39 ∧ aligned64 src = true ∧ aligned64 dst = true ∧ inDramOrStore src n = true) ∧
    (fileClosed s.perm [(src, n)] = false ∧ rangeHeld s.sys src n = false ∧ consume 3 src n (taken c z) = none ∧ (glob →
        ownNumber s.sys (nfld (pw pk 2) 54 10) = true) ∧ overlap src n dst n = false ∧ inDramOrStore dst n = true ∧
        rangeHeld s.sys dst n = false ∧ protectedHit s.sys (backIsFace c) dst n = false) :=
  metBy (pkt [0, 0, 128, 64]) up (by decide +kernel)

theorem witness_memCopy_remote : MetBy 0x0100 [bits [(32, 5), (0, 1)], allBits, allBits, bits [(0, 40)]] noCodes fun pk s z c =>
    let w : Nat := 5
    let src := pw pk 1
    let n := pf pk 3 0 40
    let glob := pf pk 0 0 1 = 1
    let dst := if glob then nfld (pw pk 2) 0 54 else pw pk 2
    (pf pk 0 32 5 ≤ 17 ∧ n % 64 = 0 ∧ 64 ≤ n ∧ n ≤ 2 ^ 39 ∧ aligned64 src = true ∧ aligned64 dst = true ∧
        inDramOrStore src n = true ∧ fileClosed s.perm [(src, n)] = false) ∧
    ((rangeHeld s.sys src n = false ∧ consume 3 src n (taken c z) = none ∧ glob ∧ ownNumber s.sys (nfld (pw pk 2) 54 10) = false) ∧
    (inDram dst n = true ∧ c.shadow = false ∧ fwdTo s.sys (nfld (pw pk 2) 54 10) ≠ 0xFF ∧
        portTo s.sys (nfld (pw pk 2) 54 10) = some w ∧ portUp s.sys w = true)) :=
  metBy (pkt [1, 0, 0x40000000000000, 64]) linked (by decide +kernel)

theorem witness_memRetrain : MetBy 0x0120 [bits [(40, 5), (0, 8)]] noCodes fun pk s _ _ =>
    pf pk 0 40 5 ≤ 17 ∧ s.sys.mem.retrain = none :=
  metBy (pkt [0]) up (by decide +kernel)

/-! Obligations.YarnCommandsComplete -/

theorem witness_yarnLoad : MetBy 0x0110 ([bits [(32, 12), (24, 8), (16, 2), (0, 16)]] ++ descLayout ++ [allBits,
    allBits]) (fun pk => badCode pk 0 24 8 (0 :: fmtCodes) || badCode pk 0 16 2 [0,
    1] || badCode pk 1 56 8 [0x10] || badCode pk 1 48 8 fmtCodes) fun pk s _ _ =>
    let l := loadOf pk
    (badShuttle s.sys l.shuttle = false ∧ (l.out = none) ∧ (l.out = none → l.conv = 0) ∧ l.kib ≤ 256 ∧ badDescFields pk 1 = false ∧
        (loadScales l = 0 → l.destScale = 0) ∧ fileClosed s.perm (descFirst l.desc) = false) ∧
    (badDescAddr l.desc = false ∧ aligned64 l.dest = true ∧ aligned64 l.destScale = true ∧
        inStore l.shuttle l.dest (loadElems l) = true ∧ (loadScales l ≠ 0 → inStore l.shuttle l.destScale (loadScales l) = true) ∧
        mending s.sys l.shuttle = false ∧ (yarnAt s.sys l.shuttle).cmd = none) :=
  metBy (pkt [0, 0x1022000000000040, 0, 0, 0, 0, 0, 0x40000000000, 0]) up (by decide +kernel)

theorem witness_yarnStore : MetBy 0x0111 ([bits [(32, 12)]] ++ descLayout ++ [allBits,
    allBits]) (fun pk => badCode pk 1 56 8 [0x10] || badCode pk 1 48 8 fmtCodes) fun pk s z c =>
    let n := pf pk 0 32 12
    let d := descOf pk 1
    let scaled := descBlock d ≠ 0
    (badShuttle s.sys n = false ∧ badDescFields pk 1 = false ∧ (¬ scaled → pw pk 8 = 0) ∧ fileClosed s.perm [(pw pk 7, descBytes d),
        (pw pk 8, descScales d)] = false ∧ badDescAddr d = false ∧ aligned64 (pw pk 7) = true ∧ aligned64 (pw pk 8) = true) ∧
    (inStore n (pw pk 7) (descBytes d) = true ∧ (scaled → inStore n (pw pk 8) (descScales d) = true) ∧ mending s.sys n = false ∧
        (yarnAt s.sys n).cmd = none ∧ anyHeld s.sys (storeRuns d) = false ∧ (∀ r ∈ storeRuns d,
        protectedHit s.sys (backIsFace c) r.1 r.2 = false) ∧ consumeAll 1 (taken c z) ([(pw pk 7,
        descBytes d)] ++ if scaled then [(pw pk 8, descScales d)] else []) = none) :=
  metBy (pkt [0, 0x1022000000000040, 0, 0, 0, 0, 0, 0x40000000000, 0]) up (by decide +kernel)

/-! Obligations.AccumulationWorkCompletes -/

theorem witness_accBegin : MetBy 0x0200 [bits (tileBits ++ [(20, 2), (16, 4), (8, 2), (4, 2)]), bits [(48, 16), (24, 7), (16, 7), (8,
    8)], allBits, bits [(0, 32)]] (fun pk => badCode pk 0 16 4 (List.range 10) || badCode pk 0 8 2 [0, 1] || badCode pk 0 4 2 [0, 1,
    2] || badCode pk 1 8 8 (0 :: fmtCodes)) fun pk s z c =>
    let n := pf pk 0 32 12
    let t := pf pk 0 24 3
    let u := pf pk 0 20 2
    let shape := pf pk 0 16 4
    let o := preOf pk.params
    let base := sext (pf pk 1 48 16) 16
    let row := match o.fmt with | some f => rowBytes f o.n | none => 0
    ((badShuttle s.sys n = false ∧ (o.mode ≠ 0 → pf pk 1 8 8 ∈ [0x20, 0x21, 0x22]) ∧ (o.mode = 0 → pf pk 1 8 8 = 0 ∧ o.addr = 0 ∧
        o.pitch = 0) ∧ (o.mode = 1 → o.pitch = 0) ∧ (o.mode = 2 → shortPitch o.pitch row = false)) ∧
    ((o.mode ≠ 0 → aligned64 o.addr = true ∧ o.pitch % 64 = 0 ∧
        inStoreOrDram n o.addr (if o.mode = 2 then spanBytes o.m o.pitch row else row) = true) ∧
        fileClosed s.perm (preRanges o) = false ∧ anyHeld s.sys (preRanges o) = false ∧
        (if o.mode = 0 then mending s.sys n = false else shuttleReady n c z = true) ∧ (burDie s.sys (n / 128)).holds ≠ some (n, t))) ∧
    ((pf pk 0 8 2 ≠ 1 ∧ shape = 0 ∧ u = 0 ∧ -640 ≤ base ∧ base ≤ 511) ∧
    (1 ≤ o.m ∧ o.m ≤ 64 ∧ 1 ≤ o.n ∧ o.n ≤ 64 ∧ beginBlockers (tileAt s.sys n t) false u = [])) ∧
    let y := setTile n t (openExact c base o (Config.operandDigest (rangeBytes s.sys (preRanges o))) (tileAt s.sys n t)) (taken c z)
    consumeAll 7 y (preRanges o) = none :=
  metBy (pkt [0x0, 0x1010000, 0, 0]) up (by decide +kernel)

theorem witness_accBegin_guarded : MetBy 0x0200 [bits (tileBits ++ [(20, 2), (16, 4), (8, 2), (4, 2)]), bits [(48, 16), (24, 7), (16,
    7), (8, 8)], allBits, bits [(0, 32)]] (fun pk => badCode pk 0 16 4 (List.range 10) || badCode pk 0 8 2 [0,
    1] || badCode pk 0 4 2 [0, 1, 2] || badCode pk 1 8 8 (0 :: fmtCodes)) fun pk s z c =>
    let n := pf pk 0 32 12
    let t := pf pk 0 24 3
    let u := pf pk 0 20 2
    let shape := pf pk 0 16 4
    let o := preOf pk.params
    let base := sext (pf pk 1 48 16) 16
    let row := match o.fmt with | some f => rowBytes f o.n | none => 0
    (badShuttle s.sys n = false ∧ (o.mode ≠ 0 → pf pk 1 8 8 ∈ [0x20, 0x21, 0x22]) ∧ (o.mode = 0 → pf pk 1 8 8 = 0 ∧ o.addr = 0 ∧
        o.pitch = 0) ∧ (o.mode = 1 → o.pitch = 0) ∧ (o.mode = 2 → shortPitch o.pitch row = false) ∧ (o.mode ≠ 0 →
        aligned64 o.addr = true ∧ o.pitch % 64 = 0 ∧
        inStoreOrDram n o.addr (if o.mode = 2 then spanBytes o.m o.pitch row else row) = true) ∧
        fileClosed s.perm (preRanges o) = false) ∧
    (anyHeld s.sys (preRanges o) = false ∧ (if o.mode = 0 then mending s.sys n = false else shuttleReady n c z = true) ∧
        (burDie s.sys (n / 128)).holds ≠ some (n, t) ∧ pf pk 0 8 2 = 1 ∧ o.m = (shapeDims shape).1 ∧ o.n = (shapeDims shape).2.1 ∧
        base = 0 ∧ beginBlockers (tileAt s.sys n t) true u = []) ∧
    let y := setTile n t (openNarrow c u shape o (tileAt s.sys n t)) (taken c z)
    consumeAll 7 y (preRanges o) = none :=
  metBy (pkt [0x100, 0x40400000, 0, 0]) up (by decide +kernel)

theorem witness_accMatmul : MetBy 0x0201 [bits (tileBits ++ [(20, 2)]), bits [(56, 8), (48, 8), (40, 7), (32, 7), (0, 32)], allBits,
    allBits, allBits, allBits, allBits, allBits] (fun pk => badCode pk 1 56 8 fmtCodes || badCode pk 1 48 8 fmtCodes) fun pk s z c =>
    let n := pf pk 0 32 12
    let t := pf pk 0 24 3
    let u := pf pk 0 20 2
    let o := matOf pk.params
    let p := tileAt s.sys n t
    (badShuttle s.sys n = false ∧ ((lowCode (pf pk 1 56 8) = true ∧
        lowCode (pf pk 1 48 8) = true) ∨ (floatCode (pf pk 1 56 8) = true ∧ floatCode (pf pk 1 48 8) = true)) ∧ 1 ≤ o.k ∧
        o.k ≤ 32768 ∧ fileClosed s.perm (matRanges o) = false ∧ badOperand o.fa o.k o.aPitch o.aScale o.aScalePitch = false ∧
        badOperand o.fb o.k o.bPitch o.bScale o.bScalePitch = false ∧
        badOperandAddr n o.fa o.m o.k o.a o.aPitch o.aScale o.aScalePitch = false) ∧
    (badOperandAddr n o.fb o.n o.k o.b o.bPitch o.bScale o.bScalePitch = false ∧ namedTile p u = (.opened, false,
        (namedTile p u).2.2) ∧ wrongLane c p u = false ∧ (if p.guarded then o.m = (shapeDims (narrowAt p u).shape).1 ∧
        o.n = (shapeDims (narrowAt p u).shape).2.1 else o.m = p.exact.m ∧ o.n = p.exact.n ∧ u = 0) ∧
        (namedTile p u).2.2 + groupCount o.k ≤ termLimit ∧ shuttleReady n c z = true ∧ engineTaken c z = false ∧
        consumeAll 2 (taken c z) (matRanges o) = none) :=
  metBy (pkt [0, 0x2222010100000002, 0x40000000000, 0x4000000000, 0, 0x40000000040, 0x4000000000, 0]) exactOpen (by decide +kernel)

theorem witness_accImportWide : MetBy 0x0204 [bits tileBits, allBits, bits [(32, 32)]] noCodes fun pk s z c =>
    let n := pf pk 0 32 12
    let t := pf pk 0 24 3
    let x := (tileAt s.sys n t).exact
    let rs := wideRanges (pw pk 1) (pf pk 2 32 32) x.m x.n
    (badShuttle s.sys n = false ∧ shortPitch (pf pk 2 32 32) (x.n * 40) = false ∧ pw pk 1 % 8 = 0 ∧ pf pk 2 32 32 % 8 = 0 ∧
        inStoreOrDram n (pw pk 1) (spanBytes x.m (pf pk 2 32 32) (x.n * 40)) = true ∧ (tileAt s.sys n t).guarded = false ∧
        fileClosed s.perm rs = false) ∧
    (x.status = .opened ∧ x.failed = false ∧ x.terms + 1 ≤ termLimit ∧ shuttleReady n c z = true ∧ vecFree s.sys n = true ∧
        engineTaken c z = false ∧ anyHeld s.sys rs = false ∧ consumeAll 2 (taken c z) rs = none) :=
  metBy (pkt [0, 0, 0]) exactOpen (by decide +kernel)

/-! Obligations.EndingCommandsAreAccepted -/

theorem witness_accReadout : MetBy 0x0202 [bits (tileBits ++ [(20, 2), (17, 1), (16, 1), (8, 8), (0, 2)]), allBits, allBits, allBits,
    allBits, allBits, allBits, allBits, bits [(32, 32), (0, 12)]] (fun pk => badCode pk 0 8 8 fmtCodes || badCode pk 0 0 2 [0,
    1]) fun pk s z c =>
    let n := pf pk 0 32 12
    let t := pf pk 0 24 3
    let u := pf pk 0 20 2
    let o := readOf pk.params
    let f := o.fmt.getD .fp32
    let p := tileAt s.sys n t
    let d := outShape p u
    (badShuttle s.sys n = false ∧ f ≠ .gf64 ∧ f ≠ .wp256 ∧ -256 ≤ o.scale ∧ o.scale ≤ 255 ∧ badClamp o = false ∧ o.slot ≤ 0x3FF ∧
        shortPitch o.pitch (rowBytes f d.2) = false) ∧
    ((aligned64 o.dest = true ∧ o.pitch % 64 = 0 ∧ inStoreOrDram n o.dest (spanBytes d.1 o.pitch (rowBytes f d.2)) = true ∧
        (isBlockFmt f = false → o.destScale = 0 ∧ o.scalePitch = 0)) ∧
    ((isBlockFmt f = true → shortPitch o.scalePitch (scaleRowBytes f d.2) = false ∧ aligned64 o.destScale = true ∧
        o.scalePitch % 64 = 0 ∧ inStoreOrDram n o.destScale (spanBytes d.1 o.scalePitch (scaleRowBytes f d.2)) = true) ∧
        namedTile p u = (.opened, false, (namedTile p u).2.2) ∧ wrongLane c p u = false ∧ (p.guarded = false → u = 0) ∧
        shuttleReady n c z = true)) :=
  metBy (pkt [0x2200, 0, 0, 0, 0, 0, 0, 0, 0]) exactOpen (by decide +kernel)

theorem witness_accExportWide : MetBy 0x0203 [bits tileBits, allBits, bits [(32, 32)]] noCodes fun pk s z c =>
    let n := pf pk 0 32 12
    let t := pf pk 0 24 3
    let x := (tileAt s.sys n t).exact
    (badShuttle s.sys n = false ∧ shortPitch (pf pk 2 32 32) (x.n * 40) = false ∧ pw pk 1 % 8 = 0 ∧ pf pk 2 32 32 % 8 = 0) ∧
    (inStoreOrDram n (pw pk 1) (spanBytes x.m (pf pk 2 32 32) (x.n * 40)) = true ∧ (tileAt s.sys n t).guarded = false ∧
        x.status = .opened ∧ x.failed = false ∧ shuttleReady n c z = true) :=
  metBy (pkt [0, 0, 0]) exactOpen (by decide +kernel)

theorem witness_accDiscard : MetBy 0x0205 discardLayout noCodes fun pk s _ c =>
    let n := pf pk 0 32 12
    let t := pf pk 0 24 3
    let u := pf pk 0 20 2
    let p := tileAt s.sys n t
    badShuttle s.sys n = false ∧ (namedTile p u).1 = .opened ∧ wrongLane c p u = false ∧ (p.guarded = false → u = 0) ∧
        c.behind = none ∧ mending s.sys n = false :=
  metBy (pkt [0]) exactOpen (by decide +kernel)

/-! Obligations.VectorCommandsComplete -/

theorem witness_vecLoad : MetBy 0x0300 [bits [(32, 5), (0, 12)], allBits, allBits, allBits] noCodes fun pk s z c =>
    let len := pf pk 0 0 12
    let src := pw pk 1
    (pf pk 0 32 5 ≤ 17 ∧ (∀ n ∈ loadTargets pk, badShuttle s.sys n = false ∧ (runAt s.sys n).cmd = none ∧ mending s.sys n = false) ∧
        1 ≤ len ∧ len ≤ 2048) ∧
    (fileClosed s.perm [(src, 8 * len)] = false ∧ aligned64 src = true ∧ inDram src (8 * len) = true ∧
        rangeHeld s.sys src (8 * len) = false ∧ consume 8 src (8 * len) (taken c z) = none) :=
  metBy (pkt [0x1, 0, 0, 0]) up (by decide +kernel)

theorem witness_vecRun : MetBy 0x0301 ([bits [(32, 12), (24, 4), (0, 11)], bits [(32,
    32)]] ++ List.replicate 8 allBits) noCodes fun pk s z c =>
    let n := pf pk 0 32 12
    badShuttle s.sys n = false ∧ shuttleReady n c z = true ∧ (runAt s.sys n).cmd = none ∧ engineTaken c z = false :=
  metBy (pkt [0, 0, 0, 0, 0, 0, 0, 0, 0, 0]) up (by decide +kernel)

/-! Obligations.ReductionsComplete -/

theorem witness_redTopk : MetBy 0x0310 [bits (redBits ++ [(17, 1), (16, 1), (0, 7)]), allBits, allBits, allBits, allBits, allBits,
    allBits, allBits, bits [(32, 32)], 0] redEnum fun pk s z c =>
    let o := redOf pk
    let f := redFmt o
    let k := pf pk 0 0 7
    let pairs := pf pk 0 17 1 = 1
    let valPitch := pf pk 6 32 32
    let posPitch := pf pk 6 0 32
    let inPitch := pf pk 8 32 32
    let posIn := if pairs then rowRanges (pw pk 7) inPitch o.rows (4 * o.n) else []
    let outs := rowRanges (pw pk 4) valPitch o.rows (rowBytes f k) ++ rowRanges (pw pk 5) posPitch o.rows (4 * k)
    ((badRedUnit s.sys o = false ∧ isScalarFmt f = true ∧ 1 ≤ k ∧ k ≤ 64) ∧
    (badRedFields o k = false ∧ (pairs → pf pk 3 0 32 = 0 ∧ shortPitch inPitch (4 * o.n) = false ∧ aligned64 (pw pk 7) = true ∧
        inPitch % 64 = 0 ∧ redRange o (pw pk 7) (spanBytes o.rows inPitch (4 * o.n)) = true) ∧ (¬ pairs → pw pk 7 = 0 ∧
        inPitch = 0) ∧ shortPitch valPitch (rowBytes f k) = false ∧ shortPitch posPitch (4 * k) = false)) ∧
    ((badRedSrc o = false ∧ aligned64 (pw pk 4) = true ∧ aligned64 (pw pk 5) = true ∧ valPitch % 64 = 0) ∧
    (posPitch % 64 = 0 ∧ redRange o (pw pk 4) (spanBytes o.rows valPitch (rowBytes f k)) = true ∧
        redRange o (pw pk 5) (spanBytes o.rows posPitch (4 * k)) = true ∧ fileClosed s.perm (redRanges o ++ posIn) = false ∧
        redReady o (redRanges o ++ posIn ++ outs) c z = true)) ∧
    let pos := fun (r e : Nat) => if pairs then readNat s.sys (pw pk 7 + r * inPitch + 4 * e) 4 else (pf pk 3 0 32 + e) % 2 ^ 32
    let rows := (List.range o.rows).map (fun r => rankedRow s.sys o (pos r) r)
    let best := rows.map (fun row => (sortBy (ranks (pf pk 0 16 1 == 1)) row).take k)
    let ws := best.zipIdx.flatMap (fun (p : List Ranked × Nat) => [(pw pk 4 + p.2 * valPitch,
        packCodes (fmtWidth f) (p.1.map (fun e => e.code))), (pw pk 5 + p.2 * posPitch, p.1.flatMap (fun e => leBytes 4 e.pos))])
    (∀ w ∈ ws, protectedHit s.sys (backIsFace c) w.1 w.2.length = false) ∧
        consumeAll (redSource o) (taken c z) (redRanges o ++ posIn) = none :=
  metBy (pkt [0x22000001, 0x100000002, 0, 0, 64, 128, 0, 0, 0, 0]) up (by decide +kernel)

theorem witness_redMaxmin : MetBy 0x0311 [bits redBits, allBits, allBits, allBits, allBits] redEnum fun pk s z c =>
    let o := redOf pk
    let out := pw pk 4
    (badRedUnit s.sys o = false ∧ isScalarFmt (redFmt o) = true ∧ badRedFields o 1 = false ∧ badRedSrc o = false ∧ aligned64 out = true) ∧
    (redRange o out (16 * o.rows) = true ∧ fileClosed s.perm (redRanges o) = false ∧ redReady o ((out,
        16 * o.rows) :: redRanges o) c z = true ∧ protectedHit s.sys (backIsFace c) out (16 * o.rows) = false ∧
        consumeAll (redSource o) (taken c z) (redRanges o) = none) :=
  metBy (pkt [0x22000000, 0x100000002, 0, 0, 64]) up (by decide +kernel)

theorem witness_redCensus : MetBy 0x0312 [bits (redBits ++ [(0, 12)]), allBits, allBits, bits [(32, 32)]] redEnum fun pk s z c =>
    let o := redOf pk
    (badRedUnit s.sys o = false ∧ isScalarFmt (redFmt o) = true ∧ badRedFields o 1 = false ∧ 1 ≤ pf pk 0 0 12) ∧
    (pf pk 0 0 12 ≤ 0x3FF ∧ badRedSrc o = false ∧ fileClosed s.perm (redRanges o) = false ∧ redReady o (redRanges o) c z = true ∧
        consumeAll (redSource o) (taken c z) (redRanges o) = none) :=
  metBy (pkt [0x22000001, 0x100000002, 0, 0]) up (by decide +kernel)

/-! Obligations.RouteCommandsComplete -/

theorem witness_warpFwdSet : MetBy 0x0400 [allBits] noCodes fun pk s z c =>
    let a := pw pk 0
    fileClosed s.perm [(a, 1024)] = false ∧ aligned64 a = true ∧ inDram a 1024 = true ∧ rangeHeld s.sys a 1024 = false ∧
        consume 8 a 1024 z = none ∧ consume 8 a 1024 (taken c z) = none ∧ (∀ e ∈ fwdEntries s.sys a, e < 0x40 ∧
        portUp s.sys e = true ∨ 0xFE ≤ e) ∧ ownEntryUsed s.sys (fwdEntries s.sys a) = false :=
  metBy (pkt [0]) ({ up with sys := { up.sys with lnk := { ports := [(0, upPort)] } } }) (by decide +kernel)

theorem witness_routeSet_free : MetBy 0x0401 [bits [(48, 10), (32, 9), (28, 1), (24, 1), (16, 3), (8, 2), (0, 4)], allBits, bits [(0,
    6), (8, 6), (16, 6), (24, 6), (32, 6), (40, 6), (48, 6), (56, 6)], bits [(0, 6), (8, 6), (16, 6), (24, 6), (32, 6), (40, 6), (48,
    6), (56, 6)]] (fun pk => badCode pk 0 8 2 [0, 1]) fun pk s _ _ =>
    let k := pf pk 0 0 4
    pf pk 0 8 2 = 1 ∧ badRouteFree pk = false ∧ routeInUse s.sys k = false :=
  metBy (pkt [0x100, 0, 0, 0]) up (by decide +kernel)

theorem witness_routeSet : MetBy 0x0401 [bits [(48, 10), (32, 9), (28, 1), (24, 1), (16, 3), (8, 2), (0, 4)], allBits, bits [(0, 6),
    (8, 6), (16, 6), (24, 6), (32, 6), (40, 6), (48, 6), (56, 6)], bits [(0, 6), (8, 6), (16, 6), (24, 6), (32, 6), (40, 6), (48, 6),
    (56, 6)]] (fun pk => badCode pk 0 8 2 [0, 1]) fun pk s z c =>
    let k := pf pk 0 0 4
    let a := pw pk 1
    let n := 4 * pf pk 0 48 10
    let r := routeOf pk s.sys
    (pf pk 0 8 2 ≠ 1 ∧ badRouteFields pk s.sys = false ∧ fileClosed s.perm [(a, n)] = false ∧ rangeHeld s.sys a n = false ∧
        aligned64 a = true) ∧
    (inDram a n = true ∧ (routeAt s.sys k).loaded = false ∧ consume 8 a n z = none ∧ consume 8 a n (taken c z) = none ∧
        badMembers s.sys r a = false ∧ badPeers s.sys r = false) :=
  metBy (pkt [0x2000000000000, 0, 0x505, 0]) ringOfTwo (by decide +kernel)

theorem witness_linkReset : MetBy 0x0430 [bits [(0, 3)]] noCodes fun _ s z _ =>
    collBusy z = false ∧ s.sys.lnk.reset = none :=
  metBy (pkt [0]) up (by decide +kernel)

theorem witness_bktDigestRead : MetBy 0x0420 [bits [(0, 1)], allBits, bits [(0, 32)]] noCodes fun pk s _ c =>
    let recs := if pf pk 0 0 1 = 0 then s.sys.coll.recsOpen else s.sys.coll.recsLast
    let out := (byTag recs).take (pf pk 2 0 32)
    aligned64 (pw pk 1) = true ∧ inDram (pw pk 1) (32 * (recs.take (pf pk 2 0 32)).length) = true ∧
        rangeHeld s.sys (pw pk 1) (32 * (recs.take (pf pk 2 0 32)).length) = false ∧
        protectedHit s.sys (backIsFace c) (pw pk 1) (32 * out.length) = false :=
  metBy (pkt [0, 0, 0]) up (by decide +kernel)

/-! Obligations.BucketCommandsStart -/

theorem witness_bktReduce : MetBy 0x0410 [bits [(48, 16), (40, 4), (32, 5), (24, 8), (0, 12)], bits [(48, 16), (0, 40)], allBits,
    allBits, allBits, allBits] (fun pk => badCode pk 0 24 8 fmtCodes) fun pk s _ c =>
    let b := reduceOf pk
    let r := routeAt s.sys b.route
    (b.die ≤ 17 ∧ pf pk 0 24 8 ∈ [0x22, 0x20] ∧ -256 ≤ b.exp ∧ b.exp ≤ 255 ∧ 2 ≤ b.count ∧ b.count ≤ 2 ^ 36 ∧ b.slot ≤ 0x3FF ∧
        fileClosed s.perm [(b.src, srcBytes b)] = false) ∧
    (badReduceAddr s.sys b = false ∧ r.loaded = true ∧ r.p * r.strands.length ≤ b.count ∧ strandDown s.sys r = false ∧
        b.tag ∉ usedTags s.sys c.shadow ∧ (usedTags s.sys c.shadow).length < 16384 ∧ (bucketsRunning s.sys).length < 64 ∧
        (c.shadow = true ∨ protectedHit s.sys false b.dst (8 * shardLen b.count r.p r.selfPos) = false)) :=
  metBy (pkt [0x7000022000000, 0x2, 0, 64, 128, 192] 1) routed (by decide +kernel)

theorem witness_bktGather : MetBy 0x0411 [bits [(48, 16), (40, 4), (24, 2)], bits [(0, 40)], allBits,
    allBits] (fun pk => badCode pk 0 24 2 [0, 1, 2]) fun pk s z c =>
    let b := gatherOf pk
    let r := routeAt s.sys b.route
    let n := b.esize * shardLen b.count r.p r.selfPos
    (2 ≤ b.count ∧ b.count ≤ 2 ^ 36 ∧ aligned64 b.src = true ∧ aligned64 b.dst = true ∧ inDram b.src n = true ∧
        inDram b.dst (b.esize * b.count) = true ∧ fileClosed s.perm [(b.src, n)] = false ∧ anyHeld s.sys [(b.src, n), (b.dst,
        b.esize * b.count)] = false) ∧
    ((c.shadow = false ∧ r.loaded = true ∧ r.p * r.strands.length ≤ b.count ∧ strandDown s.sys r = false) ∧
    (b.tag ∉ usedTags s.sys false ∧ (usedTags s.sys false).length < 16384 ∧ (bucketsRunning s.sys).length < 64 ∧
        (∀ x ∈ s.sys.coll.buckets, x.cmd ≠ c.id) ∧ protectedHit s.sys false b.dst (b.esize * b.count) = false)) ∧
    let y := startBucket c b (taken c z)
    consume 5 b.src n y = none :=
  metBy (pkt [0x7000001000000, 0x2, 0, 64] 1) routed (by decide +kernel)

/-! Obligations.UpdateCommandsComplete -/

theorem witness_updRun : MetBy 0x0500 ([bits [(32, 5), (24, 8), (16, 8), (12, 1), (0, 12)], bits [(48, 16), (40, 8), (0,
    40)]] ++ List.replicate 14 allBits) (fun pk => badCode pk 0 24 8 [0x01, 0x02, 0x03, 0x80, 0x81, 0x82, 0x83, 0x84, 0x85, 0x86,
    0x87] || badCode pk 0 16 8 fmtCodes) fun pk s z c =>
    let o := updOf pk
    ((o.die ≤ 17 ∧ pf pk 0 16 8 ∈ [0x30, 0x22] ∧ 1 ≤ o.count ∧ o.count ≤ 2 ^ 36 ∧ -256 ≤ o.gexp) ∧
    (o.gexp ≤ 255 ∧ (o.gf64 = false → o.gexp = 0) ∧ badUnused o = false ∧ (∀ i ∈ usedConsts o, f32IsFinite (cst o i) = true) ∧
        (o.nesterov = true → o.prog = 1) ∧ o.slot ≤ 0x3FF)) ∧
    ((fileClosed s.perm (updRanges o) = false ∧ aligned64 o.grad = true ∧ inStack o.die o.grad (o.count * gradSize o) = true ∧
        (∀ a ∈ usedArrays o, aligned64 a.face = true ∧ aligned64 a.back = true ∧ inStack o.die a.face (o.count * a.size) = true ∧
        inStack o.die a.back (o.count * a.size) = true ∧ mapped s.sys o.count a = true) ∧
        overBack s.sys o.grad (o.count * gradSize o) = false) ∧
    (c.shadow = false ∧ dieIdle s.sys o.die = true ∧ anyHeld s.sys (updRanges o ++ updOuts o) = false ∧ (∀ a ∈ usedArrays o,
        (isMicro o = false ∨ a.back ≠ 0) → protectedHit s.sys (backIsFace c) a.back (o.count * a.size) = false) ∧
        consumeAll 3 (taken c z) (updRanges o) = none ∧ isMicro o = false)) :=
  metBy (pkt [0x1220000, 0x1, 1048576, 0, 65536, 128, 65664, 256, 65792, 0, 0, 0, 0, 0, 0, 0] 1) mappedStep (by decide +kernel)

theorem witness_updRun_micro : MetBy 0x0500 ([bits [(32, 5), (24, 8), (16, 8), (12, 1), (0, 12)], bits [(48, 16), (40, 8), (0,
    40)]] ++ List.replicate 14 allBits) (fun pk => badCode pk 0 24 8 [0x01, 0x02, 0x03, 0x80, 0x81, 0x82, 0x83, 0x84, 0x85, 0x86,
    0x87] || badCode pk 0 16 8 fmtCodes) fun pk s z c =>
    let o := updOf pk
    ((o.die ≤ 17 ∧ pf pk 0 16 8 ∈ [0x30, 0x22] ∧ 1 ≤ o.count ∧ o.count ≤ 2 ^ 36 ∧ -256 ≤ o.gexp) ∧
    (o.gexp ≤ 255 ∧ (o.gf64 = false → o.gexp = 0) ∧ badUnused o = false ∧ (∀ i ∈ usedConsts o, f32IsFinite (cst o i) = true) ∧
        (o.nesterov = true → o.prog = 1) ∧ o.slot ≤ 0x3FF)) ∧
    ((fileClosed s.perm (updRanges o) = false ∧ aligned64 o.grad = true ∧ inStack o.die o.grad (o.count * gradSize o) = true ∧
        (∀ a ∈ usedArrays o, aligned64 a.face = true ∧ aligned64 a.back = true ∧ inStack o.die a.face (o.count * a.size) = true ∧
        inStack o.die a.back (o.count * a.size) = true ∧ mapped s.sys o.count a = true) ∧
        overBack s.sys o.grad (o.count * gradSize o) = false ∧ c.shadow = false) ∧
    (dieIdle s.sys o.die = true ∧ anyHeld s.sys (updRanges o ++ updOuts o) = false ∧ (∀ a ∈ usedArrays o,
        (isMicro o = false ∨ a.back ≠ 0) → protectedHit s.sys (backIsFace c) a.back (o.count * a.size) = false) ∧
        consumeAll 3 (taken c z) (updRanges o) = none ∧ isMicro o = true ∧ mapGet [] s.sys.upd.slots (o.prog - 0x80) ≠ [])) :=
  metBy (pkt [0x80220000, 0x1, 1048576, 0, 65536, 128, 65664, 256, 65792, 0, 0, 0, 0, 0, 0, 0] 1) mappedStep (by decide +kernel)

theorem witness_updMicroLoad : MetBy 0x0501 [bits [(0, 3), (8, 7)], allBits] noCodes fun pk s z c =>
    let len := pf pk 0 8 7
    let src := pw pk 1
    (1 ≤ len ∧ len ≤ 64 ∧ fileClosed s.perm [(src, 4 * len)] = false ∧ aligned64 src = true) ∧
    (inDram src (4 * len) = true ∧ rangeHeld s.sys src (4 * len) = false ∧ slotInUse z (pf pk 0 0 3) = false ∧
        consume 8 src (4 * len) z = none ∧ consume 8 src (4 * len) (taken c z) = none) ∧
    let b := readBytes s.sys src (4 * len)
    firstBadMicro (words4 len b) = none :=
  metBy (pkt [0x100, 0]) microImage (by decide +kernel)

/-! Obligations.BobbinCommandsComplete -/

theorem witness_bobConvert : MetBy 0x0510 ([bits [(32, 5), (24, 8), (16, 8), (0,
    12)]] ++ List.replicate 7 allBits) (fun pk => badCode pk 0 24 8 fmtCodes || badCode pk 0 16 8 fmtCodes) fun pk s z c =>
    let o := convOf pk
    let rows := convRows s.sys o
    let ins := planeRanges o.fi o.src o.srcPitch o.srcScale o.srcScalePitch o.rows o.n
    let outs := planeRanges o.fo o.dst o.dstPitch o.dstScale o.dstScalePitch o.rows o.n
    (o.die ≤ 17 ∧ bobPair o.fi o.fo = true ∧ 1 ≤ o.rows ∧ o.rows ≤ 2 ^ 24 ∧ 1 ≤ o.n ∧ o.n ≤ 2 ^ 28 ∧ o.slot ≤ 0x3FF ∧
        badPlane o.fi o.n o.srcPitch o.srcScale o.srcScalePitch = false) ∧
    (badPlane o.fo o.n o.dstPitch o.dstScale o.dstScalePitch = false ∧
        badPlaneAddr o.fi o.rows o.n o.src o.srcPitch o.srcScale o.srcScalePitch = false ∧
        badPlaneAddr o.fo o.rows o.n o.dst o.dstPitch o.dstScale o.dstScalePitch = false ∧ dieIdle s.sys o.die = true ∧
        fileClosed s.perm ins = false ∧ anyHeld s.sys (ins ++ outs) = false ∧ (∀ w ∈ convWrites o rows,
        protectedHit s.sys (backIsFace c) w.1 w.2.length = false) ∧ consumeAll 3 (taken c z) ins = none) :=
  metBy (pkt [0x22200000, 0x100000002, 0, 0, 64, 0, 0, 0]) up (by decide +kernel)

theorem witness_bobGather : MetBy 0x0511 rowLayout (fun pk => badCode pk 0 24 8 (0 :: fmtCodes)) fun pk s z c =>
    let o := rowOf pk
    let todo := (List.range o.rows).map (fun r => (r, rowIndex s.sys o r))
    (o.die ≤ 17 ∧ o.fmt = 0 ∧ o.exp = 0 ∧ o.len % 64 = 0 ∧ firstFail (rowChecks s.perm o false) = none) ∧
    (dieIdle s.sys o.die = true ∧ anyHeld s.sys (rowRangesOf o false) = false ∧
        protectedHit s.sys (backIsFace c) o.dense (spanBytes o.rows o.densePitch o.len) = false ∧
        consume 3 o.idx (4 * o.rows) (taken c z) = none ∧ (∀ p ∈ todo, p.2 < o.tableRows) ∧
        consumeAll 3 (taken c z) (todo.map (fun p => (o.table + p.2 * o.tablePitch, o.len))) = none) :=
  metBy (pkt [0, 0x100000040, 0, 64, 0x100000000, 128, 0]) up (by decide +kernel)

theorem witness_bobScatterAdd : MetBy 0x0512 rowLayout (fun pk => badCode pk 0 24 8 fmtCodes) fun pk s z c =>
    let o := rowOf pk
    let todo := (List.range o.rows).map (fun r => (r, rowIndex s.sys o r))
    (o.die ≤ 17 ∧ o.fmt ∈ [0x22, 0x20] ∧ -256 ≤ o.exp ∧ o.exp ≤ 255 ∧ firstFail (rowChecks s.perm o true) = none) ∧
    (dieIdle s.sys o.die = true ∧ anyHeld s.sys (rowRangesOf o true) = false ∧
        protectedHit s.sys (backIsFace c) o.table (spanBytes o.tableRows o.tablePitch (tableRow o true)) = false ∧
        consume 3 o.idx (4 * o.rows) (taken c z) = none ∧ (∀ p ∈ todo, p.2 < o.tableRows) ∧
        consumeAll 3 (taken c z) (todo.flatMap (fun p => [(o.dense + p.1 * o.densePitch, o.len), (o.table + p.2 * o.tablePitch,
        tableRow o true)])) = none) :=
  metBy (pkt [0x22000000, 0x100000004, 0, 64, 0x100000000, 128, 0]) up (by decide +kernel)

/-! Obligations.MapAndCensusCommandsComplete -/

theorem witness_stateSet_load : MetBy 0x0520 [bits [(24, 4), (16, 2), (0, 8)], allBits, allBits, bits [(0,
    40)]] (fun pk => badCode pk 0 24 4 [0, 1, 2, 3, 4] || badCode pk 0 16 2 [0, 1, 2]) fun pk s _ c =>
    let k := pf pk 0 0 8
    let e := entryAt s.sys k
    let len := pf pk 3 0 40
    c.shadow = false ∧ weaveSender s.sys = false ∧ pf pk 0 16 2 = 0 ∧ e.state = .free ∧
        badEntryRanges s.sys (pw pk 1) (pw pk 2) len = false :=
  metBy (pkt [0, 0, 65536, 65536]) up (by decide +kernel)

theorem witness_stateSet_activate : MetBy 0x0520 [bits [(24, 4), (16, 2), (0, 8)], allBits, allBits, bits [(0,
    40)]] (fun pk => badCode pk 0 24 4 [0, 1, 2, 3, 4] || badCode pk 0 16 2 [0, 1, 2]) fun pk s _ c =>
    let k := pf pk 0 0 8
    let e := entryAt s.sys k
    let len := pf pk 3 0 40
    c.shadow = false ∧ weaveSender s.sys = false ∧ pw pk 1 = 0 ∧ pw pk 2 = 0 ∧ len = 0 ∧ pf pk 0 24 4 = 0 ∧ pf pk 0 16 2 = 1 ∧
        e.state = .loading :=
  metBy (pkt [0x10000, 0, 0, 0]) loadingEntry (by decide +kernel)

theorem witness_stateSet_free : MetBy 0x0520 [bits [(24, 4), (16, 2), (0, 8)], allBits, allBits, bits [(0,
    40)]] (fun pk => badCode pk 0 24 4 [0, 1, 2, 3, 4] || badCode pk 0 16 2 [0, 1, 2]) fun pk s _ c =>
    let k := pf pk 0 0 8
    let e := entryAt s.sys k
    let len := pf pk 3 0 40
    c.shadow = false ∧ weaveSender s.sys = false ∧ pw pk 1 = 0 ∧ pw pk 2 = 0 ∧ len = 0 ∧ pf pk 0 24 4 = 0 ∧ pf pk 0 16 2 = 2 ∧
        (e.state = .active → s.sys.stp.state = .idle) :=
  metBy (pkt [0x20000, 0, 0, 0]) loadingEntry (by decide +kernel)

theorem witness_stateRead : MetBy 0x0521 [bits [(0, 8)]] noCodes fun _ _ _ _ =>
    True :=
  metBy (pkt [0]) up (by decide +kernel)

theorem witness_censusClear : MetBy 0x0530 [bits [(0, 12), (16, 1), (32, 12)], bits [(0, 16)]] noCodes fun pk _ _ _ =>
    let first := pf pk 0 0 12
    let last := pf pk 0 32 12
    1 ≤ first ∧ first ≤ last ∧ last ≤ 0x3FF :=
  metBy (pkt [0x200000001, 0]) up (by decide +kernel)

theorem witness_censusRead : MetBy 0x0531 [bits [(0, 12)], allBits] noCodes fun pk s _ c =>
    let slot := pf pk 0 0 12
    1 ≤ slot ∧ slot ≤ 0x3FF ∧ aligned64 (pw pk 1) = true ∧ inDram (pw pk 1) 576 = true ∧ rangeHeld s.sys (pw pk 1) 576 = false ∧
        protectedHit s.sys (backIsFace c) (pw pk 1) 576 = false :=
  metBy (pkt [1, 0]) up (by decide +kernel)

/-! Obligations.StepCommandsComplete -/

theorem witness_stepBegin : MetBy 0x0600 [bits [(0, 1)]] noCodes fun pk s z c =>
    let n := pk.step.toNat
    let origin := pf pk 0 0 1 == 1
    s.sys.stp.weave = none ∧ s.sys.stp.state = .idle ∧ (origin = false → n = s.sys.stp.lastCommit + 1) ∧ s.sys.stp.agreed = true ∧
        stepTurn c z = true :=
  metBy (pkt [0] 1) ({ up with sys := { up.sys with stp := { agreed := true } } }) (by decide +kernel)

theorem witness_stepPrepare : MetBy 0x0601 [] noCodes fun pk s z c =>
    weaveSender s.sys = false ∧ s.sys.stp.state = .opened ∧ pk.step.toNat = s.sys.stp.lastCommit + 1 ∧ stepTurn c z = true :=
  metBy (pkt [] 1) inStep (by decide +kernel)

theorem witness_stepCommit : MetBy 0x0602 [] noCodes fun pk s z c =>
    weaveSender s.sys = false ∧ stepTurn c z = true ∧ s.sys.stp.state = .prepared ∧ s.sys.stp.shadow = false ∧
        pk.step.toNat = s.sys.stp.lastCommit + 1 :=
  metBy (pkt [] 1) ({ up with sys := { up.sys with stp := { state := .prepared, agreed := true } } }) (by decide +kernel)

theorem witness_stepCommit_again : MetBy 0x0602 [] noCodes fun pk s z c =>
    weaveSender s.sys = false ∧ stepTurn c z = true ∧ s.sys.stp.state = .idle ∧ pk.step.toNat = s.sys.stp.lastCommit :=
  metBy (pkt [] 1) ({ up with sys := { up.sys with stp := { lastCommit := 1, agreed := true } } }) (by decide +kernel)

theorem witness_stepAbort : MetBy 0x0603 [] noCodes fun pk s _ _ =>
    let n := pk.step.toNat
    weaveSender s.sys = false ∧ s.sys.stp.state ≠ .idle ∧ n = s.sys.stp.lastCommit + 1 :=
  metBy (pkt [] 1) inStep (by decide +kernel)

theorem witness_stepUndo : MetBy 0x0604 [] noCodes fun pk s z c =>
    s.sys.stp.weave = none ∧ s.sys.stp.state = .idle ∧ pk.step.toNat = s.sys.stp.lastCommit ∧ s.sys.stp.undoValid = true ∧
        stepTurn c z = true :=
  metBy (pkt [] 1) ({ up with sys := { up.sys with stp := { lastCommit := 1, undoValid := true } } }) (by decide +kernel)

/-! Obligations.TwinCommandsComplete -/

theorem witness_twinSet : MetBy 0x0610 [bits [(24, 2), (0, 10)]] (fun pk => badCode pk 0 24 2 [0, 1, 2]) fun pk s z c =>
    let mode := twinModeOf (pf pk 0 24 2)
    let dev := pf pk 0 0 10
    s.sys.stp.state = .idle ∧ (∀ r ∈ s.sys.coll.routes, r.2.loaded = false) ∧ s.sys.stp.weave = none ∧ s.sys.coll.selfValid = true ∧
        (mode = .none → dev = 0) ∧ (mode ≠ .none → dev ≠ s.sys.coll.selfDev.toNat ∧ ∀ w ∈ upTwin s.sys,
        (portAt s.sys w).peerDevice = dev ∧ (portAt s.sys w).peerPort ∈ twinPorts) ∧ stepTurn c z = true :=
  metBy (pkt [0x1000002]) ({ up with sys := { up.sys with coll := { selfValid := true } } }) (by decide +kernel)

theorem witness_shadowBegin : MetBy 0x0611 [] noCodes fun pk s z c =>
    weaveSender s.sys = false ∧ (s.sys.stp.state = .sealed ∨ s.sys.stp.state = .prepared) ∧ s.sys.stp.shadow = false ∧
        pk.step.toNat = s.sys.stp.lastCommit + 1 ∧ stepTurn c z = true :=
  metBy (pkt [] 1) ({ up with sys := { up.sys with stp := { state := .sealed } } }) (by decide +kernel)

theorem witness_shadowEnd : MetBy 0x0612 [allBits, bits [(0, 32)]] noCodes fun pk s z c =>
    let recs := s.sys.coll.recsShadow
    let out := (byTag recs).take (pf pk 1 0 32)
    (weaveSender s.sys = false ∧ pk.step.toNat = s.sys.stp.lastCommit + 1 ∧ s.sys.stp.shadow = true ∧ aligned64 (pw pk 0) = true) ∧
    (inDram (pw pk 0) (32 * (recs.take (pf pk 1 0 32)).length) = true ∧
        rangeHeld s.sys (pw pk 0) (32 * (recs.take (pf pk 1 0 32)).length) = false ∧ stepTurn c z = true ∧ shadowLeft z = false ∧
        protectedHit s.sys (backIsFace c) (pw pk 0) (32 * out.length) = false) :=
  metBy (pkt [0, 0] 1) ({ up with sys := { up.sys with stp := { state := .sealed, shadow := true } } }) (by decide +kernel)

theorem witness_weaveSend : MetBy 0x0620 [] noCodes fun _ s z c =>
    s.sys.stp.state = .idle ∧ twinOn s.sys = true ∧ s.sys.stp.weave = none ∧ weaveTurn c z = true ∧ upTwin s.sys ≠ [] ∧
        anyHeld s.sys (faceRanges s.sys) = false ∧ consumeAll 5 (taken c z) (faceRanges s.sys) = none :=
  metBy (pkt []) twinned (by decide +kernel)

theorem witness_weaveRecv : MetBy 0x0621 [] noCodes fun _ s z c =>
    s.sys.stp.state = .idle ∧ twinOn s.sys = true ∧ s.sys.stp.weave = none ∧ (∀ p ∈ s.sys.smap.entries, p.2.state = .free) ∧
        weaveTurn c z = true ∧ upTwin s.sys ≠ [] :=
  metBy (pkt []) twinned (by decide +kernel)

/-! Obligations.RegisterCommandsComplete -/

/-! Obligations.LockCommandsComplete -/

theorem witness_lockAcquire_noLease : LocksMetBy 0x0710 fun pk _ _ _ =>
    pf pk 0 32 32 = 0 :=
  locksMetBy (pkt [0x0]) up (by decide +kernel)

theorem witness_lockAcquire_free : LocksMetBy 0x0710 fun pk _ z _ =>
    let k := pf pk 0 0 6
    let l := mapGet ({} : Lock) z.lck k
    pf pk 0 32 32 ≠ 0 ∧ l.state = .free :=
  locksMetBy (pkt [0x900000000]) up (by decide +kernel)

theorem witness_lockAcquire_broken : LocksMetBy 0x0710 fun pk _ z _ =>
    let k := pf pk 0 0 6
    let l := mapGet ({} : Lock) z.lck k
    pf pk 0 32 32 ≠ 0 ∧ l.state = .broken :=
  locksMetBy (pkt [0x900000000]) ({ up with sys := { up.sys with lck := [(0, { state := .broken, cause := 1 })] } }) (by decide +kernel)

theorem witness_lockAcquire_held : LocksMetBy 0x0710 fun pk _ z _ =>
    let k := pf pk 0 0 6
    let l := mapGet ({} : Lock) z.lck k
    pf pk 0 32 32 ≠ 0 ∧ l.state = .held :=
  locksMetBy (pkt [0x900000000]) lockHeld (by decide +kernel)

theorem witness_lockRenew_noLease : LocksMetBy 0x0711 fun pk _ _ _ =>
    pf pk 0 32 32 = 0 :=
  locksMetBy (pkt [0x0]) up (by decide +kernel)

theorem witness_lockRenew_held : LocksMetBy 0x0711 fun pk _ z c =>
    let k := pf pk 0 0 6
    let l := mapGet ({} : Lock) z.lck k
    pf pk 0 32 32 ≠ 0 ∧ l.state = .held ∧ l.owner = c.creel :=
  locksMetBy (pkt [0x900000000]) lockHeld (by decide +kernel)

theorem witness_lockRenew_other : LocksMetBy 0x0711 fun pk _ z c =>
    let k := pf pk 0 0 6
    let l := mapGet ({} : Lock) z.lck k
    pf pk 0 32 32 ≠ 0 ∧ (¬ (l.state = .held ∧ l.owner = c.creel)) :=
  locksMetBy (pkt [0x900000000]) up (by decide +kernel)

theorem witness_lockRelease_lease : LocksMetBy 0x0712 fun pk _ _ _ =>
    pf pk 0 32 32 ≠ 0 :=
  locksMetBy (pkt [0x900000000]) up (by decide +kernel)

theorem witness_lockRelease_held : LocksMetBy 0x0712 fun pk _ z c =>
    let k := pf pk 0 0 6
    let l := mapGet ({} : Lock) z.lck k
    pf pk 0 32 32 = 0 ∧ l.state = .held ∧ l.owner = c.creel :=
  locksMetBy (pkt [0x0]) lockHeld (by decide +kernel)

theorem witness_lockRelease_other : LocksMetBy 0x0712 fun pk _ z c =>
    let k := pf pk 0 0 6
    let l := mapGet ({} : Lock) z.lck k
    pf pk 0 32 32 = 0 ∧ (¬ (l.state = .held ∧ l.owner = c.creel)) :=
  locksMetBy (pkt [0x0]) up (by decide +kernel)

/-! Obligations.FirmwareCommandsComplete -/

theorem witness_fwQuery : MetBy 0x0800 [] noCodes fun _ _ _ _ =>
    True :=
  metBy (pkt []) up (by decide +kernel)

theorem witness_unitReset_standby : MetBy 0x0810 [bits [(8, 2), (0, 5)]] (fun pk => badCode pk 0 8 2 [0, 1]) fun pk s _ _ =>
    let die := pf pk 0 0 5
    pf pk 0 8 2 = 1 ∧ die = 0 ∧ resetting s.sys true 0 = false :=
  metBy (pkt [0x100]) up (by decide +kernel)

theorem witness_unitReset_die : MetBy 0x0810 [bits [(8, 2), (0, 5)]] (fun pk => badCode pk 0 8 2 [0, 1]) fun pk s z c =>
    let die := pf pk 0 0 5
    pf pk 0 8 2 ≠ 1 ∧ die ≤ 17 ∧ resetting s.sys false die = false ∧ s.sys.stp.state = .idle ∧ dieOpen s.sys die = false ∧
        (∀ d ∈ z.cm.cmds, d.id < c.id → d.phase = .running → traceUnitOf d.op d.pkt ≠ die) :=
  metBy (pkt [0]) up (by decide +kernel)

theorem witness_hsHandover : MetBy 0x0811 [] noCodes fun _ s z c =>
    s.sys.hs.standby = .ready ∧ s.sys.stp.state = .idle ∧ s.sys.stp.weave = none ∧ s.sys.sec.armed = false ∧ (∀ d ∈ z.cm.cmds,
        d.id ≠ c.id → deviceLevel d = false) :=
  metBy (pkt []) ({ up with sys := { up.sys with hs := { standby := .ready } } }) (by decide +kernel)

theorem witness_attest_service : MetBy 0x0820 [bits [(1, 1), (0, 1)], allBits, allBits, allBits, allBits, allBits] noCodes fun pk _ _ c =>
    pf pk 0 0 1 = 1 ∧ c.creel = 64 ∧ pw pk 5 = 0 :=
  metBy { pkt [1, 0, 0, 0, 0, 0] with creel := 0x80 } up (by decide +kernel)

theorem witness_attest : MetBy 0x0820 [bits [(1, 1), (0, 1)], allBits, allBits, allBits, allBits, allBits] noCodes fun pk s z c =>
    let cert := if pf pk 0 1 1 = 1 then certificate else []
    let nonce := (List.range 4).flatMap (fun i => leBytes 8 (pw pk (i + 1)))
    let seq := (s.sys.sec.reportSeq + 1) % 2 ^ 32
    let y := { taken c z with sec := { s.sys.sec with reportSeq := seq } }
    let rep := reportBytes s.perm y nonce seq
    pf pk 0 0 1 = 0 ∧ aligned64 (pw pk 5) = true ∧ inDram (pw pk 5) (896 + cert.length) = true ∧
        rangeHeld s.sys (pw pk 5) (896 + cert.length) = false ∧ protectedHit s.sys true (pw pk 5) (rep ++ cert).length = false :=
  metBy (pkt [0, 0, 0, 0, 0, 0]) up (by decide +kernel)

theorem witness_measureRead : MetBy 0x0821 [bits [(0, 11)], allBits] noCodes fun pk s _ _ =>
    let h := s.sys.hs.active
    let evs := ((s.sys.sec.log.filter (fun e => e.1 == h)).map (fun e => e.2)).take (pf pk 0 0 11)
    let out := (List.range 8).flatMap (measOf s.sys h) ++ evs.flatten
    pf pk 0 0 11 ≤ 1040 ∧ aligned64 (pw pk 1) = true ∧ inDram (pw pk 1) (256 + 64 * evs.length) = true ∧
        rangeHeld s.sys (pw pk 1) (256 + 64 * evs.length) = false ∧ protectedHit s.sys true (pw pk 1) out.length = false :=
  metBy (pkt [1, 0]) up (by decide +kernel)

theorem witness_fuseDebugOff_arm : MetBy 0x0830 [bits [(0, 2), (32, 32)]] (fun pk => badCode pk 0 0 2 [0, 1, 2]) fun pk s _ _ =>
    debugOff s.perm = false ∧ pf pk 0 0 2 = 0 ∧ pf pk 0 32 32 = 0 ∧ s.sys.sec.armed = false :=
  metBy (pkt [0]) up (by decide +kernel)

theorem witness_fuseDebugOff_confirm : MetBy 0x0830 [bits [(0, 2), (32, 32)]] (fun pk => badCode pk 0 0 2 [0, 1, 2]) fun pk s _ c =>
    debugOff s.perm = false ∧ pf pk 0 0 2 = 1 ∧ confirms c s.sys (pf pk 0 32 32) = true :=
  metBy (pkt [0x700000001]) ({ up with sys := { up.sys with sec := { armed := true, code := 7 } } }) (by decide +kernel)

theorem witness_fuseDebugOff_cancel : MetBy 0x0830 [bits [(0, 2), (32, 32)]] (fun pk => badCode pk 0 0 2 [0, 1, 2]) fun pk s _ _ =>
    debugOff s.perm = false ∧ pf pk 0 0 2 = 2 ∧ pf pk 0 32 32 = 0 ∧ s.sys.sec.armed = true :=
  metBy (pkt [2]) ({ up with sys := { up.sys with sec := { armed := true, code := 7 } } }) (by decide +kernel)

/-! Obligations.ObservationCommandsComplete -/

theorem witness_ctrConfig_stop : MetBy 0x0900 [bits [(8, 2), (0, 3)], bits [(0, 32)], allBits, bits [(0, 11)], allBits, bits [(0,
    5)]] (fun pk => badCode pk 0 8 2 [0, 1]) fun pk _ _ _ =>
    pf pk 0 8 2 = 1 ∧ (∀ i < 5, pw pk (i + 1) = 0) :=
  metBy (pkt [0x100, 0, 0, 0, 0, 0]) up (by decide +kernel)

theorem witness_ctrRead : MetBy 0x0901 [bits [(0, 3)], allBits] noCodes fun pk s _ _ =>
    let k := pf pk 0 0 3
    (ctrSet s.sys k).started = true ∧ badObsAddr s.sys (pw pk 1) (recBytes (ctrSet s.sys k).sels) = false :=
  metBy (pkt [0, 0]) ({ up with sys := { up.sys with obs := { sets := [(0, { started := true })] } } }) (by decide +kernel)

theorem witness_evlogRead : MetBy 0x0930 [bits [(0, 32)], bits [(0, 16)], allBits] noCodes fun pk s _ _ =>
    let max := pf pk 1 0 16
    let recs := evlogRecords s.sys (pf pk 0 0 32) max
    1 ≤ max ∧ max ≤ 32768 ∧ badObsAddr s.sys (pw pk 2) (32 * recs.length) = false ∧
        rangeHeld s.sys (pw pk 2) (32 * recs.length) = false :=
  metBy (pkt [0, 1, 0]) up (by decide +kernel)

theorem witness_lifeRead : MetBy 0x0931 [allBits] noCodes fun pk s _ _ =>
    badObsAddr s.sys (pw pk 0) 4288 = false ∧ rangeHeld s.sys (pw pk 0) 4288 = false :=
  metBy (pkt [0]) up (by decide +kernel)

theorem witness_traceConfig : MetBy 0x0910 [bits [(24, 5), (16, 1), (8, 2)], bits [(0, 27)], bits [(32, 32), (0, 8)], allBits,
    bits [(0, 6)]] (fun pk => badCode pk 0 8 2 [0, 1]) fun pk s _ _ =>
    let trig := pf pk 0 16 1 = 1
    let t : TraceSt := { state := .running, trigger := pf pk 0 16 1 == 1, units := pf pk 1 0 27, types := pf pk 0 24 5, post := pf pk 2 32 32, base := pw pk 3, regionLog2 := pf pk 4 0 6, trigMask := pf pk 2 0 8 }
    pf pk 0 8 2 ≠ 1 ∧ pf pk 1 0 27 ≠ 0 ∧ (trig → pf pk 2 32 32 ≠ 0) ∧ (¬ trig → pf pk 2 32 32 = 0 ∧ pf pk 2 0 8 = 0) ∧
        16 ≤ pf pk 4 0 6 ∧ pf pk 4 0 6 ≤ 32 ∧ badObsAddr s.sys (pw pk 3) ((enabledUnits t).length * 2 ^ pf pk 4 0 6) = false ∧
        s.sys.obs.trace.state = .stopped :=
  metBy (pkt [0, 1, 0, 0, 16]) up (by decide +kernel)

theorem witness_traceConfig_stopped : MetBy 0x0910 [bits [(24, 5), (16, 1), (8, 2)], bits [(0, 27)], bits [(32, 32), (0, 8)],
    allBits, bits [(0, 6)]] (fun pk => badCode pk 0 8 2 [0, 1]) fun pk s _ _ =>
    let trig := pf pk 0 16 1 = 1
    pf pk 0 8 2 = 1 ∧ s.sys.obs.trace.stopping = none ∧ pf pk 0 24 5 = 0 ∧ ¬ trig ∧ (∀ i < 4, pw pk (i + 1) = 0) ∧
        s.sys.obs.trace.state = .stopped :=
  metBy (pkt [0x100, 0, 0, 0, 0]) up (by decide +kernel)

theorem witness_traceConfig_stop : MetBy 0x0910 [bits [(24, 5), (16, 1), (8, 2)], bits [(0, 27)], bits [(32, 32), (0, 8)], allBits,
    bits [(0, 6)]] (fun pk => badCode pk 0 8 2 [0, 1]) fun pk s _ _ =>
    let trig := pf pk 0 16 1 = 1
    pf pk 0 8 2 = 1 ∧ s.sys.obs.trace.stopping = none ∧ pf pk 0 24 5 = 0 ∧ ¬ trig ∧ (∀ i < 4, pw pk (i + 1) = 0) ∧
        s.sys.obs.trace.state ≠ .stopped :=
  metBy (pkt [0x100, 0, 0, 0, 0]) ({ up with sys := { up.sys with obs := { trace := { state := .running, units := 1 } } } }) (by decide +kernel)

theorem witness_traceTrigger : MetBy 0x0911 [bits [(0, 8)]] noCodes fun _ _ _ _ =>
    True :=
  metBy (pkt [3]) up (by decide +kernel)

theorem witness_watchSet_arm : MetBy 0x0920 [bits [(17, 1), (16, 1), (8, 2), (0, 4)], bits [(32, 32)], bits [(0, 48)],
    allBits] (fun pk => badCode pk 0 8 2 [0, 1, 2]) fun pk _ _ _ =>
    let stats := pf pk 0 16 1 = 1
    let dig := pf pk 0 17 1 = 1
    pf pk 0 8 2 = 0 ∧ (stats ∨ dig) ∧ pw pk 3 = 0 :=
  metBy (pkt [0x10000, 0, 0, 0]) up (by decide +kernel)

theorem witness_watchSet_disarm : MetBy 0x0920 [bits [(17, 1), (16, 1), (8, 2), (0, 4)], bits [(32, 32)], bits [(0, 48)],
    allBits] (fun pk => badCode pk 0 8 2 [0, 1, 2]) fun pk _ _ _ =>
    let stats := pf pk 0 16 1 = 1
    let dig := pf pk 0 17 1 = 1
    pf pk 0 8 2 = 1 ∧ ¬ stats ∧ ¬ dig ∧ pw pk 1 = 0 ∧ pw pk 2 = 0 ∧ pw pk 3 = 0 :=
  metBy (pkt [0x100, 0, 0, 0]) up (by decide +kernel)

theorem witness_watchSet_read : MetBy 0x0920 [bits [(17, 1), (16, 1), (8, 2), (0, 4)], bits [(32, 32)], bits [(0, 48)],
    allBits] (fun pk => badCode pk 0 8 2 [0, 1, 2]) fun pk s _ _ =>
    let stats := pf pk 0 16 1 = 1
    let dig := pf pk 0 17 1 = 1
    pf pk 0 8 2 = 2 ∧ ¬ stats ∧ ¬ dig ∧ pw pk 1 = 0 ∧ pw pk 2 = 0 ∧ badObsAddr s.sys (pw pk 3) 64 = false ∧
        rangeHeld s.sys (pw pk 3) 64 = false :=
  metBy (pkt [0x200, 0, 0, 0]) up (by decide +kernel)

/-! Obligations.IntegrityCommandsComplete -/

theorem witness_burlerSet : MetBy 0x0940 [bits [(0, 3)]] (fun pk => badCode pk 0 0 3 [0, 1, 2, 3, 4]) fun _ _ _ _ =>
    True :=
  metBy (pkt [4]) up (by decide +kernel)

theorem witness_mendRead : MetBy 0x0941 [bits [(0, 5)], allBits] noCodes fun pk s _ _ =>
    let d := pf pk 0 0 5
    let rec_ := mendRecord s.perm s.sys d
    d ≤ 17 ∧ aligned64 (pw pk 1) = true ∧ inDram (pw pk 1) 208 = true ∧ rangeHeld s.sys (pw pk 1) 208 = false ∧
        protectedHit s.sys true (pw pk 1) rec_.length = false :=
  metBy (pkt [17, 0]) up (by decide +kernel)

theorem witness_steplogRead : MetBy 0x0942 [bits [(0, 48)], bits [(0, 13)], allBits] noCodes fun pk s z c =>
    let max := pf pk 1 0 13
    let es := (s.sys.nv.steplog.filter (fun e => decide (pf pk 0 0 48 ≤ e.step))).take max
    let out := es.flatMap stepLogBytes
    1 ≤ max ∧ max ≤ 4096 ∧ aligned64 (pw pk 2) = true ∧ inDram (pw pk 2) (64 * es.length) = true ∧ stepTurn c z = true ∧
        rangeHeld s.sys (pw pk 2) (64 * es.length) = false ∧ protectedHit s.sys true (pw pk 2) out.length = false :=
  metBy (pkt [0, 1, 0]) up (by decide +kernel)

theorem witness_ckptStream_out : MetBy 0x0943 [bits [(56, 2), (8, 6), (0, 8)], bits [(0, 40)], bits [(0,
    40)]] (fun pk => badCode pk 0 56 2 [0, 1, 2]) fun pk s _ _ =>
    let dir := pf pk 0 56 2
    let port := pf pk 0 8 6
    let e := pf pk 0 0 8
    let x := entryAt s.sys e
    let off := pf pk 1 0 40
    let len := if pf pk 2 0 40 = 0 then x.length - off else pf pk 2 0 40
    (dir ≠ 2 ∧ off % 4096 = 0 ∧ pf pk 2 0 40 % 64 = 0 ∧ off + len ≤ x.length ∧ port ∉ twinPorts ∧ (∀ r ∈ s.sys.coll.routes,
        r.2.loaded = true → port ∉ strandPorts r.2)) ∧
    (portUp s.sys port = true ∧ s.sys.stp.weave = none ∧ streamOn s.sys port = false ∧ dir = 0 ∧ x.state = .active ∧
        rangeHeld s.sys (x.face + off) len = false) :=
  metBy (pkt [0, 0, 0]) streamOut (by decide +kernel)

theorem witness_ckptStream_in : MetBy 0x0943 [bits [(56, 2), (8, 6), (0, 8)], bits [(0, 40)], bits [(0,
    40)]] (fun pk => badCode pk 0 56 2 [0, 1, 2]) fun pk s _ _ =>
    let dir := pf pk 0 56 2
    let port := pf pk 0 8 6
    let e := pf pk 0 0 8
    let x := entryAt s.sys e
    let off := pf pk 1 0 40
    let len := if pf pk 2 0 40 = 0 then x.length - off else pf pk 2 0 40
    (dir ≠ 2 ∧ off % 4096 = 0 ∧ pf pk 2 0 40 % 64 = 0 ∧ off + len ≤ x.length ∧ port ∉ twinPorts ∧ (∀ r ∈ s.sys.coll.routes,
        r.2.loaded = true → port ∉ strandPorts r.2)) ∧
    (portUp s.sys port = true ∧ s.sys.stp.weave = none ∧ streamOn s.sys port = false ∧ dir = 1 ∧ x.state = .loading ∧
        s.sys.stp.state = .idle) :=
  metBy (pkt [0x100000000000000, 0, 0]) streamIn (by decide +kernel)

theorem witness_ckptStream_cancel : MetBy 0x0943 [bits [(56, 2), (8, 6), (0, 8)], bits [(0, 40)], bits [(0,
    40)]] (fun pk => badCode pk 0 56 2 [0, 1, 2]) fun pk s _ _ =>
    let d : Ckpt := { cmd := 9, inward := true, port := 0, entry := 0, offset := 0, length := 64, step := 0, device := 0 }
    let dir := pf pk 0 56 2
    let port := pf pk 0 8 6
    let e := pf pk 0 0 8
    let off := pf pk 1 0 40
    dir = 2 ∧ e = 0 ∧ off = 0 ∧ pf pk 2 0 40 = 0 ∧ s.sys.stp.ckpts.find? (fun d => d.port == port) = some d :=
  metBy (pkt [0x200000000000000, 0,
      0]) ({ up with sys := { up.sys with stp := { ckpts := [{ cmd := 9, inward := true, port := 0, entry := 0, offset := 0, length := 64, step := 0, device := 0 }] } } }) (by decide +kernel)

/-! ### Vector and microprogram instructions -/

/-- A thread whose mask m1 holds lane 0. -/
def thread : VThread := { m := [0, 1, 0, 0] }

/-- Shuttle 0 runs one thread, which stands at instruction w. -/
def atInstr (w : Word64) (cells : SMap Byte := []) : State := { up with sys := { up.sys with
  mem := { cells := cells },
  cm := { cmds := [{ id := 0, op := 0x0301, pkt := pkt (List.replicate 10 0), creel := 0, lane := 0, phase := .running }], nextId := 1 },
  vec := { prog := [(0, w)], runs := [(0, { cmd := some 0, threads := [thread] })] } } }

/-- What that instruction runs in. -/
def ctxOf (w : Word64) : VCtx :=
  { n := 0, h := 0, w := w.toNat, th := thread,
    c := { id := 0, op := 0x0301, pkt := pkt (List.replicate 10 0), creel := 0, lane := 0, phase := .running } }

/-- Some thread stands at an instruction of the OP, and P holds there. -/
abbrev MetAt (op : Nat) (P : State → VCtx → Prop) : Prop := ∃ (s : State) (k : VCtx), AtInstr op s k ∧ P s k

/-- An instruction word from OP, D, mask, T and the low bits. -/
def insn (op d m t low : Nat) : Word64 := BitVec.ofNat 64 (op * 2 ^ 56 + d * 2 ^ 52 + m * 2 ^ 42 + t * 2 ^ 32 + low)

theorem mayRun_atInstr (w : Word64) (cells : SMap Byte) : mayRun (atInstr w cells).sys 0 0 = true := by
  simp [mayRun, threadReady, atInstr, engAt, mapGet, thread, up]

/-- No channel retrains, and every slot of the engine is free. -/
theorem free_atInstr (w : Word64) (cells : SMap Byte) (k : VCtx) :
    instrHeld (viewed k.c (atInstr w cells).sys) k = false ∧ instrUnissued (viewed k.c (atInstr w cells).sys) k = false := by
  have h1 : ∀ g, retraining (viewed k.c (atInstr w cells).sys) g = false := fun _ => rfl
  have h2 : ∀ g, slotFits (engAt (viewed k.c (atInstr w cells).sys) k.n) g = true := fun _ => rfl
  exact ⟨by simp [instrHeld, h1], by simp [instrUnissued, h2]⟩

theorem metAt {op : Nat} {P : State → VCtx → Prop} (w : Word64) (ho : nfld w.toNat 56 8 = op)
    (h : P (atInstr w) (ctxOf w)) : MetAt op P :=
  ⟨atInstr w, ctxOf w, ⟨rfl, rfl, mayRun_atInstr w [], .inl rfl, ho, free_atInstr w [] _⟩, h⟩

/-! Obligations.LaneInstructionsComplete -/

theorem witness_lane_instructions (op : Nat) (h : op ∈ [0x10, 0x11, 0x12, 0x13, 0x14, 0x15, 0x16, 0x17, 0x18, 0x19, 0x1A, 0x1B, 0x1C]) :
    MetAt op (fun _ k => tyOf (vT k) = some .f32 ∧ vT k = 2) := by
  have h' : ∀ op ∈ [0x10, 0x11, 0x12, 0x13, 0x14, 0x15, 0x16, 0x17, 0x18, 0x19, 0x1A, 0x1B, 0x1C],
      nfld (insn op 1 0 2 0).toNat 56 8 = op ∧ tyOf (vT (ctxOf (insn op 1 0 2 0))) = some .f32 ∧
        vT (ctxOf (insn op 1 0 2 0)) = 2 := by decide +kernel
  exact metAt (insn op 1 0 2 0) (h' op h).1 (h' op h).2

theorem witness_vcmp : MetAt 0x1D (fun _ k => tyOf (vT k) = some .u32 ∧ nfld k.w 0 3 ≤ 5 ∧ 1 ≤ vD k ∧ vD k ≤ 3) :=
  metAt (insn 0x1D 3 0 1 5) (by decide) (by decide +kernel)

theorem witness_vcmp_m0 : MetAt 0x1D (fun _ k => tyOf (vT k) = some .i32 ∧ nfld k.w 0 3 ≤ 5 ∧ vD k = 0) :=
  metAt (insn 0x1D 0 0 0 0) (by decide) (by decide +kernel)

theorem witness_vsel : MetAt 0x1E (fun _ k => tyOf (vT k) = some .i32 ∧ vB k ≤ 3) :=
  metAt (insn 0x1E 0 0 0 0) (by decide) (by decide +kernel)

theorem witness_vcvt : MetAt 0x1F (fun _ k => convertTarget (vT k) = some (.inr .i32) ∧ vPol k ≤ 1) :=
  metAt (insn 0x1F 0 0 0 0) (by decide) (by decide +kernel)

/-! Obligations.VectorMemoryInstructionsComplete -/

theorem witness_vld : MetAt 0x01 (fun s k => memWidth (vT k) = some 32 ∧ (∀ l ∈ onLanes k,
    badElem (seen s k) k.n 32 (lineAddr k 32 l) = false) ∧
    consumeAll 2 (seen s k) (((onLanes k).map (lineAddr k 32)).map (fun a => (a.1, elemBytes 32))) = none) :=
  metAt (insn 0x01 0 1 0 0) (by decide) (by decide +kernel)

theorem witness_vgather : MetAt 0x03 (fun s k => memWidth (vT k) = some 32 ∧ (∀ l ∈ onLanes k,
    badElem (seen s k) k.n 32 (scatAddr k 32 l) = false) ∧
    consumeAll 2 (seen s k) (((onLanes k).map (scatAddr k 32)).map (fun a => (a.1, elemBytes 32))) = none) :=
  metAt (insn 0x03 0 1 0 0) (by decide) (by decide +kernel)

theorem witness_vst : MetAt 0x02 (fun s k => memWidth (vT k) = some 4 ∧ vPol k ≤ 1 ∧ ∀ l ∈ onLanes k,
    badStore (seen s k) k 4 (lineAddr k 4 l) = false) :=
  metAt (insn 0x02 0 1 0x04 0) (by decide) (by decide +kernel)

theorem witness_vscatter : MetAt 0x04 (fun s k => memWidth (vT k) = some 32 ∧ ∀ l ∈ onLanes k,
    badStore (seen s k) k 32 (scatAddr k 32 l) = false) :=
  metAt (insn 0x04 0 1 0 0) (by decide) (by decide +kernel)

theorem witness_vscatadd : MetAt 0x05 (fun s k => (∀ l ∈ onLanes k, badStore (seen s k) k 32 (scatAddr k 32 l) = false) ∧
    consumeAll 2 (seen s k) (((onLanes k).map (scatAddr k 32)).map (fun a => (a.1, 4))) = none) :=
  metAt (insn 0x05 0 1 0 0) (by decide) (by decide +kernel)

/-- The version bytes of eight WP256 elements that are zero, from address 0 (R96). -/
def wideCells : SMap Byte := [(39, 16), (79, 16), (119, 16), (159, 16), (199, 16), (239, 16), (279, 16), (319, 16)]

theorem witness_vwld : MetAt 0x30 (fun s k =>
    let a := wideAddr k
    let ws := (List.range 8).map (fun i => wideOf (readBytes (seen s k) (a + 40 * i) 40))
    let base := sext (fld (sReg k.th (vB k)) 0 16) 16
    (a % 8 = 0 ∧ (inDram a 320 || inStore k.n a 320) = true ∧ consume 2 a 320 (seen s k) = none ∧
    (∀ w ∈ ws, ∃ v, w = some v ∧ (v.cls = Cls.finite → v.base = base))) ∧ ∃ th y, setWide k (ws.filterMap id) (seen s k) = .go th y) := by
  refine ⟨atInstr (insn 0x30 0 1 0 0) wideCells, ctxOf (insn 0x30 0 1 0 0), ⟨rfl, rfl, mayRun_atInstr _ _, .inl rfl, by decide, free_atInstr _ _ _⟩,
    ⟨by decide +kernel, by decide +kernel, by decide +kernel, ?_⟩, _, _, rfl⟩
  intro w hw
  have h : (List.range 8).map (fun i => wideOf (readBytes (seen (atInstr (insn 0x30 0 1 0 0) wideCells) (ctxOf (insn 0x30 0 1 0 0)))
      (wideAddr (ctxOf (insn 0x30 0 1 0 0)) + 40 * i) 40)) = List.replicate 8 (some {}) := by decide +kernel
  rw [h] at hw
  exact ⟨{}, (List.mem_replicate.mp hw).2, by decide +kernel⟩

theorem witness_vwst : MetAt 0x32 (fun s k =>
    let a := wideAddr k
    let gs := (List.range 8).filter (fun g => (List.range 8).any (fun i => laneOn k (8 * g + i)))
    a % 8 = 0 ∧ (∀ g ∈ gs, (inDram (a + 40 * g) 40 || inStore k.n (a + 40 * g) 40) = true ∧
      protectedHit (seen s k) (backIsFace k.c) (a + 40 * g) 40 = false)) :=
  metAt (insn 0x32 0 1 0 0) (by decide) (by decide +kernel)

/-! Obligations.VectorReductionsComplete, Obligations.VectorControlCompletes -/

theorem witness_vredsum : MetAt 0x20 (fun _ k => vT k = 0) ∧ MetAt 0x20 (fun _ k => vT k = 2) :=
  ⟨metAt (insn 0x20 0 0 0 0) (by decide) (by decide +kernel),
   metAt (insn 0x20 0 0 2 0) (by decide) (by decide +kernel)⟩

theorem witness_vector_extremes (op t : Nat) (ho : op ∈ [0x21, 0x22]) (ht : t ∈ [0, 1, 2]) : MetAt op (fun _ k => vD k ≠ 15 ∧
    vT k = t) := by
  have h : ∀ op ∈ [0x21, 0x22], ∀ t ∈ [0, 1, 2], nfld (insn op 14 0 t 0).toNat 56 8 = op ∧
      vD (ctxOf (insn op 14 0 t 0)) ≠ 15 ∧ vT (ctxOf (insn op 14 0 t 0)) = t := by decide +kernel
  exact metAt (insn op 14 0 t 0) (h op ho t ht).1 (h op ho t ht).2

theorem witness_vwadd : MetAt 0x31 (fun s k =>
    let ws := (List.range 8).map (fun g => wideSum (wideGroup (vReg k.th (vA k)) g) (wideGroup (vReg k.th (vB k)) g))
    (∀ w ∈ ws, w.isSome = true) ∧ ∃ th y, setWide k (ws.filterMap id) (seen s k) = .go th y) :=
  metAt (insn 0x31 0 1 0 0) (by decide) ⟨by decide +kernel, _, _, rfl⟩

theorem witness_vector_control (op : Nat) (h : op ∈ [0x40, 0x41, 0x42, 0x50, 0x51, 0x52, 0x53]) : MetAt op (fun _ _ => True) := by
  have h' : ∀ op ∈ [0x40, 0x41, 0x42, 0x50, 0x51, 0x52, 0x53], nfld (insn op 0 0 0 0).toNat 56 8 = op := by decide +kernel
  exact metAt (insn op 0 0 0 0) (h' op h) trivial

theorem witness_vBarrierRelease : ∃ (s : State) (n : Nat), isUp s.sys = true ∧ (runAt s.sys n).threads ≠ [] ∧
    ∀ t ∈ (runAt s.sys n).threads, t.status = .atBarrier :=
  ⟨{ up with sys := { up.sys with vec := { runs := [(0, { cmd := some 0, threads := [{ status := .atBarrier }] })] } } }, 0, by decide +kernel⟩

/-! Obligations.MicroInstructionsComplete -/

/-- An UPD_RUN of two elements by the microprogram of slot 0, at its first instruction, w, in element e. -/
def atMicro (w : Word32) (e : Nat) : State := { mappedStep with sys := { mappedStep.sys with
  cm := { cmds := [{ id := 0, op := 0x0500, pkt := pkt [0x80220000, 2, 0x100000, 0, 65536, 128, 65664, 256, 65792, 0, 0, 0, 0, 0, 0, 0] 1,
                     creel := 0, lane := 0, phase := .running }], nextId := 1 },
  upd := { slots := [(0, [w])], runs := [(0, { cmd := some 0, elem := e })] } } }

/-- The operation of that command. -/
def microOf : UpdOp := updOf (pkt [0x80220000, 2, 0x100000, 0, 65536, 128, 65664, 256, 65792, 0, 0, 0, 0, 0, 0, 0] 1)

theorem witness_micro_instructions (op e : Nat) (h : op ∈ [0x01, 0x02, 0x03, 0x04, 0x05, 0x06, 0x07, 0x08, 0x09, 0x0A, 0x0B, 0x0C,
    0x0D, 0x3F]) :
    AtMicro op 0 (atMicro (BitVec.ofNat 32 (op * 2 ^ 26)) e) 0 microOf (BitVec.ofNat 32 (op * 2 ^ 26)) { cmd := some 0, elem := e } := by
  have h' : ∀ op ∈ [0x01, 0x02, 0x03, 0x04, 0x05, 0x06, 0x07, 0x08, 0x09, 0x0A, 0x0B, 0x0C, 0x0D, 0x3F],
      microOp (BitVec.ofNat 32 (op * 2 ^ 26)) = op := by decide +kernel
  exact ⟨rfl, rfl, ⟨_, rfl, rfl⟩, rfl, rfl, h' op h⟩

theorem witness_microEnd : (0 + 1 < microOf.count) ∧ (microOf.count ≤ 1 + 1) := by decide +kernel

/-! ### Registers and counters -/

/-- A REG_WRITE or REG_READ packet's word 0. -/
def regWord (b r i : Nat) : Word64 := BitVec.ofNat 64 (b * 2 ^ 48 + r * 2 ^ 32 + i)

/-- A REG_WRITE packet. -/
def regWrite (b r i data mask : Nat) : Packet := pkt [regWord b r i, BitVec.ofNat 64 data, BitVec.ofNat 64 mask]

/-! Obligations.RegisterCommandsComplete -/

theorem witness_regRead : MetBy 0x0700 [bits regBits] noCodes fun pk s _ _ =>
    regName pk = (0x11, 0x00, 0) ∧ regKind 0x11 0x00 = some .single ∧ goodInstance s.sys .single 0 = true :=
  metBy (pkt [regWord 0x11 0 0]) up (by decide +kernel)

/-- What the register statements ask of a write. -/
abbrev WriteMet (P : Packet → InstKind → Prop) : Prop :=
  ∃ (pk : Packet) (s : State) (z : Sys) (c : Cmd) (k : InstKind), WriteMeets pk s z c ∧ WriteAllowed pk s.perm z c k ∧ P pk k

/-- A write that names a register of the device whose instance is 0. -/
theorem writeMet {b r i data mask : Nat} {k : InstKind} {P : Packet → InstKind → Prop}
    (hu : (atUnit 0x0701 (regWrite b r i data mask) up.sys).isSome = true)
    (hn : regName (regWrite b r i data mask) = (b, r,
        i)) (hp : P (regWrite b r i data mask) k) (hb : pf (regWrite b r i data mask) 0 63 1 = 0)
    (h : okMet 0x0701 [bits (regBits ++ [(63, 1), (62, 1), (56, 6)]), allBits, allBits] false (regWrite b r i data mask)
      (if guarded (regWrite b r i data mask) then afterLeases up else up) (fun z c => decide
        (regKind b r = some k ∧ goodInstance z k i = true ∧ guarded (regWrite b r i data mask) = false ∧
            pf (regWrite b r i data mask) 0 56 6 = 0 ∧
          pw (regWrite b r i data mask) 1 &&& reservedBits b r = 0 ∧
          (∀ j ∈ writtenInsts (regWrite b r i data mask) k,
            badWrite up.perm z c.creel b r j (BitVec.ofNat 64 (pw (regWrite b r i data mask) 1)) (BitVec.ofNat 64 (pw (regWrite b r i data mask) 2)) = false) ∧
          ∀ q ∈ z.coll.routes, q.2.loaded = false)) = true) : WriteMet P := by
  obtain ⟨z, c, hm, hq⟩ := okMet_meets h
  obtain ⟨h1, h2, h3, h4, h5, h6, h7⟩ := of_decide_eq_true hq
  refine ⟨regWrite b r i data mask, up, z, c, k, ⟨hm, hu⟩, ?_, hp⟩
  simp only [WriteAllowed, hn, hb, h3]
  exact ⟨h1, by simpa using h2, by simpa using h4, h5, h6, fun _ => h7⟩

theorem witness_regWrite : WriteMet (fun pk _ => ¬ ((regName pk).1 = 0x15 ∧ (regName pk).2.1 = 0x02 ∧
    (BitVec.ofNat 64 (pw pk 1) &&& BitVec.ofNat 64 (pw pk 2)).getLsbD 0 = true)) :=
  writeMet (b := 0x0A) (r := 0x02) (i := 0) (data := 7) (mask := 7) (k := .single)
    (by decide +kernel) (by decide) (by decide) (by decide) (by decide +kernel)

/-! Obligations.RegisterRowsComplete -/

theorem witness_collSelfWrite : WriteMet (fun pk _ => regName pk = (0x0A, 0x00, 0) ∧ fld (BitVec.ofNat 64 (pw pk 2)) 0 10 ≠ 0) :=
  writeMet (b := 0x0A) (r := 0x00) (i := 0) (data := 7) (mask := 0x3FF) (k := .single)
    (by decide +kernel) (by decide) (by decide) (by decide) (by decide +kernel)

theorem witness_runaheadDisable : WriteMet (fun pk _ => regName pk = (0x06, 0x00, 17) ∧ pf pk 0 63 1 = 0 ∧
    flag (mergeBits (regValue up.perm up.sys 0x06 0x00 17) (BitVec.ofNat 64 (pw pk 1)) (BitVec.ofNat 64 (pw pk 2))) 0 = false) :=
  writeMet (b := 0x06) (r := 0x00) (i := 17) (data := 0) (mask := 1) (k := .die)
    (by decide +kernel) (by decide) (by decide +kernel) (by decide) (by decide +kernel)

theorem witness_creelModeSet : WriteMet (fun pk _ => regName pk = (0x0D, 0x00, 63) ∧ pf pk 0 63 1 = 0) :=
  writeMet (b := 0x0D) (r := 0x00) (i := 63) (data := 1) (mask := 1) (k := .creel)
    (by decide +kernel) (by decide) (by decide) (by decide) (by decide +kernel)

theorem witness_traceRpWrite : WriteMet (fun pk _ => regName pk = (0x12, 0x02, 26) ∧ pf pk 0 63 1 = 0) :=
  writeMet (b := 0x12) (r := 0x02) (i := 26) (data := 0) (mask := 1) (k := .unit)
    (by decide +kernel) (by decide) (by decide) (by decide) (by decide +kernel)

theorem witness_shutdownRequest : WriteMet (fun pk _ => regName pk = (0x15, 0x02, 0) ∧
    flag (BitVec.ofNat 64 (pw pk 1) &&& BitVec.ofNat 64 (pw pk 2)) 0 = true) :=
  writeMet (b := 0x15) (r := 0x02) (i := 0) (data := 1) (mask := 1) (k := .single)
    (by decide +kernel) (by decide) (by decide) (by decide) (by decide +kernel)

/-! Obligations.ObservationCommandsComplete, the start of a counter set -/

theorem sel_words : words8 1 (readBytes selImage.sys 0 8) = [0x101000000] := by decide +kernel

theorem witness_ctrConfig : MetBy 0x0900 [bits [(8, 2), (0, 3)], bits [(0, 32)], allBits, bits [(0, 11)], allBits, bits [(0, 5)]]
    (fun pk => badCode pk 0 8 2 [0, 1]) fun pk s z c =>
    (pf pk 0 8 2 ≠ 1 ∧ pf pk 1 0 32 ≠ 0 ∧ pf pk 3 0 11 = 1 ∧ pf pk 5 0 5 = 0 ∧ pw pk 2 = 0 ∧ pw pk 4 = 64 ∧
      consume 8 0 8 (taken c z) = none) ∧
    (fileClosed s.perm [(0, 8)] = false ∧ aligned64 0 = true ∧ inDram 0 8 = true ∧ rangeHeld s.sys 0 8 = false) ∧
    (∀ w ∈ words8 1 (readBytes s.sys 0 8), reservedClass w = false ∧ badSel s.sys w = false) ∧
    valueCount (words8 1 (readBytes s.sys 0 8)) ≤ 1024 ∧ badObsAddr s.sys 64 (recBytes (words8 1 (readBytes s.sys 0 8))) = false := by
  obtain ⟨z, c, hm, hp⟩ := okMet_meets (op := 0x0900)
    (layout := [bits [(8, 2), (0, 3)], bits [(0, 32)], allBits, bits [(0, 11)], allBits, bits [(0, 5)]]) (bad := false)
    (pk := pkt [0, 5, 0, 1, 64, 0]) (s := selImage) (Q := fun z c => decide (consume 8 0 8 (taken c z) = none)) (by decide +kernel)
  refine ⟨pkt [0, 5, 0, 1, 64, 0], selImage, z, c, hm,
    ⟨by decide, by decide, by decide, by decide, by decide, by decide, of_decide_eq_true hp⟩, by decide +kernel, ?_⟩
  rw [sel_words]
  refine ⟨fun w hw => ?_, by decide +kernel, by decide +kernel⟩
  rw [List.mem_singleton.mp hw]
  decide +kernel

/-! Obligations.ObservationCommandsComplete, the sample of a CTR_READ -/

/-- A CTR_READ of set 7 that waits for time base 200. -/
def sampleWaits (now : Nat) : State := { up with sys := { up.sys with
  t := { timeBase := now }, obs := { reads := [{ cmd := 0, set := 7, tb := 200, dst := 0, sels := [0x101000000] }] } } }

theorem witness_ctrRead_waits : ∃ (y : Sys) (r : CtrRead), y.obs.reads = [r] ∧ r.taken = none ∧ y.t.timeBase < r.tb :=
  ⟨(sampleWaits 199).sys, { cmd := 0, set := 7, tb := 200, dst := 0, sels := [0x101000000] }, by decide +kernel⟩

theorem witness_ctrRead_takes : ∃ (y : Sys) (r : CtrRead), y.obs.reads = [r] ∧ r.taken = none ∧ r.tb ≤ y.t.timeBase ∧
    let v := sampleNow r.sels { y with obs := { y.obs with reads := [] } }
    rangeHeld v.2 r.dst (recBytes r.sels) = false ∧ mapHit v.2 r.dst (recBytes r.sels) = false :=
  ⟨(sampleWaits 200).sys, { cmd := 0, set := 7, tb := 200, dst := 0, sels := [0x101000000] }, by decide +kernel⟩

/-! ### Channels, streams and threads -/

/-! Obligations.ChannelEventsComplete -/

/-- Granule 1 is poisoned. -/
def poisoned : State := { up with sys := { up.sys with mem := { poison := [1] } } }

theorem witness_dramRead_poisoned : ∃ (s : State) (g source : Nat), (g * 64 < dramEnd ∧ isUp s.sys = true ∧ 1 ≤ source ∧ source ≤ 8) ∧
    retraining s.sys (translateAddr s.sys (g * 64) / 64) = false ∧ translateAddr s.sys (g * 64) / 64 ∈ s.sys.mem.poison :=
  ⟨poisoned, 1, 1, by decide +kernel⟩

theorem witness_dramRead : ∃ (s : State) (g source : Nat), (g * 64 < dramEnd ∧ isUp s.sys = true ∧ 1 ≤ source ∧ source ≤ 8) ∧
    retraining s.sys (translateAddr s.sys (g * 64) / 64) = false ∧ translateAddr s.sys (g * 64) / 64 ∉ s.sys.mem.poison :=
  ⟨poisoned, dramEnd / 64 - 1, 8, by decide +kernel⟩

theorem witness_dramWrite : ∃ (s : State) (g : Nat) (mask : BitVec 64), g * 64 < dramEnd ∧ isUp s.sys = true ∧ mask ≠ 0 ∧
    let t := translateAddr s.sys (g * 64) / 64
    retraining s.sys t = false ∧ protectedHit s.sys true (g * 64) 64 = false ∧ (t ∉ s.sys.mem.poison ∨ mask = BitVec.allOnes 64) ∧
    backOf s.sys.smap.entries (g * 64) = none :=
  ⟨poisoned, dramEnd / 64 - 1, 1, by decide +kernel⟩

/-- A write of granule 1 whose kill shuttle 3 has not acknowledged. -/
def killing : State := { up with sys := { up.sys with mem := { writes := [{ granule := 1, kills := [3] }] } } }

theorem witness_kill : ∃ (s : State) (n g : Nat), ∃ w ∈ s.sys.mem.writes, w.granule = g ∧ n ∈ w.kills :=
    ⟨killing, 3, 1, by decide +kernel⟩

theorem witness_writeComplete : ∃ (s : State) (g : Nat) (w : PendingWrite),
    s.sys.mem.writes.find? (fun w => w.granule == g) = some w ∧ w.kills = [] :=
  ⟨{ up with sys := { up.sys with mem := { writes := [{ granule := 1, kills := [] }] } } }, 1, { granule := 1, kills := [] }, by decide +kernel⟩

theorem witness_scrubRead : ∃ (s : State) (stack : Nat), isUp s.sys = true ∧ stack ≤ 17 ∧ dieStopped s.sys stack = false ∧
    let m := mapGet ({} : MemDie) s.sys.mem.dies stack
    m.scrubEn = true ∧ retraining s.sys (stack * stackBytes / 64 + m.scrubNext) = false :=
  ⟨up, 17, by decide +kernel⟩

theorem witness_memRetrainDone : ∃ (s : State) (pause : Nat) (r : Retrain), s.sys.mem.retrain = some r ∧ powered s.sys = true ∧
    pause ≤ 40000 :=
  ⟨{ up with sys := { up.sys with mem := { retrain := some { cmd := 0, stack := 17, channel := 255, start := 0 } } } }, 40000,
    { cmd := 0, stack := 17, channel := 255, start := 0 }, by decide +kernel⟩

/-! Obligations.StreamAndThreadEventsComplete -/

/-- A YARN_LOAD of one run of that many granules from address 0. -/
def loadPacket (granules : Nat) : Packet := pkt [0, BitVec.ofNat 64 (0x1022000000000000 + 64 * granules), 0, 0, 0, 0, 0, 0x40000000000, 0]

/-- Shuttle 0 runs a YARN_LOAD of two granules, or one, from address 0. -/
def loading (granules : Nat) : State := { up with sys := { up.sys with
  cm := { cmds := [{ id := 0, op := 0x0110, creel := 0, lane := 0, phase := .running, pkt := loadPacket granules }], nextId := 1 },
  yarn := [(0, { cmd := some 0 })] } }

theorem witness_runaheadRead : ∃ (s : State) (n g : Nat) (wrong rest : List Nat), n < 2304 ∧ isUp s.sys = true ∧
    wantedAhead s.sys n = g :: rest ∧ wrong ≠ [] ∧ mayRunAhead s.sys n g = true :=
  ⟨loading 2, 0, 0, [0, 2], [1], by decide +kernel⟩

/-- The premises of the consumption of a unit. -/
abbrev Consuming (s : State) (n id : Nat) (c : Cmd) : Prop :=
  isUp s.sys = true ∧ (yarnAt s.sys n).cmd = some id ∧ findCmd s.sys id = some c ∧
    unitWaits (viewed c s.sys) n c = false ∧
    consume 1 (unitSource (loadOf c.pkt) (yarnAt s.sys n).pos).1 (unitSource (loadOf c.pkt) (yarnAt s.sys n).pos).2 (viewed c s.sys) = none

theorem witness_granuleConsume : ∃ (s : State) (n id : Nat) (c : Cmd), Consuming s n id c ∧
    (yarnAt s.sys n).pos + 1 < loadUnits (loadOf c.pkt) :=
  ⟨loading 2, 0, 0, (loading 2).sys.cm.cmds.headD { id := 0, op := 0, pkt := {}, creel := 0, lane := 0 }, by decide +kernel⟩

theorem witness_granuleConsume_last : ∃ (s : State) (n id : Nat) (c : Cmd), Consuming s n id c ∧
    loadUnits (loadOf c.pkt) ≤ (yarnAt s.sys n).pos + 1 :=
  ⟨loading 1, 0, 0, (loading 1).sys.cm.cmds.headD { id := 0, op := 0, pkt := {}, creel := 0, lane := 0 }, by decide +kernel⟩

/-- A slot of engine e in use by its thread 3, with granule 1. -/
def slotInUse (e : Nat) : State := { up with sys := { up.sys with eng := [(e, { slots := [{ thread := 3, granules := [1] }] })] } }

theorem witness_slotFree (e : Nat) (he : e ∈ [0, 8191, 8192]) : ∃ (s : State) (h : Nat) (p : Slot),
    (engAt s.sys e).slots.find? (fun p => p.thread == h) = some p := by
  have h : ∀ e ∈ [0, 8191, 8192],
      (engAt (slotInUse e).sys e).slots.find? (fun p => p.thread == 3) = some { thread := 3, granules := [1] } := by
    decide +kernel
  exact ⟨slotInUse e, 3, _, h e he⟩

theorem witness_threadSwitch : ∃ (s : State) (e h g : Nat), isUp s.sys = true ∧ h ≠ (engAt s.sys e).current ∧
    threadReady s.sys e h = true ∧
    missed s.sys e g = [g] ∧ slotFits (engAt s.sys e) g = true := ⟨up, 4096, 7, dramEnd / 64 - 1, by decide +kernel⟩

theorem witness_threadSwitch_full : ∃ (s : State) (e h g : Nat), isUp s.sys = true ∧ h ≠ (engAt s.sys e).current ∧
    threadReady s.sys e h = true ∧ missed s.sys e g = [g] ∧ slotFits (engAt s.sys e) g = false ∧
    (engAt s.sys e).current ∉ (engAt s.sys e).unissued :=
  ⟨{ up with sys := { up.sys with eng := [(4096, { slots := List.replicate 64 { thread := 0, granules := [] } })] } }, 4096, 1, 0,
    by decide +kernel⟩

/-! Obligations.ArbitersGrantThePreferred -/

/-- Command 0 in lane 4, command 1 in lane 3; a grant to requester 2 made at priority 3; channel 255 of stack 17 retrains. -/
def granted : State := { up with sys := { up.sys with
  cm := { cmds := [{ id := 0, op := 0, pkt := {}, creel := 0, lane := 4 }, { id := 1, op := 0, pkt := {}, creel := 0, lane := 3 }], nextId := 2 }
  arb := [(0, { grant := some ({ index := 2, base := 3, since := 0, beats := 4 }, 3) }),
          (147455, { grant := some ({ index := 2, base := 3, since := 0, beats := 4 }, 3) })]
  mem := { retrain := some { cmd := 0, stack := 17, channel := 255, start := 0 } } } }

theorem witness_arbitrationRound : ∃ (s : State) (a : Nat) (arrivals : List Arrival), isUp s.sys = true ∧ bankHeld s.sys a = false ∧
    joinWaiting s.sys (mapGet ({} : Arbiter) s.sys.arb a).waiting arrivals ≠ [] :=
  ⟨granted, 0, [{ index := 1, issuer := .command 0, beats := 4 }], by decide +kernel⟩

theorem witness_arbitrationRound_held : ∃ (s : State) (a : Nat), isUp s.sys = true ∧ bankHeld s.sys a = true :=
    ⟨granted, 147455, by decide +kernel⟩

/-- The premises of a preemption. -/
abbrev Preempts (s : State) (a doneBeats b : Nat) (r : Arrival) (h : Requester) (frozen : Nat) : Prop :=
  isUp s.sys = true ∧ (∀ id, r.issuer = .command id → (findCmd s.sys id).map (fun c => c.lane) = some b) ∧
    ((∀ id, r.issuer ≠ .command id) → b = 0) ∧ (mapGet ({} : Arbiter) s.sys.arb a).grant = some (h, frozen) ∧
    (∀ q ∈ (mapGet ({} : Arbiter) s.sys.arb a).waiting, q.index ≠ r.index) ∧ r.index ≠ h.index ∧ doneBeats < h.beats

/-- The newcomer. -/
abbrev newcomer (s : State) (b : Nat) (r : Arrival) : Requester :=
    { index := r.index, base := b, since := s.sys.t.timeBase, beats := r.beats }

/-- The grant of granted. -/
def grantee : Requester := { index := 2, base := 3, since := 0, beats := 4 }

theorem witness_preemption : ∃ s a d b r h frozen, Preempts s a d b r h frozen ∧ frozen < effective (newcomer s b r) ∧
    bankHeld s.sys a = false :=
  ⟨granted, 0, 3, 4, { index := 1, issuer := .command 0, beats := 1 }, grantee, 3, ⟨rfl, by simp; decide +kernel, by simp, rfl,
    (fun _ h => nomatch h), by decide, by decide⟩, by decide +kernel, by decide +kernel⟩

theorem witness_preemption_equal : ∃ s a d b r h frozen, Preempts s a d b r h frozen ∧ effective (newcomer s b r) ≤ frozen :=
  ⟨granted, 0, 3, 3, { index := 1, issuer := .command 1, beats := 1 }, grantee, 3, ⟨rfl, by simp; decide +kernel, by simp, rfl,
    (fun _ h => nomatch h), by decide, by decide⟩, by decide +kernel⟩

theorem witness_preemption_scrub : ∃ s a d b r h frozen, Preempts s a d b r h frozen ∧ b = 0 ∧ effective (newcomer s b r) ≤ frozen :=
  ⟨granted, 0, 3, 0, { index := 1, issuer := .scrub, beats := 1 }, grantee, 3, ⟨rfl, by simp, fun _ => rfl, rfl,
    (fun _ h => nomatch h), by decide, by decide⟩, rfl, by decide +kernel⟩

theorem witness_preemption_held : ∃ s a d b r h frozen, Preempts s a d b r h frozen ∧ frozen < effective (newcomer s b r) ∧
    bankHeld s.sys a = true :=
  ⟨granted, 147455, 3, 4, { index := 1, issuer := .command 0, beats := 1 }, grantee, 3, ⟨rfl, by simp; decide +kernel, by simp, rfl,
    (fun _ h => nomatch h), by decide, by decide⟩, by decide +kernel, by decide +kernel⟩

/-! ### Frames, sessions, reading and picks -/

/-- A frame with its CRC. -/
def frame (port : Port) (typ seq : Nat) (payload : List Byte) : RxFrame :=
  let h := leBytes 1 typ ++ leBytes 1 0 ++ leBytes 2 payload.length ++ leBytes 4 seq ++ leBytes 4 0
  { port := port, typ := BitVec.ofNat 8 typ, length := BitVec.ofNat 16 payload.length, seq := BitVec.ofNat 32 seq,
    crc := BitVec.ofNat 32 (crc32c (h ++ payload)), payload := payload }

/-- A treadle session with SESSION_ID 5 and a service session with SESSION_ID 6, both open. -/
def inSession : State := { up with sys := { up.sys with
  trd := { state := .open, id := 5, version := 0x10 }, svc := { state := .open, id := 6, version := 0x10, port := .service } } }

/-- An hour after the release of PERST_N. -/
def later : State := { inSession with sys := { inSession.sys with t := { timeBase := 3600000000000 } } }

/-! Obligations.FrameEventsComplete -/

theorem witness_keepalive : ∃ s f, FrameTaken 0x30 f s :=
    ⟨up, frame .ta 0x30 0 [], by decide +kernel, by decide +kernel, by decide +kernel⟩

theorem witness_droppedFrame : ∃ (s : State) (f : RxFrame) (k : DropKind), answers s.sys = true ∧ dropOf s.sys f = some k :=
  ⟨up, frame .ta 0x10 1 [], .noSession, by decide +kernel⟩

theorem witness_keepaliveSend : ∃ (s : State) (p : Port), answers s.sys = true ∧ lastTx s.sys p + 100000 ≤ s.sys.t.timeBase :=
  ⟨later, .tb, by decide +kernel⟩

theorem witness_frameResend : ∃ (s : State) (svc : Bool) (seq : Nat) (f : TxFrame), answers s.sys = true ∧
    (sessOf s.sys svc).state = .open ∧
    (sessOf s.sys svc).unacked.find? (fun f => f.seq == seq) = some f :=
  ⟨{ up with sys := { up.sys with trd := { state := .open, unacked := [{ port := .ta, typ := 0x11, seq := 4, ack := 0, payload := [] }] } } },
    false, 4, { port := .ta, typ := 0x11, seq := 4, ack := 0, payload := [] }, by decide +kernel⟩

/-- A creel write of one creel word, which ends a packet, to creel 0, lane 0. -/
def oneWord : RxFrame := frame .ta 0x10 1 ([0, 0, 1, 0, 0, 0, 0, 0, 1, 0, 0, 0, 0, 0, 0, 0] ++ List.replicate 64 0)

/-- inSession, with lane 0 of creel 0 as given. -/
def withLane (l : Lane) : State := { inSession with sys := { inSession.sys with cr := { lanes := [(0, l)] } } }

/-- What a creel write asks. -/
abbrev Writes (s : State) (f : RxFrame) : Prop :=
  (answers s.sys = true ∧ f.typ.toNat = 0x10 ∧ dropOf s.sys f = none) ∧ (sessOf s.sys (onService f)).forced = none ∧
    (sessOf s.sys (onService f)).closing = false

/-- The lane that it writes. -/
abbrev laneWritten (s : State) (f : RxFrame) : Lane :=
  laneAt s.sys (laneKey (if onService f then 64 else at8 f.payload 0 1) (at8 f.payload 1 1))

theorem witness_creelWrite : ∃ s f, Writes s f ∧ (laneWritten s f).overrun = false ∧
    (writtenWords f).length ≤ freeWords (laneWritten s f) :=
  ⟨withLane {}, oneWord, by decide +kernel⟩

theorem witness_creelWrite_overrun : ∃ s f, Writes s f ∧ (laneWritten s f).overrun = true :=
  ⟨withLane { overrun := true }, oneWord, by decide +kernel⟩

theorem witness_creelWrite_full : ∃ s f, Writes s f ∧ (laneWritten s f).overrun = false ∧
    freeWords (laneWritten s f) < (writtenWords f).length :=
  ⟨withLane { queue := List.replicate 512 (0, true) }, oneWord, by decide +kernel⟩

theorem witness_creelStatus : ∃ (s : State), answers s.sys = true ∧ (s.sys.trd.state = .open ∨ s.sys.svc.state = .open) ∧
    (s.sys.cr.statusDue = true ∨ s.sys.cr.lastStatus + 100000 ≤ s.sys.t.timeBase) := ⟨later, by decide +kernel⟩

theorem witness_replyFlush : ∃ (s : State) (svc : Bool), answers s.sys = true ∧ (sessOf s.sys svc).state = .open ∧
    flushDue s.sys (sessOf s.sys svc) = true :=
  ⟨{ later with sys := { later.sys with svc := { state := .open, held := [{ isNotice := false, bytes := [1], tb := 0 }] } } }, true, by decide +kernel⟩

/-! Obligations.SessionEventsComplete -/

/-- A SESSION_OPEN for an identity, version 0x10 to 0x10, with or without FORCE. -/
def openFor (id : Byte) (force : Byte) : RxFrame := frame .ta 0x01 0 ([id, 0, 0, 0, 0, 0, 0, 0, 0x10, 0x10, force, 0, 0, 0, 0, 0])

/-- The state with a session frame taken. -/
def takenBy (f : RxFrame) (s : State) : Sys :=
  if (sessOf s.sys (onService f)).state = .open ∧ (sessOf s.sys (onService f)).id = sessionId f then takeFrame f s.sys else s.sys

/-- A session frame is taken where it passes the checks. -/
theorem sessionTaken {typ : Nat} {f : RxFrame} {s : State}
    (h : answers s.sys = true ∧ f.typ.toNat = typ ∧ dropOf s.sys f = none ∧ commonReason (takenBy f s) f = none) :
    SessionTaken typ f s (takenBy f s) := ⟨⟨h.1, h.2.1, h.2.2.1⟩, h.2.2.2, rfl⟩

/-- What SESSION_OPEN asks beside that. -/
abbrev Opens (z : Sys) (f : RxFrame) : Prop :=
  at8 f.payload 8 1 ≤ 0x10 ∧ 0x10 ≤ at8 f.payload 9 1 ∧ (sessOf z (onService f)).forced = none

theorem witness_sessionOpen : ∃ s f z, SessionTaken 0x01 f s z ∧ Opens z f ∧ (sessOf z (onService f)).state = .none :=
  ⟨up, openFor 5 0, takenBy (openFor 5 0) up, sessionTaken (by decide +kernel), by decide +kernel⟩

theorem witness_sessionOpen_again : ∃ s f z, SessionTaken 0x01 f s z ∧ Opens z f ∧ (sessOf z (onService f)).state = .open ∧
    (sessOf z (onService f)).id = sessionId f :=
  ⟨inSession, openFor 5 0, takenBy (openFor 5 0) inSession, sessionTaken (by decide +kernel), by decide +kernel⟩

theorem witness_sessionOpen_force : ∃ s f z, SessionTaken 0x01 f s z ∧ Opens z f ∧ ((sessOf z (onService f)).state = .lapsed ∨
    ((sessOf z (onService f)).state = .open ∧ (sessOf z (onService f)).id ≠ sessionId f ∧ (at8 f.payload 10 1).testBit 0 = true)) :=
  ⟨inSession, openFor 9 1, takenBy (openFor 9 1) inSession, sessionTaken (by decide +kernel), by decide +kernel⟩

theorem witness_sessionOpen_other : ∃ s f z, SessionTaken 0x01 f s z ∧ Opens z f ∧ (sessOf z (onService f)).state = .open ∧
    (sessOf z (onService f)).id ≠ sessionId f ∧ (at8 f.payload 10 1).testBit 0 = false :=
  ⟨inSession, openFor 9 0, takenBy (openFor 9 0) inSession, sessionTaken (by decide +kernel), by decide +kernel⟩

theorem witness_sessionForceEnd : ∃ (s : State) (svc : Bool) (q : Word64 × Port), answers s.sys = true ∧
    (sessOf s.sys svc).forced = some q ∧
    (sessOf s.sys svc).deferred = [] ∧ (∀ c ∈ s.sys.cm.cmds, (c.creel = 64) = (svc = true) → False) :=
  ⟨{ up with sys := { up.sys with trd := { state := .open, id := 5, forced := some (9, .ta) } } }, false, (9, .ta), rfl, rfl, rfl,
    fun _ h => nomatch h⟩

theorem witness_sessionClose : ∃ s f z, SessionTaken 0x05 f s z ∧ (sessOf z (onService f)).state ≠ .none ∧
    (sessOf z (onService f)).id = sessionId f ∧ (sessOf z (onService f)).forced = none ∧ (sessOf z (onService f)).closing = false :=
  let f := frame .ta 0x05 0 [5, 0, 0, 0, 0, 0, 0, 0, 0, 0, 0, 0, 0, 0, 0, 0]
  ⟨inSession, f, takenBy f inSession, sessionTaken (by decide +kernel), by decide +kernel⟩

theorem witness_sessionResume : ∃ s f z, SessionTaken 0x04 f s z ∧ (sessOf z (onService f)).state ≠ .none ∧
    (sessOf z (onService f)).id = sessionId f ∧ (sessOf z (onService f)).forced = none :=
  let f := frame .tb 0x04 0 [5, 0, 0, 0, 0, 0, 0, 0, 0, 0, 0, 0, 0, 0, 0, 0]
  ⟨inSession, f, takenBy f inSession, sessionTaken (by decide +kernel), by decide +kernel⟩

theorem witness_sessionLapse : ∃ (s : State) (svc : Bool), answers s.sys = true ∧ (sessOf s.sys svc).state = .open ∧
    (sessOf s.sys svc).forced = none ∧ (sessOf s.sys svc).closing = false ∧
    (sessOf s.sys svc).lastRx + s.sys.cr.timeoutMs.toNat * 1000000 ≤ s.sys.t.timeBase := ⟨later, true, by decide +kernel⟩

/-! Obligations.ReadingAndCompletionComplete -/

theorem witness_packetRead : ∃ (s : State) (creel lane : Nat), nextHead s.sys = some (creel, lane) :=
  ⟨withLane { queue := [(0, true)] }, 0, 0, by decide +kernel⟩

theorem witness_stall : ∃ (s : State) (creel lane : Nat), isUp s.sys = true ∧ (creel < 64 ∧ lane < 8 ∨ creel = 64 ∧ lane = 0) ∧
    let l := laneAt s.sys (laneKey creel lane)
    l.queue ≠ [] ∧ l.stalled = false ∧ l.stallTime ≠ 0 ∧ l.timerStart + l.stallTime.toNat * 1000 ≤ s.sys.t.timeBase :=
  ⟨{ later with sys := { later.sys with cr := { lanes := [(511, { queue := [(0, true)] })] } } }, 63, 7, by decide +kernel⟩

theorem witness_commandCompletion : ∃ (s : State) (creel lane : Nat) (c : Cmd) (st : Status) (res : List Word64), answers s.sys = true ∧
    s.sys.cm.cmds.find? (fun c => c.creel == creel && c.lane == lane) = some c ∧ c.phase = .done st res :=
  ⟨{ up with sys := { up.sys with cm := { cmds := [{ id := 0, op := 0, pkt := pkt [], creel := 0, lane := 0, phase := .done .ok [] }] } } }, 0, 0,
    { id := 0, op := 0, pkt := pkt [], creel := 0, lane := 0, phase := .done .ok [] }, .ok, [], by decide +kernel⟩

theorem witness_lockExpired : ∃ (s : State) (k : Nat), answers s.sys = true ∧ k < 64 ∧ (mapGet ({} : Lock) s.sys.lck k).state = .held ∧
    (mapGet ({} : Lock) s.sys.lck k).expires ≤ pickNow s.sys :=
  ⟨{ up with sys := { up.sys with t := { pick := 9 }, lck := [(63, { state := .held, expires := 9 })] } }, 63, by decide +kernel⟩

/-! Obligations.PickEventsComplete -/

/-- A pick marker. -/
def marker (p : Nat) : RxFrame := frame .ta 0x20 0 (leBytes 6 p ++ [0, 0])

/-- inSession at pick 4, with the pick source given. -/
def atFour (source : BitVec 2) : State :=
    { inSession with sys := { inSession.sys with t := { pick := 4, source := source, pinTarget := 5 } } }

/-- What a pick marker asks. -/
abbrev Marks (s : State) (f : RxFrame) : Prop :=
  (answers s.sys = true ∧ f.typ.toNat = 0x20 ∧ dropOf s.sys f = none) ∧ f.payload.length = 8 ∧ at8 f.payload 6 2 = 0 ∧ f.fflags = 0

theorem witness_pick : ∃ s f, Marks s f ∧ s.sys.t.source ≠ 1 ∧ countAhead s.sys.t < at8 f.payload 0 6 :=
    ⟨atFour 0, marker 5, by decide +kernel⟩

theorem witness_pick_stale : ∃ s f, Marks s f ∧ s.sys.t.source ≠ 1 ∧ at8 f.payload 0 6 ≤ countAhead s.sys.t :=
    ⟨atFour 0, marker 4, by decide +kernel⟩

theorem witness_pick_mismatch : ∃ s f, Marks s f ∧ s.sys.t.source = 1 ∧ at8 f.payload 0 6 < countAhead s.sys.t :=
  ⟨atFour 1, marker 3, by decide +kernel⟩

theorem witness_pick_pinAhead : ∃ s f, Marks s f ∧ s.sys.t.source = 1 ∧ countAhead s.sys.t ≤ at8 f.payload 0 6 ∧
    s.sys.t.pinTarget < at8 f.payload 0 6 := ⟨atFour 1, marker 6, by decide +kernel⟩

theorem witness_pick_pinAgrees : ∃ s f, Marks s f ∧ s.sys.t.source = 1 ∧ countAhead s.sys.t ≤ at8 f.payload 0 6 ∧
    at8 f.payload 0 6 ≤ s.sys.t.pinTarget := ⟨atFour 1, marker 5, by decide +kernel⟩

theorem witness_pickInEdge : ∃ (s : State), answers s.sys = true ∧ s.sys.t.source = 1 ∧
    (∀ e, s.sys.t.lastEdge = some e → e + 250 ≤ s.sys.t.timeBase) := ⟨atFour 1, rfl, rfl, fun _ h => nomatch h⟩

theorem witness_pickAdvance : ∃ (s : State) (a : Advance) (r : List Advance), s.sys.t.sched = a :: r ∧ a.apply ≤ s.sys.t.timeBase :=
  ⟨{ up with sys := { up.sys with t := { sched := [{ target := 1, apply := 0, arrival := 0 }] } } }, { target := 1, apply := 0, arrival := 0 }, [],
    by decide +kernel⟩

theorem witness_pickEcho : ∃ (s : State) (e : Echo) (r : List Echo), s.sys.t.echoes = e :: r ∧ answers s.sys = true ∧
    s.sys.trd.state = .open :=
  ⟨{ inSession with sys := { inSession.sys with t := { echoes := [{ pick := 1, pin := false, jump := false, load := false, arrival := 0, apply := 0 }] } } },
    { pick := 1, pin := false, jump := false, load := false, arrival := 0, apply := 0 }, [], by decide +kernel⟩

/-- A sample of set 7 that has fallen due and whose record, of that many bytes, is not yet written at address 0. -/
def sampled (size : Nat) : CtrDue := { pick := 4, tb := 0, skipped := 0, seq := 1, addr := 0, size := size, vals := [] }

/-- The record waits; an ACTIVE entry lies behind it. -/
def sampling (size : Nat) : State := { up with sys := { up.sys with
  smap := { entries := [(0, { state := .active, face := 65536, back := 131072, length := 65536 })] }
  obs := { sets := [(7, { started := true, running := true, due := [sampled size] })] } } }

theorem witness_ctrSample (hit : Bool) : ∃ (s : State) (set : Nat) (d : CtrDue) (rest : List CtrDue), isUp s.sys = true ∧
    (ctrSet s.sys set).due = d :: rest ∧ rangeHeld s.sys d.addr d.size = false ∧ mapHit s.sys d.addr d.size = hit := by
  cases hit
  · exact ⟨sampling 64, 7, sampled 64, [], by decide +kernel⟩
  · exact ⟨sampling 65537, 7, sampled 65537, [], by decide +kernel⟩

theorem witness_pickAdvance_sample : ∃ (s : State) (a : Advance) (rest : List Advance) (k : Nat), k < 8 ∧ s.sys.t.sched = a :: rest ∧
    a.apply ≤ s.sys.t.timeBase ∧ (ctrSet s.sys k).running = true ∧ 0 < multiples (ctrSet s.sys k).interval s.sys.t.pick a.target :=
  ⟨{ up with sys := { up.sys with
      t := { sched := [{ target := 5, apply := 0, arrival := 0 }] }, obs :=
          { sets := [(7, { started := true, running := true, interval := 5 })] } } },
    { target := 5, apply := 0, arrival := 0 }, [], 7, by decide +kernel⟩
/-! ### Buckets -/

/-- A bucket command of the open step: tag 7, route 0, three elements, its source converted into staging. -/
def bucket : Bucket := { cmd := 0, tag := 7, step := 1, count := 3, src := 0, stage := 64, relay := 128, dst := 192, converted := true }

/-- The route of a ring of three, out by port 5 and in by port 0. -/
def ringOfThree : Route := { loaded := true, p := 3, members := [(0, 0), (1, 0), (2, 0)], strands := [(5, 0)] }

/-- The open step with one bucket on a route; twin-link port 7 is UP too. -/
def withBucket (r : Route) (b : Bucket) : State := { linked with sys := { linked.sys with
  stp := { state := .opened, agreed := true, twinMode := .mirror }, lnk := { ports := [(0, upPort), (5, upPort), (7, upPort)] },
  coll := { linked.sys.coll with routes := [(0, r)], buckets := [b] } } }

/-- The header of a packet of that bucket. -/
def header (flags shard first elems : Nat) : BucketHdr :=
  { flags := BitVec.ofNat 8 flags, tag := 7, step := 1, exp := 0, gen := 0, route := 0, strand := 0, shard := shard, srcPos := 1, first := first,
    elems := elems }

/-- A packet of one element of eight bytes. -/
def onePacket (flags shard first : Nat) : List Byte := bucketBytes (header flags shard first 1) (List.replicate 8 1)

/-- A packet meets a bucket where it passes the checks. -/
abbrev BucketMet (P : Nat → State → BucketHdr → Bucket → Route → Prop) : Prop :=
  ∃ (port : Nat) (bytes : List Byte) (s : State) (h : BucketHdr) (b : Bucket) (r : Route), PacketMeets port bytes s h b r ∧ P port s h b r

theorem bucketMet {P : Nat → State → BucketHdr → Bucket → Route → Prop} (port : Nat) (bytes : List Byte) (s : State) (b : Bucket)
    (hm : isUp s.sys = true ∧ portTakes s.sys port = true ∧ malformed s.sys bytes = false ∧ bucketFor s.sys (hdrOf bytes) = some b ∧
      (bytes.drop 32).length = bktElemBytes b * (hdrOf bytes).elems)
    (hs : outsideStrand (routeAt s.sys b.route) b.count (hdrOf bytes) = false ∧ packetHeld s.sys (hdrOf bytes) = false)
    (hb : b.failed = false ∧ b.converted = true ∧ (hdrOf bytes).gen = b.gen ∧ mismatched b (routeAt s.sys b.route) (hdrOf bytes) = false)
    (hf : b.used = [] ∧ b.handled = [] ∧ b.asked = []) (hp : P port s (hdrOf bytes) b (routeAt s.sys b.route)) : BucketMet P :=
  ⟨port, bytes, s, hdrOf bytes, b, routeAt s.sys b.route,
    ⟨hm.1, hm.2.1, hm.2.2.1, rfl, hm.2.2.2.1, hm.2.2.2.2, hs.1, hs.2, rfl, hb.1, hb.2.1, hb.2.2.1, hb.2.2.2,
      fun _ => by simp [hf.1, hf.2.1, hf.2.2]⟩, hp⟩

/-! Obligations.BucketEventsComplete -/

theorem inr_of {α β γ : Type} {x : α ⊕ (β × γ)} (h : x.isRight = true) : ∃ b z, x = .inr (b, z) := by
  cases x with
  | inl _ => cases h
  | inr p => exact ⟨p.1, p.2, rfl⟩

theorem witness_bucketConversionDone (shadow : Bool) : ∃ (s : State) (tag : Nat) (b b' : Bucket) (z : Sys), isUp s.sys = true ∧
    bucketIs s.sys tag (fun b => !b.gather && !b.converted) = some b ∧ anyHeld s.sys (bucketRanges b (routeAt s.sys b.route)) = false ∧
    convertBucket b s.sys = .inr (b', z) ∧ b.shadow = shadow := by
  let b := { bucket with converted := false, shadow := shadow }
  have h : (convertBucket b (withBucket ring b).sys).isRight = true ∧
      bucketIs (withBucket ring b).sys 7 (fun b => !b.gather && !b.converted) = some b ∧
      anyHeld (withBucket ring b).sys (bucketRanges b (routeAt (withBucket ring b).sys b.route)) = false :=
          by cases shadow <;> decide +kernel
  obtain ⟨b', z, hc⟩ := inr_of h.1
  exact ⟨withBucket ring b, 7, b, b', z, rfl, h.2.1, h.2.2, hc, rfl⟩

/-- A bucket that takes partials in its first window, or whose window is still to open. -/
abbrev Adds (port : Nat) (s : State) (h : BucketHdr) (b : Bucket) (r : Route) : Prop :=
  hdrFlag h 3 = false ∧ hdrFlag h 4 = false ∧ atInPort port r h = true ∧ b.gather = false ∧
      lateFrom (openWindow b (pickNow s.sys)) r = none ∧
    consume 5 (b.stage + 8 * h.first) (8 * h.elems) (putBucket (openWindow b (pickNow s.sys)) s.sys) = none

theorem witness_bucketPacket : BucketMet (fun port s h b r => Adds port s h b r ∧ h.shard = r.selfPos ∧ r.split = false) :=
  bucketMet 0 (onePacket 0 0 0) (withBucket ringOfThree bucket) bucket (by decide +kernel) (by decide +kernel) (by decide +kernel) (by decide) (by decide +kernel)

theorem witness_bucketPacket_relay : BucketMet (fun port s h b r => Adds port s h b r ∧ h.shard ≠ r.selfPos) :=
  bucketMet 0 (onePacket 0 1 1) (withBucket ringOfThree bucket) bucket (by decide +kernel) (by decide +kernel) (by decide +kernel) (by decide) (by decide +kernel)

/-- The bucket waits since pick 0 and does so for no more than 4 picks; it is pick 4. -/
def lateBucket : Bucket := { bucket with window := some 0, latePicks := 4 }

/-- The open step with that bucket at a pick, with or without the twin's agreement. -/
def lateState (agreed : Bool) (pick : Nat) : State :=
    { withBucket ringOfThree lateBucket with sys := { (withBucket ringOfThree lateBucket).sys with
  t := { pick := pick }, stp := { state := .opened, agreed := agreed, twinMode := .mirror } } }

theorem witness_bucketPacket_onTime : BucketMet (fun port s h b r => hdrFlag h 3 = false ∧ hdrFlag h 4 = false ∧
    atInPort port r h = true ∧
    lateFrom (openWindow b (pickNow s.sys)) r = some 4 ∧ pickNow s.sys < 4) :=
  bucketMet 0 (onePacket 0 1 1) (lateState true 3) lateBucket (by decide +kernel) (by decide +kernel) (by decide +kernel) (by decide) (by decide +kernel)

theorem witness_bucketPacket_late : BucketMet (fun port s h b r => hdrFlag h 3 = false ∧ hdrFlag h 4 = false ∧ atInPort port r h = true ∧
    lateFrom (openWindow b (pickNow s.sys)) r = some 4 ∧ 4 ≤ pickNow s.sys ∧
    let b' := openWindow b (pickNow s.sys)
    let x := expireWindow b' r 4 (putBucket b' s.sys)
    twinCopies (putBucket b' s.sys) = true ∧ x.1.asked.elem (h.shard, h.first) = true ∧ x.1.refusedCopy.elem (h.shard,
        h.first) = false) :=
  bucketMet 0 (onePacket 0 1 1) (lateState true 4) lateBucket (by decide +kernel) (by decide +kernel) (by decide +kernel) (by decide) (by decide +kernel)

theorem witness_gatherPacket : BucketMet (fun port s h b r => hdrFlag h 3 = false ∧ hdrFlag h 4 = true ∧ atInPort port r h = true ∧
    lateFrom (openWindow b (pickNow s.sys)) r = none ∧ b.gather = true) :=
  bucketMet 0 (onePacket 16 2 2) (withBucket ringOfThree { bucket with gather := true }) { bucket with gather := true } (by decide +kernel) (by decide +kernel) (by decide +kernel) (by decide) (by decide +kernel)

theorem witness_twinHalfSum : BucketMet (fun port _ h b _ => hdrFlag h 3 = true ∧ hdrFlag h 4 = false ∧ twinPorts.elem port = true ∧
    b.joined.elem h.first = false ∧ b.twinHalf.any (fun p => p.1 == h.first) = false ∧
        b.ownHalf.find? (fun p => p.1 == h.first) = none) :=
  bucketMet 7 (onePacket 8 0 0) (withBucket { ringOfThree with split := true } bucket) bucket (by decide +kernel) (by decide +kernel) (by decide +kernel) (by decide) (by decide +kernel)

theorem witness_twinHalfSum_join : BucketMet (fun port _ h b _ => hdrFlag h 3 = true ∧ hdrFlag h 4 = false ∧ twinPorts.elem port = true ∧
    b.joined.elem h.first = false ∧ b.twinHalf.any (fun p => p.1 == h.first) = false ∧
        b.ownHalf.find? (fun p => p.1 == h.first) = some (0, [5], 0)) :=
  bucketMet 7 (onePacket 8 0 0) (withBucket { ringOfThree with split := true } { bucket with ownHalf := [(0, [5], 0)] })
    { bucket with ownHalf := [(0, [5], 0)] } (by decide +kernel) (by decide +kernel) (by decide +kernel) (by decide) (by decide +kernel)

theorem witness_heldPartialRelease : ∃ (s : State) (tag : Nat) (b : Bucket), isUp s.sys = true ∧
    s.sys.coll.buckets.find? (fun b => b.tag == tag && b.converted && !b.shadow && s.sys.coll.holding.any (releasable b)) = some b ∧
    (∀ p ∈ s.sys.coll.holding, releasable b p = true → packetHeld s.sys p.hdr = false) :=
  ⟨{ withBucket ring bucket with sys := { (withBucket ring bucket).sys with
      coll := { buckets := [bucket], holding := [{ port := 0, hdr := header 0 0 0 1, payload := List.replicate 8 1, pick := 0 }] } } }, 7, bucket,
    by decide +kernel⟩

/-- A bucket whose own shard and relays are done, with the flags of its shard. -/
def finalBucket (flags : Nat) : Bucket := { bucket with handled := [(0, 0, 0), (1, 1, 0), (2, 2, 0)], shardFlags := BitVec.ofNat 8 flags }

theorem witness_shardFinal : ∃ (s : State) (tag : Nat) (b : Bucket) (st : Status), isUp s.sys = true ∧
    bucketIs s.sys tag (fun b => !b.gather && !b.shadow && b.converted) = some b ∧
        anyHeld s.sys (bucketRanges b (routeAt s.sys b.route)) = false ∧
    shardFinal b (routeAt s.sys b.route) = true ∧ relaysDone b (routeAt s.sys b.route) = true ∧ sendsDone s.sys b = true ∧
        shardStatus b = some st ∧ st ≠ .bucketOverflow :=
  ⟨withBucket ringOfThree (finalBucket 0), 7, finalBucket 0, .ok, by decide +kernel⟩

theorem witness_bucketResend : ∃ (s : State) (tag : Nat) (b : Bucket), (isUp s.sys = true ∧
    bucketIs s.sys tag (fun b => !b.gather && !b.shadow && b.converted) = some b ∧
    anyHeld s.sys (bucketRanges b (routeAt s.sys b.route)) = false ∧ shardFinal b (routeAt s.sys b.route) = true ∧
    relaysDone b (routeAt s.sys b.route) = true ∧ flag b.shardFlags 0 = true ∧ flag b.shardFlags 1 = false ∧ b.exp + 8 ≤ 255) ∧
    let r := routeAt s.sys b.route
    let y := bucketTrace b 2 r.selfPos (bucketPort r) s.sys
    let n := { nextGen b with window := heldSince y b.tag b.step (b.gen + 1) false }
    let y := bucketTrace n 3 r.selfPos (bucketPort r) { y with coll := { y.coll with resends := satAt (umax 16) (y.coll.resends + 1) } }
    ∃ (b' : Bucket) (z : Sys), convertBucket n (putBucket n y) = .inr (b', z) :=
  ⟨withBucket ringOfThree (finalBucket 1), 7, finalBucket 1, by decide +kernel, inr_of (by decide +kernel)⟩

/-! Obligations.BucketTwinEventsComplete -/

theorem witness_latenessExpiry (copies : Bool) : ∃ (s : State) (tag a : Nat) (b : Bucket), isUp s.sys = true ∧
    bucketIs s.sys tag (fun _ => true) = some b ∧ anyHeld s.sys (bucketRanges b (routeAt s.sys b.route)) = false ∧ b.shadow = false ∧
    b.latePicks ≠ 0 ∧ b.window = some a ∧ (routeAt s.sys b.route).split = false ∧ a + b.latePicks ≤ pickNow s.sys ∧
        twinCopies s.sys = copies :=
  ⟨lateState copies 4, 7, 0, lateBucket, by cases copies <;> decide +kernel⟩

/-- What the twin's requests and answers ask. -/
abbrev FromTwin (s : State) (port : Nat) : Prop :=
  isUp s.sys = true ∧ portTakes s.sys port = true ∧ twinPorts.elem port = true ∧ twinOn s.sys = true

/-- The header of a request for a step. -/
def asking (step : Nat) : List Byte := bucketBytes { header 4 0 0 1 with step := step } []

theorem witness_twinCopyRequest_ahead : ∃ s port bytes, FromTwin s port ∧ bucketFor s.sys (hdrOf bytes) = none ∧
    stepAhead s.sys (hdrOf bytes).step = true :=
  ⟨withBucket ringOfThree bucket, 7, asking 2, by decide +kernel⟩

theorem witness_twinCopyRequest_past : ∃ s port bytes, FromTwin s port ∧ bucketFor s.sys (hdrOf bytes) = none ∧
    stepAhead s.sys (hdrOf bytes).step = false :=
  ⟨withBucket ringOfThree bucket, 7, asking 0, by decide +kernel⟩

theorem witness_twinCopyRequest_failed : ∃ s port bytes b, FromTwin s port ∧ bucketFor s.sys (hdrOf bytes) = some b ∧
    (b.failed = true ∨ (hdrOf bytes).gen < b.gen) :=
  ⟨withBucket ringOfThree { bucket with failed := true }, 7, asking 1, { bucket with failed := true }, by decide +kernel⟩

theorem witness_twinCopyRequest_waits (inUp : Bool) : ∃ s port bytes b, FromTwin s port ∧ bucketFor s.sys (hdrOf bytes) = some b ∧
    b.failed = false ∧
    b.gen ≤ (hdrOf bytes).gen ∧ (∀ q ∈ b.handled, (q.1, q.2.1) ≠ ((hdrOf bytes).shard, (hdrOf bytes).first)) ∧
    portUp s.sys (inPort (routeAt s.sys b.route) (hdrOf bytes).strand) = inUp := by
  refine ⟨withBucket { ringOfThree with strands := [(5, if inUp then 0 else 1)] } bucket, 7, asking 1, bucket, ?_⟩
  cases inUp <;> decide +kernel

theorem witness_twinCopyRequest : ∃ s port bytes b q, FromTwin s port ∧ bucketFor s.sys (hdrOf bytes) = some b ∧ b.failed = false ∧
    (hdrOf bytes).gen = b.gen ∧ b.handled.find? (fun q => q.1 == (hdrOf bytes).shard && q.2.1 == (hdrOf bytes).first) = some q ∧
    let a := resultAddr b (routeAt s.sys b.route) (hdrOf bytes).shard (hdrOf bytes).first
    rangeHeld s.sys a (bktElemBytes b * (hdrOf bytes).elems) = false ∧ consume 5 a (bktElemBytes b * (hdrOf bytes).elems) s.sys = none :=
  ⟨withBucket ringOfThree (finalBucket 0), 7, asking 1, finalBucket 0, (0, 0, 0), by decide +kernel⟩

theorem witness_twinCopyAnswer : ∃ (s : State) (port : Nat) (bytes : List Byte) (b : Bucket) (payload : List Byte), FromTwin s port ∧
    bucketFor s.sys (hdrOf bytes) = some b ∧ packetHeld s.sys (hdrOf bytes) = false ∧ b.finished = false ∧ (hdrOf bytes).gen = b.gen ∧
    b.asked.elem ((hdrOf bytes).shard, (hdrOf bytes).first) = true ∧ b.used.elem ((hdrOf bytes).shard, (hdrOf bytes).first) = false ∧
    b.refusedCopy.elem ((hdrOf bytes).shard, (hdrOf bytes).first) = false ∧
    b.handled.any (fun q => q.1 == (hdrOf bytes).shard && q.2.1 == (hdrOf bytes).first) = false ∧
    payload.length = bktElemBytes b * (hdrOf bytes).elems :=
  ⟨withBucket ringOfThree { bucket with asked := [(0, 0)] }, 7, asking 1, { bucket with asked := [(0, 0)] }, List.replicate 8 0, by decide +kernel⟩

/-! ### Ports and other devices -/

/-! Obligations.PortEventsComplete -/

/-- Port 63 as given. -/
def withPort (p : PortSt) : State := { later with sys := { later.sys with lnk := { ports := [(63, p)] } } }

theorem witness_portTraining : ∃ (s : State) (w : Nat), portRuns s.sys w = true ∧ (portAt s.sys w).state = 0 :=
    ⟨up, 63, by decide +kernel⟩

theorem witness_identityFrame (state : Nat) (h : state = 1 ∨ state = 2) : ∃ (s : State) (w : Nat), portRuns s.sys w = true ∧
    (portAt s.sys w).state = state := by
  rcases h with rfl | rfl
  · exact ⟨withPort { state := 1 }, 63, by decide +kernel⟩
  · exact ⟨withPort { state := 2 }, 63, by decide +kernel⟩

theorem witness_portFault : ∃ (s : State) (w : Nat), portRuns s.sys w = true ∧ (portAt s.sys w).state = 2 ∧
    ∃ q ∈ (portAt s.sys w).retry, 17 ≤ q.refused :=
  ⟨withPort { state := 2, retry := [{ seq := 1, msg := .memDone 0 1 0 false, refused := 17 }] }, 63, by decide +kernel⟩

theorem witness_linkPacket : ∃ (s : State) (w : Nat), portRuns s.sys w = true ∧ portUp s.sys w = true :=
    ⟨withPort upPort, 63, by decide +kernel⟩

theorem witness_laneEqualization : ∃ (s : State) (w : Nat), portRuns s.sys w = true ∧ (portAt s.sys w).state = 2 ∧
    (portAt s.sys w).lastEq + 10000000000 ≤ s.sys.t.timeBase := ⟨withPort upPort, 63, by decide +kernel⟩

theorem witness_linkResetTimeout : ∃ (s : State) (r : LinkResetSt), s.sys.lnk.reset = some r ∧ r.start + 200000000 ≤ s.sys.t.timeBase :=
  ⟨{ later with sys := { later.sys with lnk := { reset := some { cmd := 0, die := 7, start := 0 } } } }, { cmd := 0, die := 7, start := 0 },
    by decide +kernel⟩

/-! Obligations.RemoteEventsComplete -/

theorem witness_warpForward : ∃ (s : State) (port dst w : Nat) (m : WarpMsg), addressee m = some dst ∧ powered s.sys = true ∧
    portTakes s.sys port = true ∧ ownNumber s.sys dst = false ∧ portTo s.sys dst = some w :=
  ⟨linked, 0, 1, 5, .memDone 2 1 0 false, by decide +kernel⟩

/-- linked, with an ACTIVE entry whose face is [0, 65536). -/
def remoteFace : State := { linked with sys := { linked.sys with
  smap := { entries := [(0, { state := .active, face := 0, back := 65536, length := 65536 })] } } }

theorem witness_remoteWrite (hit : Bool) : ∃ (s : State) (port src dst a w : Nat) (free : Bool) (bytes : List Byte), isUp s.sys = true ∧
    portTakes s.sys port = true ∧ ownNumber s.sys dst = true ∧ inDram a bytes.length = true ∧ rangeHeld s.sys a bytes.length = false ∧
    portTo s.sys src = some w ∧ protectedHit s.sys free a bytes.length = hit :=
  ⟨remoteFace, 5, 1, 0, if hit then 0 else 0x20000, 5, false, List.replicate 64 0, by cases hit <;> decide +kernel⟩

theorem witness_writesCompleteReport (left : Nat) (h : left = 1 ∨ left = 2) : ∃ (s : State) (port src dst cmd : Nat) (r : RemoteCopy),
    isUp s.sys = true ∧ portTakes s.sys port = true ∧ ownNumber s.sys dst = true ∧
    s.sys.mem.remote.find? (fun r => r.cmd == cmd && r.device == src) = some r ∧ r.left = left := by
  refine ⟨{ linked with sys := { linked.sys with mem := { remote := [{ cmd := 3, device := 1, port := 5, left := left }] } } }, 5, 1, 0, 3,
    { cmd := 3, device := 1, port := 5, left := left }, ?_⟩
  rcases h with rfl | rfl <;> decide +kernel

/-! ### Steps, integrity, endings and trace -/

/-! Obligations.StepEventsComplete -/

theorem witness_prepareDigest : ∃ (s : State) (p : Prep), s.sys.stp.prep = some p ∧ isUp s.sys = true ∧ p.digested = false ∧
    coveredLeft s.sys = false ∧ sealedLeft s.sys = false :=
  ⟨{ up with sys := { up.sys with stp := { state := .sealed, prep := some { cmd := 0 } } } }, { cmd := 0 }, by decide +kernel⟩

/-- A sealed step with an agreeing twin, whose prepare is as given. -/
def preparing (p : Option Prep) : State := { twinned with sys := { twinned.sys with
  lnk := { ports := [(7, upPort)] }, stp := { twinned.sys.stp with state := .sealed, prep := p } } }

/-- What a prepare message asks. -/
abbrev Prepares (s : State) (port : Nat) (q : PrepareMsg) : Prop := isUp s.sys = true ∧ portTakes s.sys port = true ∧
    twinPorts.elem port = true ∧
  twinOn s.sys = true ∧ openStep s.sys ≤ q.step ∧ (q.aborted = true → q.step = openStep s.sys → s.sys.stp.abortPending = false)

/-- A prepare message for a step. -/
def message (step : Nat) : PrepareMsg := { step := step, stateDigest := 0, stepDigest := 0, dirty := 0, aborted := true }

/-- A prepare whose digests are taken. -/
def digested : Option Prep := some { cmd := 0, digested := true }

theorem witness_prepareMessage (prep : Option Prep) (step : Nat) (h : (prep, step) = (none, 1) ∨ (prep, step) = (digested, 2)) :
    ∃ s port q, Prepares s port q ∧ s.sys.stp.prep = prep ∧ q.step = step ∧
      (∀ p, s.sys.stp.prep = some p → p.digested = false ∨ q.step ≠ openStep s.sys) := by
  refine ⟨preparing prep, 7, message step, ?_⟩
  rcases h with h | h <;> cases h
  · exact ⟨by decide +kernel, rfl, rfl, fun _ h => nomatch h⟩
  · exact ⟨by decide +kernel, rfl, rfl, fun _ _ => .inr (by decide)⟩

theorem witness_prepareMessage_ends : ∃ s port q p, Prepares s port q ∧ s.sys.stp.prep = some p ∧ p.digested = true ∧
    q.step = openStep s.sys :=
  ⟨preparing digested, 7, message 1, { cmd := 0, digested := true }, by decide +kernel⟩

/-- A STEP_COMMIT or a STEP_UNDO that holds the creels. -/
def holding (op : Nat) : Cmd := { id := 0, op := op, pkt := pkt [] 1, creel := 0, lane := 0, phase := .running }

theorem witness_commitStart (op : Nat) (h : op = 0x0602 ∨ op = 0x0604) : ∃ (s : State) (id : Nat) (c : Cmd), isUp s.sys = true ∧
    s.sys.cm.commitWait = some id ∧ findCmd s.sys id = some c ∧ c.phase = .running ∧ commitAlone id s.sys = true ∧ c.op = op := by
  refine ⟨{ up with sys := { up.sys with cm := { cmds := [holding op], nextId := 1, commitWait := some 0 } } }, 0, holding op, ?_⟩
  rcases h with rfl | rfl <;> decide +kernel

theorem witness_weavePacket (sender : Bool) : ∃ (s : State) (port : Nat) (w : Weave), s.sys.stp.weave = some w ∧ isUp s.sys = true ∧
    portTakes s.sys port = true ∧ twinPorts.elem port = true ∧ twinOn s.sys = true ∧ w.sender = sender ∧
        weaveHeld s.sys (.weaveData 0 0 [1]) = false :=
  ⟨{ twinned with sys := { twinned.sys with
      lnk := { ports := [(63, upPort)] }, stp := { twinned.sys.stp with weave := some { cmd := 0, sender := sender } } } },
    63, { cmd := 0, sender := sender }, by cases sender <;> decide +kernel⟩

/-! Obligations.IntegrityEventsComplete -/

/-- A checkpoint stream in, to entry 0, on port 0. -/
def stream : Ckpt := { cmd := 0, inward := true, port := 0, entry := 0, offset := 0, length := 64, step := 0, device := 0 }

/-- streamIn with that stream. -/
def streaming : State := { streamIn with sys := { streamIn.sys with stp := { ckpts := [stream] } } }

/-- A checkpoint packet: CFLAGS and payload (R524). -/
def ckptPacket (flags : Nat) (payload : List Byte) : List Byte :=
  let h := [16, BitVec.ofNat 8 flags, 0, 0] ++ leBytes 20 0 ++ leBytes 4 payload.length
  h ++ leBytes 4 (crc32c (h ++ payload)) ++ payload

/-- What a checkpoint packet asks. -/
abbrev Streams (s : State) (port : Nat) (x : Ckpt) (b : List Byte) : Prop := isUp s.sys = true ∧ portUp s.sys port = true ∧
  s.sys.stp.ckpts.find? (fun c => c.port == port && c.inward) = some x ∧ badCkpt x b = false

theorem witness_ckptData : ∃ s port x b, Streams s port x b ∧ at8 b 1 1 = 1 ∧ (entryAt s.sys x.entry).state = .loading ∧
    rangeHeld s.sys ((entryAt s.sys x.entry).face + at8 b 16 5) (b.drop 32).length = false ∧
        at8 b 16 5 + (b.drop 32).length ≤ (entryAt s.sys x.entry).length :=
  ⟨streaming, 0, stream, ckptPacket 1 (List.replicate 64 7), by decide +kernel⟩

theorem witness_ckptEnd : ∃ s port x b, Streams s port x b ∧ at8 b 1 1 = 2 :=
  ⟨streaming, 0, stream, ckptPacket 2 (List.replicate 16 0), by decide +kernel⟩

theorem witness_burlerSlice : ∃ (s : State) (die n k : Nat), burlerRuns s.sys die = true ∧
    (underTest s.sys die).bind (shuttleAt s.sys) = some n ∧
    (List.range 8).find? (fun t => tileClosed (tileAt s.sys n t)) = some k := ⟨up, 17, 2176, 0, by decide +kernel⟩

/-- Shuttle 0 with an accumulation open on every tile position. -/
def allOpen : State := { up with sys := { up.sys with
  acc := { tiles := (List.range 8).map (fun t => (t, { exact := { status := .opened } })) } } }

theorem witness_burlerSlice_waits : ∃ (s : State) (die n : Nat), burlerRuns s.sys die = true ∧
    (underTest s.sys die).bind (shuttleAt s.sys) = some n ∧
    (List.range 8).find? (fun t => tileClosed (tileAt s.sys n t)) = none := ⟨allOpen, 0, 0, by decide +kernel⟩

theorem witness_burlerTestDone : ∃ (s : State) (die part pos n : Nat) (digest expected : Word64), underTest s.sys die = some pos ∧
    burlerRuns s.sys die = true ∧ 1 ≤ part ∧ part ≤ 5 ∧ digest ≠ expected ∧ shuttleAt s.sys pos = some n :=
        ⟨up, 17, 5, 2312, 2176, 1, 0, by decide +kernel⟩

theorem witness_mendDone : ∃ (s : State) (die : Nat) (m : Mend), mendOf s.sys die = some m :=
  ⟨{ up with sys := { up.sys with bur := { dies := [(3, { mend := some { slot := 127, failed := 15, spare := 16 } })] } } }, 3,
    { slot := 127, failed := 15, spare := 16 }, by decide +kernel⟩

theorem witness_unitFailure : ∃ (s : State) (cls inst : Nat), isUp s.sys = true ∧ inst < checkedUnits cls :=
    ⟨up, 5, 1151, by decide +kernel⟩

/-! Obligations.EndingAndTraceEventsComplete -/

/-- An ending command. -/
def endingCmd (op : Nat) : Cmd :=
    { id := 0, op := op, pkt := pkt [0x2200, 0, 0, 0, 0, 0, 0, 0, 0], creel := 0, lane := 0, phase := .running }

/-- An exact accumulation whose ending command has been accepted. -/
def ending (op : Nat) (failed : Bool) : State := { up with sys := { up.sys with
  cm := { cmds := [endingCmd op], nextId := 1 },
  acc := { tiles := [(0, { exact := { status := .ending 0, failed := failed, m := 1, n := 1, elems := [{}] } })] } } }

theorem witness_endingStart (op : Nat) (failed : Bool) (h : op = 0x0202 ∨ op = 0x0205) : ∃ (s : State) (n t u id : Nat) (c : Cmd),
    isUp s.sys = true ∧
    let p := tileAt s.sys n t
    let v := if p.guarded then u else 0
    (namedTile p v).1 = .ending id ∧ findCmd s.sys id = some c ∧ c.phase = .running ∧ endingHeld (viewed c s.sys) c = false ∧
    readoutTaken (viewed c s.sys) c = false ∧ c.op = op ∧ (namedTile p v).2.1 = failed := by
  refine ⟨ending op failed, 0, 0, 0, 0, endingCmd op, ?_⟩
  rcases h with rfl | rfl <;> cases failed <;> decide +kernel

theorem witness_traceDrain : ∃ (s : State) (u : Nat), isUp s.sys = true ∧ unitOn s.sys u = true ∧
    (s.sys.obs.trace.state = .running ∨ s.sys.obs.trace.state = .triggered) :=
  ⟨{ up with sys := { up.sys with obs := { trace := { state := .running, units := 0x4000000 } } } }, 26, by decide +kernel⟩

theorem witness_traceWindowEnd : ∃ (s : State), isUp s.sys = true ∧ s.sys.obs.trace.state = .triggered ∧ s.sys.obs.trace.stopping = none ∧
    windowEnd s.sys.obs.trace ≤ pickNow s.sys :=
  ⟨{ up with sys := { up.sys with t := { pick := 4 }, obs := { trace := { state := .triggered, t := some { pick := 1 }, post := 3 } } } }, by decide +kernel⟩

/-! ### Images, headstocks, heat and power -/

/-! Obligations.ImageEventsComplete -/

/-- A frame is taken where it passes the checks. -/
theorem frameTaken {typ : Nat} {f : RxFrame} {s : State} (h : answers s.sys = true ∧ f.typ.toNat = typ ∧
    dropOf s.sys f = none) : FrameTaken typ f s := h

/-- A header of a type-2 image of 64 bytes (R583), with its CRC. -/
def imageHeader : List Byte :=
  let h := leBytes 4 0x57464C4F ++ [0x10, 2, 1, 0] ++ leBytes 2 0x0096 ++ [0xA2,
      0] ++ leBytes 4 0 ++ leBytes 4 0 ++ leBytes 4 64 ++ leBytes 100 0
  h ++ leBytes 4 (crc32c h)

theorem witness_imageBegin : ∃ s f, FrameTaken 0x40 f s ∧ headerResult s.perm (takeFrame f s.sys) f.payload = none :=
  ⟨inSession, frame .service 0x40 1 imageHeader, frameTaken (by decide +kernel), by decide +kernel⟩

theorem witness_imageBegin_refused : ∃ s f r, FrameTaken 0x40 f s ∧ headerResult s.perm (takeFrame f s.sys) f.payload = some r :=
  ⟨inSession, frame .service 0x40 1 [1], 0x10, frameTaken (by decide +kernel), by decide +kernel⟩

/-- A transfer of that image in progress. -/
def transferring : State := { inSession with sys := { inSession.sys with sec := { transfer := { active := true, typ := 2, header := imageHeader } } } }

theorem witness_imageData : ∃ s f, FrameTaken 0x41 f s ∧
    let tr := s.sys.sec.transfer
    let data := f.payload.drop 8
    64 ≤ data.length ∧ data.length ≤ 8128 ∧ data.length % 64 = 0 ∧ at8 f.payload 0 4 = tr.received ∧
        tr.received + data.length ≤ transferBytes tr :=
  ⟨transferring, frame .service 0x41 1 (List.replicate 72 0), frameTaken (by decide +kernel), by decide +kernel⟩

theorem witness_imageEnd : ∃ s f r, FrameTaken 0x42 f s ∧ imageResult s.sys.sec.transfer = some r :=
  ⟨transferring, frame .service 0x42 1 [], 0x21, frameTaken (by decide +kernel), by decide +kernel⟩

/-- The header of an image of 64 zero bytes, with their digest. -/
def wholeHeader : List Byte := imageHeader.take 24 ++ sha256 (List.replicate 64 0) ++ imageHeader.drop 56

/-- A transfer that is whole. -/
def transferred : Transfer := { active := true, typ := 2, header := wholeHeader, received := 448, data := List.replicate 448 0 }

theorem witness_imageEnd_whole : ∃ s f, FrameTaken 0x42 f s ∧ s.sys.sec.transfer = transferred ∧
    (Config.signatureValid (at8 wholeHeader 7 1) (wholeHeader ++ List.replicate 64 0) (List.replicate 384 0) = true →
      imageResult s.sys.sec.transfer = none) := by
  refine ⟨{ inSession with sys := { inSession.sys with sec := { transfer := transferred } } }, frame .service 0x42 1 [], frameTaken (by decide +kernel),
    rfl, fun h => ?_⟩
  have hn : at8 wholeHeader 20 4 = 64 ∧ sha256 (List.replicate 64 0) = (wholeHeader.drop 24).take 32 ∧ transferred.header = wholeHeader ∧
      transferred.received = 448 ∧ transferred.data.take 64 = List.replicate 64 0 ∧
          transferred.data.drop 64 = List.replicate 384 0 := by decide +kernel
  show imageResult transferred = none
  simp only [imageResult, hn.1, hn.2.2.1, hn.2.2.2.1, hn.2.2.2.2.1, hn.2.2.2.2.2, ← hn.2.1, h]
  simp

theorem witness_imageAbort : ∃ s f, FrameTaken 0x44 f s := ⟨transferring, frame .service 0x44 1 [], frameTaken (by decide +kernel)⟩

/-! Obligations.HeadstockEventsComplete -/

theorem witness_hsFault (h : Nat) (hh : h = 0 ∨ h = 1) : ∃ (s : State), powered s.sys = true ∧ s.sys.pwr.phase ≠ .failed ∧
    (if h = s.sys.hs.active then s.sys.hs.silent = false ∧ s.sys.hs.activeFaulted = false else s.sys.hs.standby ≠ .absent) := by
  rcases hh with rfl | rfl <;> exact ⟨up, by decide +kernel⟩

theorem witness_takeover : ∃ (s : State), powered s.sys = true ∧ s.sys.hs.activeFaulted = true ∧ s.sys.hs.standby = .ready :=
  ⟨{ up with sys := { up.sys with hs := { standby := .ready, activeFaulted := true } } }, by decide +kernel⟩

theorem witness_standbyReady : ∃ (s : State), isUp s.sys = true ∧ s.sys.hs.activeFaulted = false ∧ s.sys.hs.standby = .booting :=
  ⟨up, by decide +kernel⟩

/-- The standby in its reset, at its first attempt or its second. -/
def standbyResets (second : Bool) : State := { up with sys := { up.sys with
  hs := { standby := .reset }, sec :=
      { resets := [{ cmd := 0, standby := true, die := 0, start := 0, began := 0, second := second }] } } }

theorem witness_standbyReady_reset (second : Bool) : ∃ (s : State) (bad : List Nat), isUp s.sys = true ∧ s.sys.hs.activeFaulted = false ∧
    s.sys.hs.standby = .reset ∧ (∃ r ∈ s.sys.sec.resets, r.standby = true) ∧
        s.sys.sec.resets.any (fun r => r.standby && r.second) = second ∧
    slotStarts bad s.sys 1 (unitSlot s.sys 1 1) = true ∧ slotStarts bad s.sys 1 (ownOf s.sys 1).images.current = true :=
  ⟨standbyResets second, [1], by cases second <;> decide +kernel⟩

theorem witness_standbyReady_none : ∃ (s : State) (bad : List Nat), isUp s.sys = true ∧ s.sys.hs.activeFaulted = false ∧
    s.sys.hs.standby = .reset ∧ (∃ r ∈ s.sys.sec.resets, r.standby = true) ∧ (standbyBoots bad (s.perm, s.sys)).isNone = true :=
  ⟨standbyResets false, [0, 1], by decide +kernel⟩

/-- A unit reset of die 17 or of the standby, whose second attempt may have begun. -/
def unitReset (standby second : Bool) : UnitReset :=
    { cmd := 0, standby := standby, die := if standby then 0 else 17, start := 0, began := 0, second := second }

/-- That reset an hour after it began. -/
def resetting' (standby second : Bool) : State := { later with sys := { later.sys with
  hs := { standby := .ready }, sec := { resets := [unitReset standby second] } } }

theorem witness_unitReset (standby second : Bool) : ∃ (s : State) (die : Nat) (r : UnitReset), isUp s.sys = true ∧
    s.sys.sec.resets.find? (fun r => r.standby == standby && (standby || r.die == die)) = some r ∧ s.sys.hs.standby = .ready ∧
    r.began + readyWithin standby ≤ s.sys.t.timeBase ∧ r.second = second :=
  ⟨resetting' standby second, 17, unitReset standby second, by cases standby <;> cases second <;> decide +kernel⟩

/-! Obligations.HeatEventsComplete -/

theorem witness_thermalSample (die : Nat) (h : die = 0 ∨ die = 17 ∨ die = 18 ∨ die = 27) : ∃ (s : State) (r : ThermReading),
    powered s.sys = true ∧
    die < 28 ∧ dieStopped s.sys die = false ∧ mapGet 0 s.sys.pwr.lastSample die + 100000 ≤ s.sys.t.timeBase ∧
        tripCause true r = none := by
  refine ⟨later, { logic := 25 * 128, dram := 25 * 128, current := 100 }, ?_⟩
  rcases h with rfl | rfl | rfl | rfl <;> decide +kernel

theorem witness_thermalSample_trip : ∃ (s : State) (die k : Nat) (r : ThermReading), powered s.sys = true ∧ dieStopped s.sys die = false ∧
    mapGet 0 s.sys.pwr.lastSample die + 100000 ≤ s.sys.t.timeBase ∧ die < 18 ∧ tripCause true r = some k :=
  ⟨later, 17, 1, { logic := 108 * 128, dram := 0, current := 0 }, by decide +kernel⟩

theorem witness_lifeSample : ∃ (s : State) (vcore : List Nat), answers s.sys = true ∧ s.sys.pwr.lastLife + 1000000000 ≤ s.sys.t.timeBase ∧
    vcore.length = 18 := ⟨later, List.replicate 18 750, by decide +kernel⟩

theorem witness_hoursTick : ∃ (s : State), answers s.sys = true ∧ s.sys.pwr.lastHour + 360000000000 ≤ s.sys.t.timeBase :=
    ⟨later, by decide +kernel⟩

/-! Obligations.PowerEventsComplete, Obligations.SidebandTargetsAnswer -/

theorem witness_vauxRise : ∃ (s : State), s.sys.pwr.vaux = false := ⟨{ up with sys := { up.sys with pwr := { vaux := false } } }, rfl⟩

theorem witness_perstNRelease : State.reset.sys.pwr.phase = .held ∧ State.reset.sys.pwr.vaux = true := by decide +kernel

theorem witness_bootStage1 : ∃ (s : State), s.sys.pwr.phase = .stage1 ∧ s.sys.pwr.sdSource = 0 :=
  ⟨{ up with sys := { up.sys with pwr := { phase := .stage1 } } }, by decide +kernel⟩

theorem witness_shdnReqN : answers up.sys = true ∧ 1000 ≤ 1000 := by decide +kernel

theorem witness_shutdownEnds : ∃ (s : State), s.pending = [] ∧ answers s.sys = true ∧ s.sys.t.sched = [] ∧ s.sys.obs.reads = [] ∧
    s.sys.cm.handover = none ∧ s.sys.pwr.sdSource ≠ 0 ∧ s.sys.pwr.sdDone = false :=
  ⟨{ up with sys := { up.sys with pwr := { phase := .ready, sdSource := 2 } } }, by decide +kernel⟩

theorem witness_smbus : ∃ (s : State), s.sys.pwr.vaux = true ∧ s.sys.pwr.smbAlert = true :=
  ⟨{ up with sys := { up.sys with pwr := { smbAlert := true } } }, by decide +kernel⟩

theorem witness_testAccessPort : (up.perm.elements < 2 ∧ up.sys.pwr.vaux = true) ∧ inFiles fileBase = true ∧
    inFiles (fileBase - 1) = false ∧
    (∃ s : State, 2 ≤ s.perm.elements) :=
        ⟨by decide +kernel, by decide +kernel, by decide +kernel, { up with perm := { elements := 2 } }, by decide +kernel⟩

/-! ### The statements over all commands and over sums -/

/-! Obligations.QueueAndOneWayStateStay, Obligations.OneWayStateIsKept -/

theorem witness_oneWay : ∃ (p : Perm) (s t : State), onlyForward p s.perm ∧ step s = .next t :=
  ⟨up.perm, up, _, ⟨by decide, by decide, fun _ => Nat.le_refl _, fun _ h => h, rfl⟩, rfl⟩

/-! Obligations.MemoryStaysCanonical, Obligations.StateMapStaysLegal, Obligations.CommandsStayInOrder -/

/-- A state with bytes listed, two entries that are not FREE and two commands read, and a command at the front of the queue. -/
def busy : State := { up with
  pending := [.pickInEdge]
  sys := { up.sys with
    mem := { cells := [(0, 1), (64, 2)] }
    smap := { entries := [(0, { state := .active, face := 0, back := 65536, length := 65536, sel := true }),
                          (255, { state := .loading, face := 131072, back := 196608, length := 65536 })] }
    cm := { cmds := [holding 0x0000, { holding 0x0000 with id := 4, phase := .forwarded }], nextId := 5 } } }

theorem busy_legal : mapLegal busy.sys := by
  refine ⟨rfl, fun p hp _ => ?_, fun p hp q hq _ _ hne => ?_⟩
  · simp only [busy, List.mem_cons, List.not_mem_nil, or_false] at hp
    rcases hp with rfl | rfl <;> (simp only [entryLegal]; decide +kernel)
  · simp only [busy, List.mem_cons, List.not_mem_nil, or_false] at hp hq
    rcases hp with rfl | rfl <;> rcases hq with rfl | rfl <;> first | exact absurd rfl hne | (simp only [apart]; decide +kernel)

theorem witness_invariants : ∃ (s t : State), memoryWf s.sys.mem ∧ mapLegal s.sys ∧ cmdsInOrder s.sys ∧ step s = .next t :=
  ⟨busy, _, by decide +kernel, busy_legal, by unfold cmdsInOrder; decide +kernel, rfl⟩

/-! Obligations.OnlyCommitAndUndoFlipTheBanks -/

theorem witness_flip (op : Nat) (h : op = 0x0602 ∨ op = 0x0604) : ∃ (s : State) (id : Nat) (c : Cmd), isUp s.sys = true ∧
    s.sys.cm.commitWait = some id ∧ findCmd s.sys id = some c ∧ c.phase = .running ∧ c.wrote = [] ∧ commitAlone id s.sys = true ∧
        c.op = op ∧
    (entryAt s.sys 0).state = .active := by
  refine ⟨{ busy with sys := { busy.sys with cm := { cmds := [holding op], nextId := 1, commitWait := some 0 } } }, 0, holding op, ?_⟩
  rcases h with rfl | rfl <;> decide +kernel

theorem witness_noFlip : ∃ (s t : State) (k : Nat), mapLegal s.sys ∧ step s = .next t ∧ (∀ i, s.pending.head? = some i →
    flipsBanks i = false) ∧
    (entryAt s.sys k).state = .active ∧ (entryAt t.sys k).state = .active :=
  ⟨busy, _, 0, busy_legal, rfl, fun i h => by simp only [busy, List.head?_cons, Option.some.injEq] at h; rw [← h]; rfl, by decide +kernel⟩

/-! Obligations.RefusalHasNoEffect -/

theorem witness_refusal : ∃ (y z : Sys) (c : Cmd), cmdsInOrder y ∧ atUnit 0 (pkt [1]) y = some (z, c) ∧
    verdict z 0 [] false c = .refuse .paramLength :=
  ⟨up.sys, newCmd 0 0 0 (packetWords 1) false (pkt [1]) up.sys, { id := 0, op := 0, pkt := pkt [1], creel := 0, lane := 0 },
    by unfold cmdsInOrder; decide +kernel, by decide +kernel, by decide +kernel⟩

theorem witness_refusal_version : ∃ (pk : Packet) (y z : Sys) (c : Cmd), pk.version ≠ 0x10 ∧ cmdsInOrder y ∧ atUnit 0 pk y = some (z,
    c) :=
  ⟨{ pkt [] with version := 0x11 }, up.sys, _, _, by decide, by unfold cmdsInOrder; decide +kernel, rfl⟩

/-! Obligations.ExactSumsAreOrderFree, Obligations.GridSumsAreOrderFree -/

theorem witness_orders : ([[[({} : Term)]], []] : List (List (List Term))).Perm [[], [[({} : Term)]]] ∧ ([[1],
    [2]] : List (List Nat)).Perm [[2], [1]] :=
  ⟨List.Perm.swap _ _ _, List.Perm.swap _ _ _⟩

/-! Obligations.StampsComparePickFirst -/

theorem witness_saturated : ∃ y : Sys, (stampNow y).sat = true := ⟨{ up.sys with t := { timeBase := 100000000 } }, by decide +kernel⟩

/-! Obligations.TranslationReachesACopy -/

theorem witness_translation : ∃ (y : Sys) (e : Entry) (k o : Nat), mapLegal y ∧ y.smap.view = [] ∧ (k, e) ∈ y.smap.entries ∧
    e.state ≠ .free ∧
    o < e.length :=
  ⟨busy.sys, { state := .active, face := 0, back := 65536, length := 65536, sel := true }, 0, 65535, busy_legal, by decide +kernel⟩

theorem witness_translation_none : ∃ (y : Sys) (a : Nat), y.smap.view = [] ∧
    (∀ p ∈ y.smap.entries, p.2.state ≠ .free → overlap a 1 p.2.face p.2.length = false ∧ overlap a 1 p.2.back p.2.length = false) :=
  ⟨busy.sys, 262144, by decide +kernel⟩

theorem witness_translation_kept : ∃ (y : Sys) (c : Cmd) (e : Entry) (o : Nat), c.phase = .running ∧ c ∈ y.cm.cmds ∧ e.sel = true ∧
    o < e.length ∧
    overlap (e.back + o) 1 e.face e.length = false :=
  ⟨busy.sys, holding 0x0000, { state := .active, face := 0, back := 65536, length := 65536, sel := true }, 65535, by decide +kernel⟩

/-! Obligations.WritesStoreTheirBytes -/

theorem witness_writes : ∃ (y : Sys) (a : Nat) (bs : List Byte) (x : Nat), y.mem.poison = [] ∧ y.mem.badWords = [] ∧ 0 < bs.length ∧
    (∀ j < bs.length, j ≠ 0 → storedAt y a j ≠ storedAt y a 0) ∧ translateAddr y x = storedAt y a 0 :=
  ⟨up.sys, 63, [1, 2], 63, by decide +kernel⟩


/-! ### What WellFormed refuses -/

/-- A treadle-port frame. -/
def bareFrame (payload : List Byte) : RxFrame := { port := .ta, typ := 0x10, payload := payload }

theorem test_illFormed_params : illFormed (.nop (pkt (List.replicate 253 0))) = some .params := by decide +kernel
theorem test_wellFormed_params : WellFormed (.nop (pkt (List.replicate 252 0))) = true := by decide +kernel
theorem test_illFormed_payload : illFormed (.creelWrite (bareFrame (List.replicate 65536 0))) = some .payload := by
  have h : ¬ (List.replicate 65536 (0 : Byte)).length ≤ 65535 := by rw [List.length_replicate]; decide
  show firstIll [(decide ((List.replicate 65536 (0 : Byte)).length ≤ 65535), .payload)] = some .payload
  rw [decide_eq_false h]; rfl
theorem test_illFormed_die : illFormed (.fadd 18) = some .die := by decide
theorem test_illFormed_shuttle : illFormed (.vadd 2304 0) = some .shuttle := by decide
theorem test_illFormed_thread : illFormed (.vadd 2303 16) = some .thread := by decide
theorem test_illFormed_port : illFormed (.portDown 64) = some .port := by decide
theorem test_illFormed_creel : illFormed (.commandCompletion 64 1) = some .creel := by decide
theorem test_illFormed_index : illFormed (.lockExpired 64) = some .index := by decide
theorem test_illFormed_readings : illFormed (.lifeSample []) = some .readings := by decide
theorem test_wellFormed_lane : WellFormed (.commandCompletion 63 7) = true ∧ WellFormed (.commandCompletion 64 0) = true := by decide

/-! ### Numbers: the worked examples of 02_number_formats.md -/

/-- MXFP6 codes of 1.0, -0.5, 7.5 and 0.125, packed (example under R77). -/
theorem test_packCodes : packCodes 6 [0x08, 0x24, 0x1F, 0x01] = [0x08, 0xF9, 0x05] := by decide +kernel

/-- The four codes decode to their values (the same example). -/
theorem test_decode_e2m3 : [0x08, 0x24, 0x1F, 0x01].map (fun c => decodeFmt .e2m3 c 127) =
    [{ m := 8, e := -3 }, { m := -4, e := -3 }, { m := 15, e := -1 }, { m := 1, e := -3 }] := by decide +kernel

/-- A block of the FP32 codes of a first value, -0.01, and thirty times 0.001. -/
def smallBlock (first : Word32) : List (Dec × Option Nat) :=
  (f32Dec first, none) :: (f32Dec 0xBC23D70A, none) :: List.replicate 30 (f32Dec 0x3A83126F, none)

/-- 700.0, -0.01 and thirty times 0.001 in MXFP8 E4M3 (example after R86). -/
theorem test_block_e4m3 : toBlock .e4m3 false (smallBlock 0x442F0000) =
    { scale := 0x80, codes := 0x7B :: 0x83 :: List.replicate 30 0, classes := .none :: .none :: List.replicate 30 .vanished } := by
  decide +kernel

/-- 1000.0 in MXFP8 E4M3 and E5M2 under both policies (the example after it). -/
theorem test_block_saturates : [(Fmt.e4m3, false), (.e4m3, true), (.e5m2, false), (.e5m2, true)].map
    (fun p => let b := toBlock p.1 p.2 (smallBlock 0x447A0000); (b.scale, b.codes.headD 0, b.classes.headD .none)) =
    [(0x80, 0x7E, .sat), (0x80, 0x7E, .sat), (0x79, 0x7B, .sat), (0x79, 0x7C, .sat)] := by decide +kernel

/-- A block of zeros of both signs in MXFP4 (example after R85). -/
theorem test_block_zero : toBlock .e2m1 false (List.replicate 29 (f32Dec 0, none) ++ List.replicate 3 (f32Dec 0x80000000, none)) =
    { scale := 0, codes := List.replicate 32 0, classes := List.replicate 32 .zero } := by decide +kernel

/-- 65,510, 65,520 and 70,000 in FP16 under both policies (example after R89). -/
theorem test_scalar_fp16 : [65510, 65520, 70000].map (fun v : Int => (toScalar .fp16 false none { m := v },
    toScalar .fp16 true none { m := v })) =
    [((0x7BFF, .none), (0x7BFF, .none)), ((0x7BFF, .sat), (0x7C00, .sat)), ((0x7BFF, .sat), (0x7C00, .sat))] := by decide +kernel

/-- 0x3DCCCCCD in GF64 before and after an overflow (example after R95). -/
theorem test_toGf64 : toGf64 (f32Dec 0x3DCCCCCD) (-30) = (107374184, .none) ∧ toGf64 (f32Dec 0x3DCCCCCD) (-22) = (419430, .none) := by
  decide +kernel

/-- The WP256 element 3 × 2^190 + 5 at base -180 (example after R98). -/
theorem test_wideBytes : (wideBytes { v := BitVec.ofNat 256 (3 * 2 ^ 190 + 5), base := -180 }).drop 32 =
    leBytes 8 0x100000000000FF4C := by decide +kernel

/-- A stochastic readout of 1 + 2^-9 + 2^-10 to the BF16 grid with two words (example after R144). -/
theorem test_stochastic : roundAt (2 ^ 160 + 2 ^ 151 + 2 ^ 150) (-160) (-7) (some 0x40000000) = 128 ∧
    roundAt (2 ^ 160 + 2 ^ 151 + 2 ^ 150) (-160) (-7) (some 0xD0000000) = 129 ∧
    roundAt (2 ^ 160 + 2 ^ 151 + 2 ^ 150) (-160) (-7) none = 128 := by decide +kernel

/-- The group values and their narrow sum (example after R159). -/
theorem test_guarded :
    let q0 : List Dec := { m := 1, e := 40 } :: List.replicate 30 { m := 1, e := -4 } ++ [{ m := 1, e := -170 }]
    let q1 : List Dec := { m := -1, e := 40 } :: List.replicate 30 { m := 1, e := -4 } ++ [{ m := -1, e := -170 }]
    groupNarrow q0 = { a := 2 ^ 46 + 120, x := -6, inx := true } ∧ groupNarrow q1 = { a := -2 ^ 47 + 239, x := -7, inx := true } ∧
    (let n := narrowAdd (groupNarrow q0) (groupNarrow q1); (toScalar .fp32 false none { m := n.a, e := n.x }).1 = 0x406F8000 ∧
      (toScalar .bf16 false none { m := n.a, e := n.x }).1 = 0x4070) := by decide +kernel

/-- The arithmetic of one element of ADAMW (example before Microprograms in 07_bobbin_engines_and_update.md). -/
theorem test_adamw_arithmetic : f32Mul 0x3DCCCCCD 0x3A000000 = 0x384CCCCD ∧ f32Mul 0x3A83126F 0x34800000 = 0x2F83126F ∧
    f32Mul 0x384CCCCD 0x41200000 = 0x3A000000 ∧ f32Add (f32Sqrt 0x34800000) 0x32000000 = 0x3A000080 ∧
    f32Div 0x3A000000 0x3A000080 = 0x3F7FFF00 ∧ f32Add 0x3F7FFF00 0x3C000000 = 0x3F80FF80 ∧
    f32Scale (f32Mul 0x3FC00000 0x3F80FF80) (-12) = 0x39C17F40 ∧ f32Sub 0x3F800000 0x39C17F40 = 0x3F7FE7D0 := by decide +kernel

/-- The check value that the CRC-32C polynomial gives the nine digits (R421 names the polynomial). -/
theorem test_crc32c : crc32c [0x31, 0x32, 0x33, 0x34, 0x35, 0x36, 0x37, 0x38, 0x39] = 0xE3069283 := by decide +kernel

/-! ### Addresses, registers and locks -/

/-- Logical shuttle 1,000's store (example after R43). -/
theorem test_storeOf : storeOf 1000 = 0x4071A000000 := by decide

/-- Stack, channel, bank, row and offset of 0x0000_0151_2345_6780 (example after R224). -/
theorem test_locate : locate 0x15123456780 = (7, 34, 11, 0x123, 0x580) := by decide +kernel

/-- HS.IDENT in memory order (example after R11). -/
theorem test_ident : leBytes 8 identReg = [0x00, 0x10, 0x01, 0xA2, 0x96, 0x00, 0x61, 0x0C] := by decide

/-- The next state, where there is one. -/
def after (o : Host.Outcome State Fault Refusal) : State := match o with
  | .next s => s
  | _ => up

/-- A result of the last command. -/
def resultOf (s : State) : Option (Status × List Word64) := s.sys.cm.cmds.head?.bind (fun c => match c.phase with
  | .done st res => some (st, res)
  | _ => none)

/-- A broadcast write of YARN.CTL.DEFAULT_KIB writes the 18 instances and keeps RUNAHEAD_EN (example after R462). -/
theorem test_regWrite_broadcast :
    let s := after (exec (.regWrite (pkt [0x8006000000000000, 0x800000, 0xFFFF0000])) up)
    (resultOf s).map (fun r => (statusCode r.1, r.2)) = some (0, [0x12]) ∧
    (List.range 18).all (fun d => regValue s.perm s.sys 0x06 0 d == (regValue up.perm up.sys 0x06 0 d &&& 0xFFFFFFFF0000FFFF) ||| 0x800000) = true := by
  decide +kernel

/-- A packet of one creel word that is a header: version, one reserved flag, opcode 0x0B00, and its CRC-32C. -/
def headerWord (version : Byte) : BitVec 512 :=
  let h : List Byte := [version, 2, 0x00, 0x0B] ++ List.replicate 24 0
  BitVec.ofNat 512 (ofLe (h ++ leBytes 4 (crc32c h)))

/-- The version is checked before the opcode, and both before the reserved bit (example after R29). -/
theorem test_versionFirst : readCheck [headerWord 0x11] = some .versionMismatch ∧ readCheck [headerWord 0x10] = some .opcodeReserved := by
  decide +kernel

/-- Commands 0 to 3 in lanes 6, 6, 1 and 7. -/
def inLanes : State := { up with sys := { up.sys with cm := {
  cmds := [6, 6, 1, 7].zipIdx.map (fun p => { id := p.2, op := 0, pkt := pkt [], creel := 0, lane := p.1 }), nextId := 4 } } }

/-- The arrivals at bank 11 at c0, of the commands 0 to 2. -/
def atC0 : List Arrival := [⟨0, .command 0, 16⟩, ⟨1, .command 1, 16⟩, ⟨2, .command 2, 1⟩]

/-- Bank 11's round at c0 (example after R250): Y1 wins at 6, Y2 ages to 7 and V to 2. -/
theorem test_arbitrationRound :
    let x := mapGet {} (after (exec (.arbitrationRound 0 atC0 false) inLanes)).sys.arb 0
    x.grant.map (fun g => (g.1.index, g.2)) = some (0, 6) ∧ x.waiting.map (fun r => (r.index, effective r)) = [(1, 7), (2, 2)] := by
  decide +kernel

/-- The preemption at c0 + 10: Bo at 7 takes the grant, Y1 waits at 7 with 11 beats left (the same example). -/
theorem test_preemption :
    let s := after (exec (.arbitrationRound 0 atC0 false) inLanes)
    let x := mapGet {} (after (exec (.preemption 0 ⟨3, .command 3, 1⟩ 5) s)).sys.arb 0
    x.grant.map (fun g => (g.1.index, g.2)) = some (3, 7) ∧
    (x.waiting.filter (fun r => r.index == 0)).map (fun r => (effective r, r.beats)) = [(7, 11)] := by decide +kernel

/-- 100.09 °C on die 9: s goes from 0 to 1 with notice argument 0x320C_1101 (example after R639). -/
theorem test_thermalSample :
    let s := after (exec (.thermalSample 9 ⟨0x320C, 0, 0⟩) { up with sys := { up.sys with t := { timeBase := 100000 } } })
    (thermAt s.sys 9).stretch = 1 ∧ thermArg 0x320C 1 1 1 = 0x320C1101 ∧ s.sys.pwr.smbAlert = true := by decide +kernel

/-- An empty queue: the block idles for one tick of the time base (log 2). -/
theorem test_step_idles : (after (step up)).sys.t.timeBase = up.sys.t.timeBase + 1 := by decide +kernel

/-- The queue is first in, first out (log 2). -/
theorem test_step_takes_front : (after (step { up with pending := [.hoursTick, .smbIdent] })).pending = [.smbIdent] := by decide +kernel

/-- MEM_FILL of one granule, read back (R262). -/
theorem test_memFill :
    readNat (after (exec (.memFill (pkt [0, 0x1000, 64, 0x0123456789ABCDEF])) up)).sys 0x1000 16 =
      0x0123456789ABCDEF0123456789ABCDEF := by decide +kernel

end Sys2Proof.Tests
end

section
/-! PROOF (O50). What each operation of the model does to memory: most leave it as it was, some change only what the
canonical form does not speak of, and those that write cells keep the form. The lemmas stand in the order of the model. -/

namespace Sys2Proof.Laws

open Sys2Proof Sys2Proof.Machine Sys2Proof.Safety

/-- What memory lists, and where its content is unspecified: all that the canonical form speaks of. -/
def listed (m : MemSt) : SMap Byte × List (Nat × Nat × Nat) := (m.cells, m.unspec)

/-- A listing in canonical form: that of a memory in canonical form. -/
def Canonical (l : SMap Byte × List (Nat × Nat × Nat)) : Prop := memoryWf { cells := l.1, unspec := l.2 }

theorem canonical_listed (m : MemSt) : Canonical (listed m) ↔ memoryWf m := Iff.rfl

/-- Memory that lists nothing is in canonical form. -/
theorem canonical_empty : Canonical ([], []) := ⟨rfl, fun _ h => absurd h List.not_mem_nil⟩

@[simp] theorem putCells_canonical {m : MemSt} (h : Canonical (listed m)) (a : Nat) (bs : List Byte) :
    Canonical (listed (putCells m a bs)) :=
  (canonical_listed _).mpr (memoryWf_putCells bs ((canonical_listed m).mp h) a)

@[simp] theorem forget_canonical {m : MemSt} (h : Canonical (listed m)) (a n idx : Nat) :
    Canonical (listed (forget a n idx m)) := (canonical_listed _).mpr (memoryWf_forget ((canonical_listed m).mp h) a n idx)

@[simp] theorem writeBytes_canonical (id : Option Nat) (a : Nat) (bs : List Byte) {y : Sys} (h : Canonical (listed y.mem)) :
    Canonical (listed (writeBytes id a bs y).mem) :=
  (canonical_listed _).mpr (memoryWf_writeBytes ((canonical_listed y.mem).mp h) id a bs)

/-! ### Folds -/

section
variable {β : Type} {f : Sys → β → Sys}

@[simp] theorem foldl_mem (h : ∀ y b, (f y b).mem = y.mem) (l : List β) (y : Sys) : (l.foldl f y).mem = y.mem :=
  foldl_keeps (fun y => y.mem) f h l y

@[simp] theorem foldl_listed (h : ∀ y b, listed (f y b).mem = listed y.mem) (l : List β) (y : Sys) :
    listed (l.foldl f y).mem = listed y.mem := foldl_keeps (fun y => listed y.mem) f h l y

theorem foldl_canonical (hf : ∀ y b, Canonical (listed y.mem) → Canonical (listed (f y b).mem)) (l : List β) :
    ∀ {y : Sys}, Canonical (listed y.mem) → Canonical (listed (l.foldl f y).mem) := by
  induction l with
  | nil => intro y h; exact h
  | cons b l ih => intro y h; exact ih (hf y b h)

theorem foldl_forget_canonical (start len : β → Nat) (idx : Nat) (l : List β) : ∀ {m : MemSt}, Canonical (listed m) →
    Canonical (listed (l.foldl (fun m b => forget (start b) (len b) idx m) m)) := by
  induction l with
  | nil => intro m h; exact h
  | cons b l ih => intro m h; exact ih (forget_canonical h (start b) (len b) idx)

end

/-! ### Frames, notices, the event recorder and the trace -/

@[simp] theorem freshWord_mem (y : Sys) : (freshWord y).2.mem = y.mem := rfl

@[simp] theorem noteTx_mem (p : Port) (y : Sys) : (noteTx p y).mem = y.mem := by
  unfold noteTx; split <;> simp

@[simp] theorem sendPlain_mem (svc : Bool) (p : Port) (typ : Nat) (payload : List Byte) (y : Sys) :
    (sendPlain svc p typ payload y).mem = y.mem := by
  unfold sendPlain; simp

@[simp] theorem sendSeq_mem (svc : Bool) (typ : Nat) (payload : List Byte) (y : Sys) :
    (sendSeq svc typ payload y).mem = y.mem := by
  unfold sendSeq; simp

@[simp] theorem holdReply_mem (svc : Bool) (bytes : List Byte) (y : Sys) : (holdReply svc bytes y).mem = y.mem := by
  unfold holdReply; dsimp only; split <;> simp

@[simp] theorem traceRec_mem (u typ : Nat) (s : Stamp) (code tag status creel lane arg : Nat) (y : Sys) :
    (traceRec u typ s code tag status creel lane arg y).mem = y.mem := by
  unfold traceRec; dsimp only; split <;> simp

@[simp] theorem notice_mem (kind source tag arg step : Nat) (y : Sys) : (notice kind source tag arg step y).mem = y.mem := by
  unfold notice; dsimp only; split <;> simp

@[simp] theorem writeTriggers_mem (s : Stamp) (cause user : Nat) : ∀ (us : List Nat) (y : Sys),
    (writeTriggers s cause user us y).mem = y.mem
  | [], _ => rfl
  | u :: us, y => by rw [writeTriggers, writeTriggers_mem s cause user us, traceRec_mem]

@[simp] theorem traceFire_mem (cause user unit : Nat) (s : Stamp) (y : Sys) : (traceFire cause user unit s y).mem = y.mem := by
  unfold traceFire
  dsimp only
  split
  · rw [notice_mem, writeTriggers_mem]
  · rfl

@[simp] theorem recordEvent_mem (severity code source data : Nat) (y : Sys) :
    (recordEvent severity code source data y).mem = y.mem := by
  rw [recordEvent_nv]

@[simp] theorem expireOne_mem (k : Nat) (y : Sys) : (expireOne k y).mem = y.mem := by
  unfold expireOne; dsimp only; split <;> simp

@[simp] theorem expireLocks_mem (y : Sys) : (expireLocks y).mem = y.mem := by
  unfold expireLocks; simp

@[simp] theorem breakLocks_mem (svc : Bool) (cause : Nat) (y : Sys) : (breakLocks svc cause y).mem = y.mem := by
  unfold breakLocks; refine foldl_mem (fun z k => ?_) _ y; dsimp only; split <;> simp

/-! ### Memory -/

@[simp] theorem keepView_mem (e : Entry) (y : Sys) : (keepView e y).mem = y.mem := by
  unfold keepView; split <;> simp

@[simp] theorem onDie_listed (d : Nat) (f : MemDie → MemDie) (y : Sys) : listed (onDie d f y).mem = listed y.mem := rfl

@[simp] theorem countUncorr_listed (stack : Nat) (y : Sys) : listed (countUncorr stack y).mem = listed y.mem := rfl

@[simp] theorem countCorr_listed (stack : Nat) (y : Sys) : listed (countCorr stack y).mem = listed y.mem := rfl

@[simp] theorem reportGranule_listed (g source : Nat) (y : Sys) : listed (reportGranule g source y).mem = listed y.mem := by
  unfold reportGranule; simp

@[simp] theorem reportPoison_listed (g source : Nat) (y : Sys) : listed (reportPoison g source y).mem = listed y.mem := by
  unfold reportPoison; simp

/-! ### Commands -/

@[simp] theorem newCmd_mem (op creel lane words : Nat) (sealed : Bool) (pk : Packet) (y : Sys) :
    (newCmd op creel lane words sealed pk y).mem = y.mem := rfl

@[simp] theorem finish_mem (id : Nat) (st : Status) (res : List Word64) (y : Sys) : (finish id st res y).mem = y.mem := by
  unfold finish; dsimp only; (repeat' split) <;> simp

@[simp] theorem overrule_mem (id : Nat) (st : Status) (y : Sys) : (overrule id st y).mem = y.mem := rfl

@[simp] theorem accept_mem (c : Cmd) (shadow : Bool) (y : Sys) : (accept c shadow y).mem = y.mem := by
  unfold accept; simp

@[simp] theorem deliver_mem (id : Nat) (y : Sys) : (deliver id y).mem = y.mem := rfl

@[simp] theorem meetUnit_mem (op : Nat) (layout : List Nat) (bad : Packet → Bool) (ready : Cmd → Sys → Bool)
    (check : Cmd → Sys → Option (Status × List Word64)) (pk : Packet) (y : Sys) :
    (meetUnit op layout bad ready check pk y).1.mem = y.mem := by
  unfold meetUnit
  split
  · rfl
  · next z c hu =>
    have hz : z.mem = y.mem := by rw [atUnit_cm hu]
    split
    · simp [hz]
    · split
      · rfl
      · simp [hz]
      · simp [hz]
      · dsimp only
        (repeat' split) <;> simp [hz]

/-- What a packet does to its unit: a command that is taken up has its effect on a state with the same memory; otherwise
memory stays (R29). -/
theorem execCommand_cases (op : Nat) (layout : List Nat) (bad : Packet → Bool) (ready : Cmd → Sys → Bool)
    (check : Cmd → Sys → Option (Status × List Word64)) (effect : Cmd → Sys → Sys) (pk : Packet) (y : Sys) :
    (execCommand op layout bad ready check effect pk y).mem = y.mem ∨
      ∃ c z, z.mem = y.mem ∧ execCommand op layout bad ready check effect pk y = effect c z := by
  have hm := meetUnit_mem op layout bad ready check pk y
  unfold execCommand
  split
  · next z c hq => rw [hq] at hm; exact .inr ⟨c, z, hm, rfl⟩
  · next z hq => rw [hq] at hm; exact .inl hm

theorem execCommand_canonical {op : Nat} {layout : List Nat} {bad : Packet → Bool} {ready : Cmd → Sys → Bool}
    {check : Cmd → Sys → Option (Status × List Word64)} {effect : Cmd → Sys → Sys} {pk : Packet} {y : Sys}
    (he : ∀ c z, Canonical (listed z.mem) → Canonical (listed (effect c z).mem)) (h : Canonical (listed y.mem)) :
    Canonical (listed (execCommand op layout bad ready check effect pk y).mem) := by
  rcases execCommand_cases op layout bad ready check effect pk y with hm | ⟨c, z, hz, hc⟩
  · rwa [hm]
  · rw [hc]; exact he c z (by rwa [hz])

/-! ### Operands -/

@[simp] theorem failTiles_mem (n : Nat) (y : Sys) : (failTiles n y).mem = y.mem := by unfold failTiles; simp

@[simp] theorem scheduleTest_mem (n : Nat) (y : Sys) : (scheduleTest n y).mem = y.mem := by
  unfold scheduleTest; split <;> simp

@[simp] theorem storeError_mem (n : Nat) (y : Sys) : (storeError n y).mem = y.mem := by
  unfold storeError; simp

theorem consume_listed {source a n : Nat} {y z : Sys} (h : consume source a n y = some z) : listed z.mem = listed y.mem := by
  unfold consume at h
  repeat' split at h
  all_goals cases h
  all_goals simp

theorem consumeAll_listed {source : Nat} {y z : Sys} : ∀ {l : List (Nat × Nat)}, consumeAll source y l = some z →
    listed z.mem = listed y.mem
  | (a, n) :: r, h => by
    rw [consumeAll] at h
    split at h
    · next hc => cases h; exact consume_listed hc
    · exact consumeAll_listed h

/-! ### Link packets -/

@[simp] theorem sendWarp_mem (w : Nat) (m : WarpMsg) (y : Sys) : (sendWarp w m y).mem = y.mem := by
  unfold sendWarp; split <;> simp

@[simp] theorem sendTwin_mem (a b : Nat) (m : WarpMsg) (y : Sys) : (sendTwin a b m y).mem = y.mem := by
  unfold sendTwin; split <;> simp

/-! ### The memory commands -/

@[simp] theorem copySome_canonical (c : Cmd) (src dst : Nat) : ∀ (n : Nat) {y : Sys}, Canonical (listed y.mem) →
    Canonical (listed (copySome c src dst n y).mem)
  | 0, _, h => h
  | n + 1, y, h => by
    have hn := copySome_canonical c src dst n h
    unfold copySome
    dsimp only
    split
    · exact writeBytes_canonical _ _ _ hn
    · exact hn

@[simp] theorem sendSome_mem (c : Cmd) (w self dev src dst : Nat) : ∀ (n : Nat) (y : Sys),
    (sendSome c w self dev src dst n y).2.mem = y.mem
  | 0, _ => rfl
  | n + 1, y => by
    have hn := sendSome_mem c w self dev src dst n y
    unfold sendSome
    dsimp only
    split <;> simp [hn]

@[simp] theorem copyLocal_canonical (c : Cmd) (src dst n : Nat) {y : Sys} (h : Canonical (listed y.mem)) :
    Canonical (listed (copyLocal c src dst n y).mem) := by
  unfold copyLocal
  split
  · simp [h]
  · split
    · next hc => simp [consume_listed hc, h]
    · simp [h]

@[simp] theorem awaitReports_listed (c : Cmd) (dev w left : Nat) (st : Status) (y : Sys) :
    listed (awaitReports c dev w left st y).mem = listed y.mem := by
  unfold awaitReports
  split
  · simp
  · rfl

@[simp] theorem copyRemote_listed (c : Cmd) (dev src dst n : Nat) (y : Sys) :
    listed (copyRemote c dev src dst n y).mem = listed y.mem := by
  unfold copyRemote
  dsimp only
  split
  · simp
  · split
    · simp
    · split
      · next hc => simp [consume_listed hc]
      · simp

@[simp] theorem trimCopies_mem (n : Nat) (y : Sys) : (trimCopies n y).mem = y.mem := by
  unfold trimCopies; split <;> simp

@[simp] theorem trimAll_mem (y : Sys) : (trimAll y).mem = y.mem := by
  unfold trimAll; simp

@[simp] theorem endYarn_mem (n : Nat) (y : Sys) : (endYarn n y).mem = y.mem := by
  unfold endYarn; simp

@[simp] theorem writeAll_canonical (id : Nat) : ∀ (ws : List (Nat × List Byte)) {y : Sys}, Canonical (listed y.mem) →
    Canonical (listed (writeAll id ws y).mem)
  | [], _, h => h
  | (a, b) :: ws, _, h => writeAll_canonical id ws (writeBytes_canonical (some id) a b h)

/-! ### Tiles -/

@[simp] theorem replayPass_listed : ∀ (l : List LogEntry) (y : Sys) (x : ExactTile),
    listed (replayPass l y x).1.mem = listed y.mem
  | [], _, _ => rfl
  | e :: r, y, x => by
    unfold replayPass
    split
    · next hc => exact consumeAll_listed hc
    · split
      · rfl
      · exact replayPass_listed r y _

@[simp] theorem settle_listed : ∀ (fuel : Nat) (y : Sys) (x : ExactTile), listed (settle fuel y x).1.mem = listed y.mem
  | 0, _, _ => rfl
  | fuel + 1, y, x => by
    unfold settle
    split
    · split
      · rfl
      · dsimp only
        split
        · next hp => rw [settle_listed fuel, ← replayPass_listed x.log y _, hp]
        · exact replayPass_listed x.log y _
    · rfl

@[simp] theorem freeElem_mem (y : Sys) : (freeElem y).2.mem = y.mem := by unfold freeElem; simp

@[simp] theorem freeElems_mem : ∀ (n : Nat) (y : Sys), (freeElems n y).2.mem = y.mem
  | 0, _ => rfl
  | n + 1, y => by rw [freeElems, freeElems_mem n, freeElem_mem]

@[simp] theorem freeNarrow_mem (y : Sys) : (freeNarrow y).2.mem = y.mem := rfl

@[simp] theorem freeNarrows_mem : ∀ (n : Nat) (y : Sys), (freeNarrows n y).2.mem = y.mem
  | 0, _ => rfl
  | n + 1, y => by rw [freeNarrows, freeNarrows_mem n, freeNarrow_mem]

/-! ### The update -/

@[simp] theorem updFinish_mem (id : Nat) (o : UpdOp) (ls : BitVec 8) (r : MicroRun) (y : Sys) :
    (updFinish id o ls r y).mem = y.mem := by
  unfold updFinish; simp

@[simp] theorem builtinLoop_canonical (id : Nat) (o : UpdOp) (ls : Int) : ∀ (n i : Nat) (r : MicroRun) {y : Sys},
    Canonical (listed y.mem) → Canonical (listed (builtinLoop id o ls n i r y).2.mem)
  | 0, _, _, _, h => h
  | n + 1, i, _, _, h => builtinLoop_canonical id o ls n (i + 1) _ (writeAll_canonical id _ h)

@[simp] theorem updRun_canonical (c : Cmd) (o : UpdOp) {y : Sys} (h : Canonical (listed y.mem)) :
    Canonical (listed (updRun c o y).mem) := by
  unfold updRun
  dsimp only
  split
  · simp [h]
  · split
    · next hc => simp [consumeAll_listed hc, h]
    · split <;> simp [h]

theorem microRow_canonical {die op : Nat} {f : Nat → UpdOp → Word32 → MicroRun → Sys → Sys} {y : Sys}
    (hf : ∀ id o w r z, Canonical (listed z.mem) → Canonical (listed (f id o w r z).mem)) (h : Canonical (listed y.mem)) :
    Canonical (listed (microRow die op f y).mem) := by
  unfold microRow
  dsimp only
  split
  · exact h
  · split
    · exact h
    · split
      · exact h
      · exact hf _ _ _ _ _ h

/-! ### The other bobbin commands -/

@[simp] theorem someRows_mem : ∀ (l : List (Nat × Nat)) (y : Sys), (someRows l y).2.mem = y.mem
  | [], _ => rfl
  | _ :: l, y => someRows_mem l (freshWord y).2

@[simp] theorem addRow_canonical (id a : Nat) (es : List (Int × CenCls)) {y : Sys} (h : Canonical (listed y.mem)) :
    Canonical (listed (addRow id a es y).mem) := by
  unfold addRow; exact foldl_canonical (fun z p hz => writeBytes_canonical _ _ _ hz) _ h

@[simp] theorem addCensus_mem (d : CensusDelta) (y : Sys) : (addCensus d y).mem = y.mem := rfl

/-! ### Buckets -/

@[simp] theorem dropHeader_mem (port : Nat) (bytes : List Byte) (y : Sys) : (dropHeader port bytes y).mem = y.mem := by
  unfold dropHeader; simp

@[simp] theorem putBucket_mem (b : Bucket) (y : Sys) : (putBucket b y).mem = y.mem := rfl

@[simp] theorem failBucket_mem (b : Bucket) (st : Status) (y : Sys) : (failBucket b st y).mem = y.mem := by
  unfold failBucket; split <;> simp

@[simp] theorem stopSpoiled_mem (id : Nat) (y : Sys) : (stopSpoiled id y).mem = y.mem := by
  unfold stopSpoiled; (repeat' split) <;> simp

@[simp] theorem sendStrand_mem (b : Bucket) (r : Route) (flags : BitVec 8) (strand shard first n : Nat)
    (payload : List Byte) (y : Sys) :
    (sendStrand b r flags strand shard first n payload y).mem = y.mem := by
  unfold sendStrand; simp

@[simp] theorem sendPieces_listed (b : Bucket) (r : Route) (flags : BitVec 8) (shard base first0 : Nat) :
    ∀ (l : List (Nat × Nat × Nat)) (y : Sys), listed (sendPieces b r flags shard base first0 l y).mem = listed y.mem
  | [], _ => rfl
  | q :: l, y => by
    unfold sendPieces
    dsimp only
    split
    · next hc => simp [consume_listed hc]
    · rw [sendPieces_listed b r flags shard base first0 l, sendStrand_mem]

@[simp] theorem sendShard_listed (b : Bucket) (r : Route) (flags : BitVec 8) (shard base first0 : Nat) (y : Sys) :
    listed (sendShard b r flags shard base first0 y).mem = listed y.mem := sendPieces_listed b r flags shard base first0 _ y

@[simp] theorem sendOn_mem (b : Bucket) (r : Route) (flags : BitVec 8) (strand shard first n : Nat) (payload : List Byte)
    (y : Sys) :
    (sendOn b r flags strand shard first n payload y).mem = y.mem := by
  unfold sendOn; dsimp only; split <;> simp

@[simp] theorem joinHalves_canonical (b : Bucket) (r : Route) (first : Nat) (own twin : List Nat × BitVec 8) {y : Sys}
    (h : Canonical (listed y.mem)) : Canonical (listed (joinHalves b r first own twin y).mem) := by
  unfold joinHalves; simp [h]

@[simp] theorem ownHalfDone_canonical (b : Bucket) (r : Route) (hd : BucketHdr) (sum : List Nat) (fl : BitVec 8) {y : Sys}
    (h : Canonical (listed y.mem)) : Canonical (listed (ownHalfDone b r hd sum fl y).mem) := by
  unfold ownHalfDone; dsimp only; split <;> simp [h]

@[simp] theorem twinHalfIn_canonical (b : Bucket) (r : Route) (hd : BucketHdr) (half : List Nat) {y : Sys}
    (h : Canonical (listed y.mem)) : Canonical (listed (twinHalfIn b r hd half y).mem) := by
  unfold twinHalfIn; dsimp only
  split
  · exact h
  · split <;> simp [h]

@[simp] theorem addPartial_canonical (b : Bucket) (r : Route) (hd : BucketHdr) (payload : List Byte) {y : Sys}
    (h : Canonical (listed y.mem)) : Canonical (listed (addPartial b r hd payload y).mem) := by
  unfold addPartial; dsimp only
  split
  · next hc => simp [consume_listed hc, h]
  · split
    · split
      · exact ownHalfDone_canonical _ r hd _ _ (by simpa using h)
      · simp [h]
    · simp [h]

@[simp] theorem tryGather_mem (b : Bucket) (r : Route) (y : Sys) : (tryGather b r y).mem = y.mem := by
  unfold tryGather; (repeat' split) <;> simp

@[simp] theorem gatherIn_canonical (b : Bucket) (r : Route) (hd : BucketHdr) (payload : List Byte) {y : Sys}
    (h : Canonical (listed y.mem)) : Canonical (listed (gatherIn b r hd payload y).mem) := by
  unfold gatherIn; dsimp only; split <;> simp [h]

@[simp] theorem bucketTrace_mem (b : Bucket) (ev shard port : Nat) (y : Sys) : (bucketTrace b ev shard port y).mem = y.mem := by
  unfold bucketTrace; simp

@[simp] theorem twinDifference_mem (b : Bucket) (y : Sys) : (twinDifference b y).mem = y.mem := by
  unfold twinDifference; dsimp only; split <;> simp

@[simp] theorem lateOriginal_listed (b : Bucket) (r : Route) (h : BucketHdr) (payload : List Byte) (y : Sys) :
    listed (lateOriginal b r h payload y).mem = listed y.mem := by
  unfold lateOriginal
  dsimp only
  split
  · next hc =>
    have hz := consumeAll_listed hc
    rw [bucketTrace_mem, putBucket_mem] at hz
    split
    · exact hz
    · rw [failBucket_mem, hz]
  · generalize (if b.gather = true then payload else _) = mine
    split <;> simp

@[simp] theorem holdPacket_mem (port pick : Nat) (h : BucketHdr) (payload : List Byte) (y : Sys) :
    (holdPacket port pick h payload y).mem = y.mem := by
  unfold holdPacket; split <;> simp

@[simp] theorem askTwin_mem (b : Bucket) (r : Route) (q : Nat × Nat × Nat × Nat) (y : Sys) : (askTwin b r q y).mem = y.mem := by
  unfold askTwin; simp

@[simp] theorem expireWindow_mem (b : Bucket) (r : Route) (windowEnd : Nat) (y : Sys) :
    (expireWindow b r windowEnd y).2.mem = y.mem := by
  unfold expireWindow; dsimp only; split
  · rw [putBucket_mem, foldl_mem fun z q => askTwin_mem _ r q z]
  · rfl

@[simp] theorem checkWindow_mem (b : Bucket) (r : Route) (pick : Nat) (y : Sys) : (checkWindow b r pick y).2.mem = y.mem := by
  unfold checkWindow; split
  · rfl
  · split <;> simp

@[simp] theorem takePacket_canonical (port pick : Nat) (b : Bucket) (r : Route) (hd : BucketHdr) (payload : List Byte) {y : Sys}
    (h : Canonical (listed y.mem)) : Canonical (listed (takePacket port pick b r hd payload y).mem) := by
  unfold takePacket; dsimp only; (repeat' split) <;> simp [h]

@[simp] theorem arrive_canonical (port pick : Nat) (hd : BucketHdr) (payload : List Byte) {y : Sys}
    (h : Canonical (listed y.mem)) : Canonical (listed (arrive port pick hd payload y).mem) := by
  unfold arrive
  split
  · split <;> simp [h]
  · next b _ =>
    have hq : Canonical (listed (if hdrFlag hd 3 = true then (openWindow b pick, putBucket (openWindow b pick) y)
        else checkWindow (openWindow b pick) (routeAt y b.route) pick (putBucket (openWindow b pick) y)).2.mem) := by
      split <;> simp [h]
    dsimp only
    generalize (if hdrFlag hd 3 = true then (openWindow b pick, putBucket (openWindow b pick) y)
      else checkWindow (openWindow b pick) (routeAt y b.route) pick (putBucket (openWindow b pick) y)) = q at hq ⊢
    (repeat' split) <;> simp [h, hq]

@[simp] theorem unstall_canonical {y : Sys} (h : Canonical (listed y.mem)) : Canonical (listed (unstall y).mem) := by
  unfold unstall; exact foldl_canonical (fun z p hz => arrive_canonical _ _ _ _ hz) _ h

/-- A conversion that fails keeps memory canonical. -/
theorem convertBucket_inl {b : Bucket} {y z : Sys} (h : Canonical (listed y.mem)) (hz : convertBucket b y = .inl z) :
    Canonical (listed z.mem) := by
  unfold convertBucket at hz
  dsimp only at hz
  split at hz
  · next hc => cases hz; simp [consume_listed hc, h]
  · split at hz
    · cases hz; simp [h]
    · cases hz

/-- A conversion that succeeds keeps memory canonical. -/
theorem convertBucket_inr {b : Bucket} {y : Sys} {q : Bucket × Sys} (h : Canonical (listed y.mem))
    (hq : convertBucket b y = .inr q) : Canonical (listed q.2.mem) := by
  unfold convertBucket at hq
  dsimp only at hq
  split at hq
  · cases hq
  · split at hq
    · cases hq
    · cases hq; simp [h]

@[simp] theorem startSending_listed (b : Bucket) (y : Sys) : listed (startSending b y).mem = listed y.mem := by
  unfold startSending; simp

@[simp] theorem answerCopy_mem (h : BucketHdr) (flags : BitVec 8) (elems : Option (List Byte)) (y : Sys) :
    (answerCopy h flags elems y).mem = y.mem := by
  unfold answerCopy; simp

@[simp] theorem serveRequest_listed (h : BucketHdr) (y : Sys) : listed (serveRequest h y).mem = listed y.mem := by
  unfold serveRequest
  dsimp only
  split
  · split <;> simp
  · split
    · simp
    · split
      · split <;> simp
      · split
        · rfl
        · split
          · next hc => simp [consume_listed hc]
          · simp

@[simp] theorem serveRequests_listed (y : Sys) : listed (serveRequests y).mem = listed y.mem := by
  unfold serveRequests
  split
  · rw [foldl_listed fun z h => serveRequest_listed h z]
  · rfl

@[simp] theorem bucketsMoved_canonical {y : Sys} (h : Canonical (listed y.mem)) : Canonical (listed (bucketsMoved y).mem) := by
  unfold bucketsMoved; simp [h]

/-! ### Routes and bucket commands -/

@[simp] theorem routeLoad_listed (c : Cmd) (y : Sys) : listed (routeLoad c y).mem = listed y.mem := by
  unfold routeLoad
  dsimp only
  split
  · next hc => simp [consume_listed hc]
  · simp

@[simp] theorem useTag_mem (shadow : Bool) (tag : Nat) (y : Sys) : (useTag shadow tag y).mem = y.mem := by
  unfold useTag; split <;> simp

@[simp] theorem startBucket_mem (c : Cmd) (b : Bucket) (y : Sys) : (startBucket c b y).mem = y.mem := by
  unfold startBucket; simp

@[simp] theorem startGather_canonical (c : Cmd) (b : Bucket) {y : Sys} (h : Canonical (listed y.mem)) :
    Canonical (listed (startGather c b y).mem) := by
  unfold startGather
  dsimp only
  split
  · simp [h]
  · split
    · simp [h]
    · split
      · next hc => simp [consume_listed hc, h]
      · simp [h]

@[simp] theorem writeRecords_canonical (c : Cmd) (l : List BucketRec) (dst max : Nat) {y : Sys} (h : Canonical (listed y.mem)) :
    Canonical (listed (writeRecords c l dst max y).mem) := by
  unfold writeRecords; dsimp only; split <;> simp [h]

/-! ### Accumulation commands -/

@[simp] theorem spoilTile_mem (n t u : Nat) (y : Sys) : (spoilTile n t u y).mem = y.mem := by
  unfold spoilTile; dsimp only; split
  · rw [setTile_mem, freeNarrows_mem]
  · rw [setTile_mem, freeElems_mem]

@[simp] theorem addMatmul_mem (c : Cmd) (n t u : Nat) (o : MatOp) (y : Sys) : (addMatmul c n t u o y).mem = y.mem := by
  unfold addMatmul; dsimp only; split <;> simp

@[simp] theorem startEnding_mem (c : Cmd) (n t u : Nat) (y : Sys) : (startEnding c n t u y).mem = y.mem := rfl

@[simp] theorem importTile_mem (c : Cmd) (n t : Nat) (ws : List (Option Wide)) (y : Sys) :
    (importTile c n t ws y).mem = y.mem := by
  unfold importTile; dsimp only; (repeat' split) <;> simp

@[simp] theorem reopenTile_mem (n t u : Nat) (y : Sys) : (reopenTile n t u y).mem = y.mem := rfl

@[simp] theorem endWrite_canonical (c : Cmd) (ws : List (Nat × List Byte)) (st : Status) (res : List Word64)
    (census : List CensusDelta) (watch : List WatchDelta) {y : Sys} (h : Canonical (listed y.mem)) :
    Canonical (listed (endWrite c ws st res census watch y).mem) := by
  unfold endWrite; split <;> simp [h]

@[simp] theorem endReadout_canonical (c : Cmd) (n m cols kSum replays inexact : Nat) (base : Int) (top : Option Int)
    (vs : List Dec) {y : Sys} (h : Canonical (listed y.mem)) :
    Canonical (listed (endReadout c n m cols kSum replays inexact base top vs y).mem) := by
  unfold endReadout; simp [h]

@[simp] theorem endExport_canonical (c : Cmd) (x : ExactTile) {y : Sys} (h : Canonical (listed y.mem)) :
    Canonical (listed (endExport c x y).mem) := by
  unfold endExport; simp [h]

@[simp] theorem endExact_canonical (c : Cmd) (n t : Nat) {y : Sys} (h : Canonical (listed y.mem)) :
    Canonical (listed (endExact c n t y).mem) := by
  have hs : Canonical (listed (settle 40 y (tileAt y n t).exact).1.mem) := by rwa [settle_listed]
  unfold endExact
  dsimp only
  split
  · next hp => rw [hp] at hs; simpa using hs
  · next hp =>
    rw [hp] at hs
    split
    · exact endExport_canonical c _ hs
    · exact endReadout_canonical c _ _ _ _ _ _ _ _ _ hs

@[simp] theorem endGuarded_canonical (c : Cmd) (n t u : Nat) {y : Sys} (h : Canonical (listed y.mem)) :
    Canonical (listed (endGuarded c n t u y).mem) := endReadout_canonical c _ _ _ _ _ _ _ _ _ h

@[simp] theorem closeEnded_mem (c : Cmd) (y : Sys) : (closeEnded c y).mem = y.mem := by
  unfold closeEnded; dsimp only; (repeat' split) <;> simp

@[simp] theorem releaseBehind_mem (id : Nat) (st : Status) (y : Sys) : (releaseBehind id st y).mem = y.mem := by
  unfold releaseBehind; refine foldl_mem (fun z d => ?_) _ y; split <;> simp

/-! ### DRAM, run-ahead and the yarn engines -/

@[simp] theorem readCode_canonical (g wrong : Nat) {y : Sys} (h : Canonical (listed y.mem)) :
    Canonical (listed (readCode g wrong y).2.mem) := by
  unfold readCode
  dsimp only
  split <;> try exact h
  split <;> try exact h
  all_goals exact forget_canonical h _ _ _

@[simp] theorem poisonGranule_listed (g : Nat) (y : Sys) : listed (poisonGranule g y).mem = listed y.mem := rfl

@[simp] theorem serveRead_canonical (g source wrong : Nat) {y : Sys} (h : Canonical (listed y.mem)) :
    Canonical (listed (serveRead g source wrong y).mem) := by
  unfold serveRead
  dsimp only
  split
  · simp [h]
  · split <;> simp [h]

@[simp] theorem serveWrite_canonical (a t : Nat) (mask : BitVec 64) (data : BitVec 512) {y : Sys} (h : Canonical (listed y.mem)) :
    Canonical (listed (serveWrite a t mask data y).mem) := by
  unfold serveWrite
  dsimp only
  split
  · simp [h]
  · generalize mergeBytes mask (readBytes y (a * 64) 64) (leBytes 64 data.toNat) = bs
    exact putCells_canonical h (t * 64) bs

@[simp] theorem fetchAhead_canonical (n : Nat) {y : Sys} (p : Nat × Nat) (h : Canonical (listed y.mem)) :
    Canonical (listed (fetchAhead n y p).mem) := by
  unfold fetchAhead
  dsimp only
  rw [setYarn_mem]
  split
  · exact h
  · split <;> simp [h]

@[simp] theorem mixBytes_mem : ∀ (l : List (Byte × Byte × Bool)) (y : Sys), (mixBytes l y).2.mem = y.mem
  | [], _ => rfl
  | (_, _, _) :: l, y => mixBytes_mem l (freshWord y).2

@[simp] theorem mixUnits_canonical (id : Nat) (l : LoadOp) : ∀ (k i : Nat) {y : Sys}, Canonical (listed y.mem) →
    Canonical (listed (mixUnits id l k i y).mem)
  | 0, _, _, h => h
  | k + 1, i, y, h => by
    refine mixUnits_canonical id l k (i + 1) ?_
    dsimp only
    split
    · refine foldl_canonical (fun z w hz => ?_) _ h
      simp [hz]
    · exact h

@[simp] theorem useCopies_mem (n : Nat) (gs : List Nat) (y : Sys) : (useCopies n gs y).mem = y.mem := by
  unfold useCopies; dsimp only; split <;> simp

@[simp] theorem consumeUnit_canonical (n id : Nat) (l : LoadOp) {y : Sys} (h : Canonical (listed y.mem)) :
    Canonical (listed (consumeUnit n id l y).mem) := by
  unfold consumeUnit
  dsimp only
  split
  · next hc => simp [consume_listed hc, h]
  · split <;> simp [h]

@[simp] theorem upsetStore_listed (n : Nat) (upset : List (Nat × Nat)) (y : Sys) :
    listed (upsetStore n upset y).mem = listed y.mem := rfl

/-! ### Vector programs -/

@[simp] theorem putElem_canonical (id w : Nat) (a : Nat × Nat) (code : Nat) {y : Sys} (h : Canonical (listed y.mem)) :
    Canonical (listed (putElem id w a code y).mem) := writeBytes_canonical (some id) _ _ h

@[simp] theorem loadTy_mem (t : Nat) (y : Sys) : (loadTy t y).2.mem = y.mem := by
  unfold loadTy; split <;> rfl

@[simp] theorem endRun_mem (n id : Nat) (st : Status) (res : List Word64) (y : Sys) : (endRun n id st res y).mem = y.mem := by
  unfold endRun; simp

@[simp] theorem vecFaulted_mem (k : VCtx) (code : Nat) (y : Sys) : (vecFaulted k code y).mem = y.mem := by
  unfold vecFaulted; simp

@[simp] theorem setThread_mem (n h : Nat) (th : VThread) (y : Sys) : (setThread n h th y).mem = y.mem := rfl

@[simp] theorem vecGo_mem (k : VCtx) (th : VThread) (pc : Int) (y : Sys) : (vecGo k th pc y).mem = y.mem := by
  unfold vecGo; dsimp only; split <;> simp

@[simp] theorem stopThread_mem (k : VCtx) (y : Sys) : (stopThread k y).mem = y.mem := rfl

/-- The state that the result of an instruction carries. -/
def resultState : VRes → Sys
  | .go _ z => z
  | .jump _ z => z
  | .fault _ z => z

@[simp] theorem vecEnd_mem (k : VCtx) (x : VRes) : (vecEnd k x).mem = (resultState x).mem := by
  cases x <;> simp [vecEnd, resultState]

theorem vecRow_canonical {n h op : Nat} {f : VCtx → Sys → VRes} {y : Sys}
    (hf : ∀ k z, Canonical (listed z.mem) → Canonical (listed (resultState (f k z)).mem)) (hy : Canonical (listed y.mem)) :
    Canonical (listed (vecRow n h op f y).mem) := by
  unfold vecRow
  dsimp only
  (repeat' split) <;> simp [hy]
  exact hf _ _ hy

@[simp] theorem loadLanes_listed (k : VCtx) (addr : Nat → Nat → Nat × Nat) (y : Sys) :
    listed (resultState (loadLanes k addr y)).mem = listed y.mem := by
  unfold loadLanes
  split
  · rfl
  · dsimp only
    split
    · rfl
    · split
      · next hc => exact consumeAll_listed hc
      · rw [resultState, loadTy_mem]

@[simp] theorem storeLanes_canonical (k : VCtx) (addr : Nat → Nat → Nat × Nat) {y : Sys} (h : Canonical (listed y.mem)) :
    Canonical (listed (resultState (storeLanes k addr y)).mem) := by
  unfold storeLanes
  (repeat' split) <;> try exact h
  exact foldl_canonical (fun z l hz => putElem_canonical _ _ _ _ hz) _ h

@[simp] theorem laneOp_mem (k : VCtx) (f : VTy → Word32 → Word32 → Word32) (y : Sys) :
    (resultState (laneOp k f y)).mem = y.mem := by
  unfold laneOp; split <;> rfl

@[simp] theorem floatOp_mem (k : VCtx) (f : Nat → Word32) (y : Sys) : (resultState (floatOp k f y)).mem = y.mem := by
  unfold floatOp; split <;> rfl

@[simp] theorem redExtreme_mem (big : Bool) (k : VCtx) (y : Sys) : (resultState (redExtreme big k y)).mem = y.mem := by
  unfold redExtreme
  split
  · rfl
  · split
    · rfl
    · dsimp only
      split <;> rfl

@[simp] theorem setWide_mem (k : VCtx) (ws : List Wide) (y : Sys) : (resultState (setWide k ws y)).mem = y.mem := rfl

/-! ### Images and measurements -/

@[simp] theorem onImages_mem (t : Nat) (f : TypeImages → TypeImages) (y : Sys) : (onImages t f y).mem = y.mem := by
  unfold onImages; (repeat' split) <;> simp

@[simp] theorem extendMeas_mem (h reg : Nat) (ev : List Byte) (y : Sys) : (extendMeas h reg ev y).mem = y.mem := rfl

@[simp] theorem measureImage_mem (h reg t k : Nat) (y : Sys) : (measureImage h reg t k y).mem = y.mem := rfl

@[simp] theorem fuseChanged_mem (p : Perm) (y : Sys) : (fuseChanged p y).mem = y.mem := by
  unfold fuseChanged; simp

@[simp] theorem activatedRecord_mem (t inst version : Nat) (fell : Bool) (y : Sys) :
    (activatedRecord t inst version fell y).mem = y.mem := by
  unfold activatedRecord; simp

@[simp] theorem settleType_mem (t : Nat) (y : Sys) : (settleType t y).mem = y.mem := by
  unfold settleType; (repeat' split) <;> simp

@[simp] theorem recordActivation_mem (t u version : Nat) (y : Sys) : (recordActivation t u version y).mem = y.mem := by
  unfold recordActivation; (repeat' split) <;> simp

@[simp] theorem activateUnit_mem (t u : Nat) (afterBoot : Bool) (x : Perm × Sys) :
    (activateUnit t u afterBoot x).2.mem = x.2.mem := by
  unfold activateUnit; dsimp only
  split
  · rfl
  · split <;> simp

@[simp] theorem partMram_mem (y : Sys) : (partMram y).mem = y.mem := rfl

@[simp] theorem payOwed_mem (y : Sys) : (payOwed y).mem = y.mem :=
  foldl_mem (fun z u => activatedRecord_mem 1 u _ false z) _ y

/-! ### Steps, commit and abort -/

@[simp] theorem logAppend_mem (e : StepLog) (y : Sys) : (logAppend e y).mem = y.mem := by
  unfold logAppend; rfl

@[simp] theorem endLog_mem (n outcome : Nat) (y : Sys) : (endLog n outcome y).mem = y.mem := rfl

@[simp] theorem onPrepLog_mem (n : Nat) (f : StepLog → StepLog) (y : Sys) : (onPrepLog n f y).mem = y.mem := rfl

@[simp] theorem endPrepare_mem (msg : Option PrepareMsg) (y : Sys) : (endPrepare msg y).mem = y.mem := by
  unfold endPrepare; dsimp only; (repeat' split) <;> simp

@[simp] theorem prepareLinkLost_mem (y : Sys) : (prepareLinkLost y).mem = y.mem := by
  unfold prepareLinkLost; (repeat' split) <;> simp

@[simp] theorem dropFlipped_mem (y : Sys) : (dropFlipped y).mem = y.mem := by
  unfold dropFlipped; simp

@[simp] theorem flipAll_mem (y : Sys) : (flipAll y).mem = y.mem := by
  unfold flipAll; simp

@[simp] theorem endBuckets_mem (y : Sys) : (endBuckets y).mem = y.mem := rfl

@[simp] theorem endShadow_mem (y : Sys) : (endShadow y).mem = y.mem := rfl

/-! ### Link events -/

@[simp] theorem sendIdentity_mem (w : Nat) (y : Sys) : (sendIdentity w y).mem = y.mem := rfl

@[simp] theorem sendIdentities_mem (ws : List Nat) (y : Sys) : (sendIdentities ws y).mem = y.mem :=
  foldl_mem (fun z w => sendIdentity_mem w z) _ y

@[simp] theorem setAgreed_mem (y : Sys) : (setAgreed y).mem = y.mem := by
  unfold setAgreed; split <;> simp

@[simp] theorem takeIdentity_mem (w dev : Nat) (valid : Bool) (port : Nat) (twin : Option (Nat × Nat)) (y : Sys) :
    (takeIdentity w dev valid port twin y).mem = y.mem := rfl

@[simp] theorem endLinkReset_mem (y : Sys) : (endLinkReset y).mem = y.mem := by
  unfold endLinkReset; split <;> simp

@[simp] theorem linkResetUp_mem (y : Sys) : (linkResetUp y).mem = y.mem := by
  unfold linkResetUp; (repeat' split) <;> simp

@[simp] theorem dropRemote_listed (port : Nat) (y : Sys) : listed (dropRemote port y).mem = listed y.mem := by
  unfold dropRemote; dsimp only; rw [foldl_mem]
  · rfl
  · intro z r; exact finish_mem ..

@[simp] theorem dropStreams_mem (port : Nat) (y : Sys) : (dropStreams port y).mem = y.mem := by
  unfold dropStreams; simp

@[simp] theorem twinLinkLost_mem (y : Sys) : (twinLinkLost y).mem = y.mem := by
  unfold twinLinkLost; dsimp only; (repeat' split) <;> simp

@[simp] theorem faultPort_listed (port : Nat) (y : Sys) : listed (faultPort port y).mem = listed y.mem := by
  unfold faultPort; simp

@[simp] theorem downPort_listed (port : Nat) (y : Sys) : listed (downPort port y).mem = listed y.mem := by
  unfold downPort; simp

@[simp] theorem outDone_mem (port : Nat) (y : Sys) : (outDone port y).mem = y.mem := by
  unfold outDone; (repeat' split) <;> simp

@[simp] theorem takeReport_listed (r : RemoteCopy) (refused : Bool) (y : Sys) :
    listed (takeReport r refused y).mem = listed y.mem := by
  unfold takeReport
  dsimp only
  split
  · rw [finish_mem]; rfl
  · rfl

/-! ### The step and twin commands -/

@[simp] theorem openTheStep_mem (n : Nat) (origin : Bool) (y : Sys) : (openTheStep n origin y).mem = y.mem := by
  unfold openTheStep; split <;> simp

@[simp] theorem coverStep_mem (y : Sys) : (coverStep y).mem = y.mem := rfl

@[simp] theorem digestPrepare_mem (p : Prep) (y : Sys) : (digestPrepare p y).mem = y.mem := by
  unfold digestPrepare; dsimp only; (repeat' split) <;> simp

@[simp] theorem commitNow_canonical (id : Nat) {y : Sys} (h : Canonical (listed y.mem)) :
    Canonical (listed (commitNow id y).mem) := by
  unfold commitNow; simp [h]

@[simp] theorem undoNow_mem (id : Nat) (y : Sys) : (undoNow id y).mem = y.mem := by
  unfold undoNow; simp

@[simp] theorem commitWhenAlone_canonical {y : Sys} (h : Canonical (listed y.mem)) :
    Canonical (listed (commitWhenAlone y).mem) := by
  unfold commitWhenAlone; (repeat' split) <;> simp [h]

@[simp] theorem abortCmds_mem (n : Nat) (y : Sys) : (abortCmds n y).mem = y.mem := rfl

@[simp] theorem abortTiles_mem (step : Nat) (ids : List Nat) (y : Sys) : (abortTiles step ids y).mem = y.mem := by
  unfold abortTiles; simp

@[simp] theorem abortEngines_listed (ids : List Nat) (y : Sys) : listed (abortEngines ids y).mem = listed y.mem := by
  have hy (l : List (Nat × YarnSt)) (z : Sys) :
      (l.foldl (fun z p => setYarn p.1 { yarnAt z p.1 with cmd := none, pos := 0 } z) z).mem = z.mem := by
    refine foldl_mem (fun _ _ => ?_) l z; rfl
  have hv (l : List (Nat × VecRun)) (z : Sys) : (l.foldl (fun z p => setEng p.1 {} (setRun p.1 {} z)) z).mem = z.mem := by
    refine foldl_mem (fun _ _ => ?_) l z; rfl
  have hu (l : List (Nat × MicroRun)) (z : Sys) : (l.foldl (fun z p => setMicro p.1 {} z) z).mem = z.mem := by
    refine foldl_mem (fun _ _ => ?_) l z; rfl
  have h := fun a b c => congrArg listed ((hu a _).trans ((hv b _).trans (hy c y)))
  unfold abortEngines
  exact h _ _ _

@[simp] theorem abortBacks_canonical {y : Sys} (h : Canonical (listed y.mem)) : Canonical (listed (abortBacks y).mem) :=
  foldl_forget_canonical (fun p : Nat × Entry => if p.2.sel then p.2.face else p.2.back) (fun p => p.2.length) y.free
    (activeEntries y) h

@[simp] theorem tellAbort_mem (n : Nat) (y : Sys) : (tellAbort n y).mem = y.mem := by
  unfold tellAbort; split <;> simp

@[simp] theorem abortNow_canonical (n : Nat) {y : Sys} (h : Canonical (listed y.mem)) :
    Canonical (listed (abortNow n y).mem) := by
  unfold abortNow
  dsimp only
  rw [trimAll_mem, onStep_mem, tellAbort_mem, endLog_mem]
  refine abortBacks_canonical ?_
  rw [endShadow_mem]
  refine bucketsMoved_canonical ?_
  simpa using h

@[simp] theorem sendWeave_mem (m : WarpMsg) (y : Sys) : (sendWeave m y).mem = y.mem := by
  unfold sendWeave; simp

@[simp] theorem sendFace_mem (e : Nat) (x : Entry) : ∀ (fuel o : Nat) (y : Sys), (sendFace e x fuel o y).mem = y.mem
  | 0, _, _ => rfl
  | fuel + 1, o, y => by
    unfold sendFace
    split
    · rfl
    · dsimp only; rw [sendFace_mem e x fuel, sendWeave_mem]

@[simp] theorem sendEntry_mem (y : Sys) (p : Nat × Entry) : (sendEntry y p).mem = y.mem := by
  unfold sendEntry; simp

@[simp] theorem weaveOut_listed (c : Cmd) (y : Sys) : listed (weaveOut c y).mem = listed y.mem := by
  unfold weaveOut
  dsimp only
  split
  · simp
  · split
    · next hc => simp [consumeAll_listed hc]
    · rw [foldl_mem sendEntry_mem]; simp

@[simp] theorem setWeave_mem (w : Weave) (y : Sys) : (setWeave w y).mem = y.mem := rfl

@[simp] theorem endWeave_mem (w : Weave) (st : Status) (y : Sys) : (endWeave w st y).mem = y.mem := by
  unfold endWeave; simp

@[simp] theorem tryWeave_mem (w : Weave) (y : Sys) : (tryWeave w y).mem = y.mem := by
  unfold tryWeave
  split
  · dsimp only
    rw [endWeave_mem, sendWeave_mem, onStep_mem, foldl_mem]
    intro z k
    split <;> rfl
  · simp

@[simp] theorem failWeave_mem (w : Weave) (y : Sys) : (failWeave w y).mem = y.mem := by
  unfold failWeave; simp

@[simp] theorem checkEntry_mem (w : Weave) (e : Nat) (y : Sys) : (checkEntry w e y).mem = y.mem := by
  unfold checkEntry; dsimp only; (repeat' split) <;> simp

@[simp] theorem weaveEntry_canonical (w : Weave) (m : WarpMsg) {y : Sys} (h : Canonical (listed y.mem)) :
    Canonical (listed (weaveEntry w m y).mem) := by
  unfold weaveEntry
  split
  · dsimp only; split <;> simp [h]
  · split <;> simp [h]
  · exact h

@[simp] theorem weaveEarly_canonical : ∀ (l : List WarpMsg) {y : Sys}, Canonical (listed y.mem) →
    Canonical (listed (weaveEarly l y).mem)
  | [], _, h => h
  | m :: l, y, h => by
    unfold weaveEarly
    split
    · exact h
    · exact weaveEarly_canonical l (weaveEntry_canonical _ m h)

theorem loadAnnounced_mem : ∀ {l : List WeaveEntry} {y z : Sys}, loadAnnounced l y = some z → z.mem = y.mem
  | [], _, _, h => by cases h; rfl
  | e :: l, y, z, h => by
    unfold loadAnnounced at h
    split at h
    · cases h
    · rw [loadAnnounced_mem h, setEntry_mem]

@[simp] theorem weaveIn_canonical (w : Weave) (m : WarpMsg) {y : Sys} (h : Canonical (listed y.mem)) :
    Canonical (listed (weaveIn w m y).mem) := by
  unfold weaveIn
  split
  · split
    · exact h
    · split
      · exact h
      · next hl => simp [loadAnnounced_mem hl, h]
  · simp [h]
  · split <;> simp [h]

/-! ### Counters -/

@[simp] theorem noteWork_mem (c : Cmd) (y : Sys) : (noteWork c y).mem = y.mem := rfl

@[simp] theorem passCycles_mem (src : Nat × Nat) (y : Sys) : (passCycles src y).mem = y.mem := by
  unfold passCycles; simp

@[simp] theorem sampleNow_mem (sels : List Word64) (y : Sys) : (sampleNow sels y).2.mem = y.mem :=
  foldl_mem (fun z s => passCycles_mem s z) _ y

@[simp] theorem sampleDue_mem (q p tb k : Nat) (y : Sys) : (sampleDue q p tb k y).mem = y.mem := by
  unfold sampleDue; dsimp only; split
  · rfl
  · rw [setCtrSet_mem, sampleNow_mem]

@[simp] theorem padding_mem : ∀ (n : Nat) (y : Sys), (padding n y).2.mem = y.mem
  | 0, _ => rfl
  | n + 1, y => padding_mem n (freshWord y).2

@[simp] theorem sampleBytes_mem (set seq : Nat) (manual : Bool) (pick skipped tb size : Nat) (vals : List Nat) (y : Sys) :
    (sampleBytes set seq manual pick skipped tb size vals y).2.mem = y.mem := padding_mem _ y

/-! ### The general commands -/

@[simp] theorem settleFences_mem (y : Sys) : (settleFences y).mem = y.mem := by unfold settleFences; simp

@[simp] theorem uncover_mem (id : Nat) (y : Sys) : (uncover id y).mem = y.mem := by
  unfold uncover; simp

@[simp] theorem uncoverLanes_mem (lanes : Nat → Bool) (y : Sys) : (uncoverLanes lanes y).mem = y.mem := by
  unfold uncoverLanes; simp

@[simp] theorem coverRead_mem (k id : Nat) (y : Sys) : (coverRead k id y).mem = y.mem := rfl

/-! ### Frames received and sessions -/

@[simp] theorem imageStatus_mem (result : Nat) (y : Sys) : (imageStatus result y).mem = y.mem := by
  unfold imageStatus; dsimp only; split <;> simp

@[simp] theorem endTransfer_mem (result : Nat) (y : Sys) : (endTransfer result y).mem = y.mem := by
  unfold endTransfer; split <;> simp

@[simp] theorem countDrop_mem (k : DropKind) (y : Sys) : (countDrop k y).mem = y.mem := by
  unfold countDrop; split <;> simp

@[simp] theorem takeFrame_mem (f : RxFrame) (y : Sys) : (takeFrame f y).mem = y.mem := by
  unfold takeFrame; simp

theorem onFrame_canonical {types : List Nat} {f : RxFrame} {effect : Sys → Sys} {y : Sys}
    (he : ∀ z, Canonical (listed z.mem) → Canonical (listed (effect z).mem)) (h : Canonical (listed y.mem)) :
    Canonical (listed (onFrame types f effect y).mem) := by
  unfold onFrame
  split
  · split
    · simp [h]
    · exact he _ (by simpa using h)
  · exact h

@[simp] theorem flushHeld_mem (svc : Bool) (y : Sys) : (flushHeld svc y).mem = y.mem := by
  unfold flushHeld; simp

@[simp] theorem discardUnread_mem (svc : Bool) (y : Sys) : (discardUnread svc y).2.mem = y.mem := by
  unfold discardUnread
  dsimp only
  rw [uncoverLanes_mem]
  refine foldl_mem (fun z p => ?_) _ y
  exact setLane_mem ..

@[simp] theorem emptyCreels_mem (svc : Bool) (y : Sys) : (emptyCreels svc y).mem = y.mem := by
  unfold emptyCreels; simp

@[simp] theorem writeLane_mem (creel lane : Nat) (ws : List (BitVec 512 × Bool)) (y : Sys) :
    (writeLane creel lane ws y).mem = y.mem := by
  unfold writeLane; dsimp only; (repeat' split) <;> simp

@[simp] theorem sendAccept_mem (svc : Bool) (p : Port) (y : Sys) : (sendAccept svc p y).mem = y.mem := by
  unfold sendAccept; simp

@[simp] theorem sendReject_mem (f : RxFrame) (reason : Nat) (y : Sys) : (sendReject f reason y).mem = y.mem := by
  unfold sendReject; simp

@[simp] theorem openSession_mem (svc : Bool) (id : Word64) (p : Port) (y : Sys) : (openSession svc id p y).mem = y.mem := by
  unfold openSession; simp

@[simp] theorem forceOut_mem (svc : Bool) (id : Word64) (p : Port) (y : Sys) : (forceOut svc id p y).mem = y.mem := by
  unfold forceOut; dsimp only; split <;> simp

@[simp] theorem openDeferred_mem (f : RxFrame) (ss : Session) (pid : Word64) (y : Sys) :
    (openDeferred f ss pid y).mem = y.mem := by
  unfold openDeferred; dsimp only; (repeat' split) <;> simp

@[simp] theorem openFrame_mem (f : RxFrame) (y : Sys) : (openFrame f y).mem = y.mem := by
  unfold openFrame; dsimp only; (repeat' split) <;> simp

theorem onSessionFrame_canonical {typ : Nat} {f : RxFrame} {effect : Sys → Sys} {y : Sys}
    (he : ∀ z, Canonical (listed z.mem) → Canonical (listed (effect z).mem)) (h : Canonical (listed y.mem)) :
    Canonical (listed (onSessionFrame typ f effect y).mem) := by
  have ht : Canonical (listed (if (sessOf y (onService f)).state = .open ∧ (sessOf y (onService f)).id = sessionId f
      then takeFrame f y else y).mem) := by split <;> simp [h]
  unfold onSessionFrame
  split
  · split
    · simp [h]
    · dsimp only
      split
      · rw [sendReject_mem]; exact ht
      · exact he _ ht
  · exact h

@[simp] theorem disarm_mem (svc : Bool) (y : Sys) : (disarm svc y).mem = y.mem := by
  unfold disarm; split <;> simp

@[simp] theorem sessionEnded_mem (svc : Bool) (reason : Nat) (y : Sys) : (sessionEnded svc reason y).mem = y.mem := by
  unfold sessionEnded; simp

@[simp] theorem runDeferred_mem (svc : Bool) (l : List (Word64 × Port)) (y : Sys) : (runDeferred svc l y).mem = y.mem := by
  unfold runDeferred; dsimp only; split <;> simp

@[simp] theorem tryClose_mem (svc : Bool) (y : Sys) : (tryClose svc y).mem = y.mem := by
  unfold tryClose; dsimp only; (repeat' split) <;> simp

/-! ### Reading, completion and replies -/

@[simp] theorem readHead_mem (creel lane : Nat) (y : Sys) : (readHead creel lane y).mem = y.mem := by
  unfold readHead; dsimp only; split <;> simp

@[simp] theorem traceCompletion_mem (c : Cmd) (st : Status) (s : Stamp) (y : Sys) : (traceCompletion c st s y).mem = y.mem := by
  unfold traceCompletion; split <;> simp

@[simp] theorem censusIn_mem (c : Cmd) (d : CensusDelta) (y : Sys) : (censusIn c d y).mem = y.mem := by
  unfold censusIn; dsimp only; split <;> simp

@[simp] theorem watchIn_mem (step : Nat) (d : WatchDelta) (y : Sys) : (watchIn step d y).mem = y.mem := by
  unfold watchIn; refine foldl_mem (fun z k => ?_) _ y; dsimp only; split <;> rfl

@[simp] theorem keepRecord_mem (c : Cmd) (st : Status) (y : Sys) : (keepRecord c st y).mem = y.mem := by
  unfold keepRecord; dsimp only; (repeat' split) <;> simp

@[simp] theorem stepEffects_mem (c : Cmd) (st : Status) (y : Sys) : (stepEffects c st y).mem = y.mem := by
  unfold stepEffects; (repeat' split) <;> simp

@[simp] theorem contribute_mem (c : Cmd) (st : Status) (y : Sys) : (contribute c st y).mem = y.mem := by
  unfold contribute; rw [keepRecord_mem]; split <;> simp

@[simp] theorem fatalEffects_mem (st : Status) (y : Sys) : (fatalEffects st y).mem = y.mem := by
  unfold fatalEffects; (repeat' split) <;> simp

@[simp] theorem dropCmd_mem (c : Cmd) (s : Stamp) (y : Sys) : (dropCmd c s y).mem = y.mem := rfl

@[simp] theorem complete_mem (c : Cmd) (st : Status) (res : List Word64) (y : Sys) : (complete c st res y).mem = y.mem := by
  unfold complete; simp

/-! ### Registers -/

@[simp] theorem clearRead_listed (b r i : Nat) (y : Sys) : listed (clearRead b r i y).mem = listed y.mem := by
  unfold clearRead; split <;> simp

@[simp] theorem cancelRunahead_mem (d : Nat) (y : Sys) : (cancelRunahead d y).mem = y.mem :=
  foldl_mem (fun z n => dropCopies_mem n _ false z) _ y

@[simp] theorem writeReg_listed (p : Perm) (b r i : Nat) (data mask : Word64) (y : Sys) :
    listed (writeReg p b r i data mask y).mem = listed y.mem := by
  unfold writeReg; dsimp only; (repeat' split) <;> simp

/-! ### Shutdown -/

@[simp] theorem stopSession_mem (svc : Bool) (y : Sys) : (stopSession svc y).mem = y.mem := by
  unfold stopSession; simp

@[simp] theorem stopCommands_listed (y : Sys) : listed (stopCommands y).mem = listed y.mem := abortEngines_listed _ y

@[simp] theorem endOpen_mem (svc : Bool) (y : Sys) : (endOpen svc y).mem = y.mem := by
  unfold endOpen; split <;> simp

@[simp] theorem markClean_mem (h : Nat) (y : Sys) : (markClean h y).mem = y.mem := rfl

@[simp] theorem finishShutdown_mem (y : Sys) : (finishShutdown y).mem = y.mem := by
  unfold finishShutdown; split <;> simp

@[simp] theorem continueShutdown_mem (y : Sys) : (continueShutdown y).mem = y.mem := by
  unfold continueShutdown; split <;> simp

@[simp] theorem shutDown_listed (source : BitVec 2) (y : Sys) : listed (shutDown source y).mem = listed y.mem := by
  unfold shutDown; (repeat' split) <;> simp

@[simp] theorem requestShutdown_listed (c : Cmd) (y : Sys) : listed (requestShutdown c y).mem = listed y.mem := by
  unfold requestShutdown; simp

/-! ### The integrity commands -/

@[simp] theorem writeOut_canonical (c : Cmd) (a : Nat) (bs : List Byte) (res : List Word64) {y : Sys}
    (h : Canonical (listed y.mem)) : Canonical (listed (writeOut c a bs res y).mem) := by
  unfold writeOut; split <;> simp [h]

@[simp] theorem sendData_mem (x : Ckpt) : ∀ (fuel o : Nat) (y : Sys), (sendData x fuel o y).mem = y.mem
  | 0, _, _ => rfl
  | fuel + 1, o, y => by
    unfold sendData
    split
    · rfl
    · dsimp only; rw [sendData_mem x fuel, sendWarp_mem]

@[simp] theorem addCkpt_mem (x : Ckpt) (y : Sys) : (addCkpt x y).mem = y.mem := rfl

@[simp] theorem dropCkpt_mem (id : Nat) (y : Sys) : (dropCkpt id y).mem = y.mem := rfl

@[simp] theorem streamOut_listed (x : Ckpt) (y : Sys) : listed (streamOut x y).mem = listed y.mem := by
  unfold streamOut
  dsimp only
  split
  · next hc => simp [consume_listed hc]
  · simp

@[simp] theorem streamIn_mem (x : Ckpt) (y : Sys) : (streamIn x y).mem = y.mem := by
  unfold streamIn; dsimp only; rw [sendWarp_mem, addCkpt_mem, freshWord_mem]

@[simp] theorem cancelStream_mem (c : Cmd) (port : Nat) (y : Sys) : (cancelStream c port y).mem = y.mem := by
  unfold cancelStream; split <;> simp

@[simp] theorem dropPacket_mem (port : Nat) (y : Sys) : (dropPacket port y).mem = y.mem := rfl

theorem onCkpt_canonical {cflags port : Nat} {m : WarpMsg} {effect : Ckpt → List Byte → Sys → Sys} {y : Sys}
    (he : ∀ x b z, Canonical (listed z.mem) → Canonical (listed (effect x b z).mem)) (h : Canonical (listed y.mem)) :
    Canonical (listed (onCkpt cflags port m effect y).mem) := by
  unfold onCkpt; (repeat' split) <;> simp [h, he]

@[simp] theorem takeData_canonical (x : Ckpt) (b : List Byte) {y : Sys} (h : Canonical (listed y.mem)) :
    Canonical (listed (takeData x b y).mem) := by
  unfold takeData; dsimp only; (repeat' split) <;> simp [h]

@[simp] theorem endTest_mem (d : Nat) (y : Sys) : (endTest d y).mem = y.mem := by
  unfold endTest; dsimp only; split <;> simp

@[simp] theorem reportFail_mem (n : Option Nat) (pos part : Nat) (y : Sys) : (reportFail n pos part y).mem = y.mem := by
  unfold reportFail; dsimp only; (repeat' split) <;> simp

@[simp] theorem moveSlot_mem (n failed : Nat) (spare : Option Nat) (y : Sys) : (moveSlot n failed spare y).mem = y.mem := by
  unfold moveSlot; simp

@[simp] theorem startMend_mem (p : Perm) (n pos : Nat) (y : Sys) : (startMend p n pos y).mem = y.mem := by
  unfold startMend; split <;> simp

@[simp] theorem failCmd_mem (y : Sys) (c : Cmd) : (failCmd y c).mem = y.mem := by
  unfold failCmd; split <;> simp

/-! ### Firmware and security -/

@[simp] theorem sendReport_mem (tag : Nat) (rep cert : List Byte) (y : Sys) : (sendReport tag rep cert y).mem = y.mem := by
  unfold sendReport; split <;> simp

@[simp] theorem idleFuse_mem (y : Sys) : (idleFuse y).mem = y.mem := rfl

@[simp] theorem armFuse_mem (c : Cmd) (y : Sys) : (armFuse c y).mem = y.mem := by
  unfold armFuse; dsimp only; rw [finish_mem, freshWord_mem]

@[simp] theorem blowFuse_mem (c : Cmd) (p : Perm) (y : Sys) : (blowFuse c p y).2.mem = y.mem := by
  unfold blowFuse; dsimp only; rw [finish_mem]; split <;> simp

@[simp] theorem clearMeas_mem (h : Nat) (y : Sys) : (clearMeas h y).mem = y.mem := rfl

@[simp] theorem beginReset_mem (c : Cmd) (standby : Bool) (die : Nat) (y : Sys) : (beginReset c standby die y).mem = y.mem := by
  unfold beginReset; split <;> simp

@[simp] theorem dropReset_mem (r : UnitReset) (y : Sys) : (dropReset r y).mem = y.mem := rfl

@[simp] theorem fallbackRecords_mem (y : Sys) (r : UnitReset) : (fallbackRecords y r).mem = y.mem := by
  unfold fallbackRecords; dsimp only; (repeat' split) <;> simp

@[simp] theorem recordCount_mem (t : Nat) (y : Sys) : (recordCount t y).2.mem = y.mem := by
  unfold recordCount; (repeat' split) <;> rfl

@[simp] theorem migrateOne_mem (t : Nat) (y : Sys) : (migrateOne t y).mem = y.mem := by
  unfold migrateOne; dsimp only; rw [recordEvent_mem, recordCount_mem]

@[simp] theorem migrate_mem (y : Sys) : (migrate y).mem = y.mem := foldl_mem (fun z t => migrateOne_mem t z) _ y

@[simp] theorem freeDigest_mem (y : Sys) : (freeDigest y).2.mem = y.mem := rfl

@[simp] theorem measureBoot_mem (p : Perm) (h : Nat) (migrated : Bool) (y : Sys) :
    (measureBoot p h migrated y).mem = y.mem := by
  unfold measureBoot
  dsimp only
  rw [foldl_mem fun z t => measureImage_mem h t t _ z, extendMeas_mem]
  split <;> simp

@[simp] theorem fellBackAt_mem (h t : Nat) (y : Sys) : (fellBackAt h t y).mem = y.mem := rfl

theorem bootRom_mem {bad : List Nat} {h : Nat} {y z : Sys} (hb : bootRom bad h y = some z) : z.mem = y.mem := by
  unfold bootRom at hb
  dsimp only at hb
  repeat' split at hb
  all_goals cases hb
  all_goals simp

theorem standbyBoots_mem {bad : List Nat} {x q : Perm × Sys} (hb : standbyBoots bad x = some q) : q.2.mem = x.2.mem := by
  unfold standbyBoots at hb
  dsimp only at hb
  split at hb
  · split at hb
    · cases hb; rfl
    · cases hb
  · obtain ⟨z, hz, rfl⟩ := Option.map_eq_some_iff.mp hb
    have hm := bootRom_mem hz
    split
    · rw [activateUnit_mem]; exact hm
    · rw [settleType_mem]; exact hm

@[simp] theorem standbyUp_mem (x : Perm × Sys) : (standbyUp x).2.mem = x.2.mem := by
  unfold standbyUp; simp

@[simp] theorem takeoverNotice_mem (y : Sys) : (takeoverNotice y).mem = y.mem := by
  unfold takeoverNotice; simp

@[simp] theorem handOver_mem (id : Nat) (y : Sys) : (handOver id y).mem = y.mem := by
  unfold handOver; simp

@[simp] theorem tryHandOver_mem (y : Sys) : (tryHandOver y).mem = y.mem := by
  unfold tryHandOver; (repeat' split) <;> simp

@[simp] theorem faultHeadstock_mem (h : Nat) (y : Sys) : (faultHeadstock h y).mem = y.mem := by
  unfold faultHeadstock; dsimp only; (repeat' split) <;> simp

@[simp] theorem undoCommand_mem (c : Cmd) (y : Sys) : (undoCommand c y).mem = y.mem := by
  unfold undoCommand; dsimp only; (repeat' split) <;> simp

@[simp] theorem settleDevice_mem (y : Sys) : (settleDevice y).mem = y.mem := by
  unfold settleDevice
  refine foldl_mem (fun z c => ?_) _ y
  dsimp only
  split
  · rw [undoCommand_mem, freshWord_mem]
  · rfl

@[simp] theorem loseAdvances_mem (y : Sys) : (loseAdvances y).mem = y.mem := rfl

@[simp] theorem resendAll_mem (svc : Bool) (y : Sys) : (resendAll svc y).mem = y.mem := by
  unfold resendAll; dsimp only; split <;> simp

/-! ### Picks -/

@[simp] theorem applyAdvance_mem (a : Advance) (rest : List Advance) (y : Sys) : (applyAdvance a rest y).mem = y.mem := by
  have hs (l : List Nat) (z : Sys) (q : Nat) : (l.foldl (fun z k => sampleDue q a.target a.apply k z) z).mem = z.mem := by simp
  unfold applyAdvance
  dsimp only
  rw [traceRec_mem]
  generalize (if y.trd.state = .open ∧ y.hs.silent = false then _ else _) = echoes
  split
  · rw [expireLocks_mem, hs]; rfl
  · rw [hs]; rfl

@[simp] theorem nextAdvance_mem (y : Sys) : (nextAdvance y).mem = y.mem := by
  unfold nextAdvance; (repeat' split) <;> simp

@[simp] theorem dueAdvances_mem (y : Sys) : (dueAdvances y).mem = y.mem := foldl_mem (fun z _ => nextAdvance_mem z) _ y

/-! ### Observation -/

@[simp] theorem startSet_mem (k : Nat) (x : CtrSet) (y : Sys) : (startSet k x y).mem = y.mem := rfl

@[simp] theorem takeRead_mem (r : CtrRead) (y : Sys) : (takeRead r y).2.mem = y.mem := by
  unfold takeRead; split <;> simp

@[simp] theorem writeRead_canonical (r : CtrRead) {y : Sys} (h : Canonical (listed y.mem)) :
    Canonical (listed (writeRead r y).mem) := by
  unfold writeRead; (repeat' split) <;> simp [h]

@[simp] theorem serveReads_canonical {y : Sys} (h : Canonical (listed y.mem)) : Canonical (listed (serveReads y).mem) := by
  unfold serveReads; exact foldl_canonical (fun z r hz => writeRead_canonical _ (by simpa using hz)) _ h

@[simp] theorem writeRecord_canonical (a : Nat) (rec : List Byte) {y : Sys} (h : Canonical (listed y.mem)) :
    Canonical (listed (writeRecord a rec y).mem) := writeBytes_canonical none _ _ h

@[simp] theorem drainOne_canonical (u : Nat) {y : Sys} (h : Canonical (listed y.mem)) :
    Canonical (listed (drainOne u y).mem) := by
  unfold drainOne; dsimp only; (repeat' split) <;> simp [h]

@[simp] theorem drainMany_canonical :
    ∀ (n u : Nat) {y : Sys}, Canonical (listed y.mem) → Canonical (listed (drainMany n u y).mem)
  | 0, _, _, h => h
  | n + 1, u, _, h => drainMany_canonical n u (drainOne_canonical u h)

@[simp] theorem drainAll_canonical {y : Sys} (h : Canonical (listed y.mem)) : Canonical (listed (drainAll y).mem) := by
  unfold drainAll; exact foldl_canonical (fun z u hz => drainMany_canonical _ u hz) _ h

@[simp] theorem tryStop_mem (y : Sys) : (tryStop y).mem = y.mem := by
  unfold tryStop; (repeat' split) <;> simp

@[simp] theorem armSlot_mem (k : Nat) (w : WatchSlot) (y : Sys) : (armSlot k w y).mem = y.mem := rfl

/-! ### Heat and power -/

@[simp] theorem thermNotice_mem (die arg : Nat) (y : Sys) : (thermNotice die arg y).mem = y.mem := by
  unfold thermNotice; split <;> simp

@[simp] theorem causeTemp_mem (r : ThermReading) (cause : Nat) (y : Sys) : (causeTemp r cause y).2.mem = y.mem := by
  unfold causeTemp; (repeat' split) <;> rfl

@[simp] theorem stretchNotices_mem (d : Nat) (r : ThermReading) (old new : Nat) (y : Sys) :
    (stretchNotices d r old new y).mem = y.mem := by
  unfold stretchNotices
  split
  · simp
  · split
    · dsimp only; rw [thermNotice_mem, freshWord_mem]
    · rfl

@[simp] theorem tripCmd_mem (y : Sys) (c : Cmd) : (tripCmd y c).mem = y.mem := by
  unfold tripCmd; split <;> simp

@[simp] theorem stopClocks_listed (die : Nat) (ids : List Nat) (y : Sys) :
    listed (stopClocks die ids y).mem = listed y.mem := by
  unfold stopClocks
  split
  · simp
  · split
    · rw [foldl_listed fun z w => downPort_listed w z]
    · rfl

@[simp] theorem tripDie_listed (die cause temp stretch : Nat) (y : Sys) :
    listed (tripDie die cause temp stretch y).mem = listed y.mem := by
  unfold tripDie
  dsimp only
  rw [thermNotice_mem, stopClocks_listed, foldl_mem tripCmd_mem]

@[simp] theorem sampleLoom_listed (d : Nat) (r : ThermReading) (y : Sys) : listed (sampleLoom d r y).mem = listed y.mem := by
  unfold sampleLoom; split <;> simp

@[simp] theorem sampleOther_listed (d : Nat) (r : ThermReading) (y : Sys) : listed (sampleOther d r y).mem = listed y.mem := by
  unfold sampleOther; (repeat' split) <;> simp

@[simp] theorem smbAnswer_mem (bytes : Sys → List Byte) (y : Sys) : (smbAnswer bytes y).mem = y.mem := by
  unfold smbAnswer; split <;> rfl

@[simp] theorem readFile_mem (a : Nat) (y : Sys) : (readFile a y).2.mem = y.mem := by
  unfold readFile; dsimp only; split <;> rfl

/-! ### The clock -/

@[simp] theorem tickSys_canonical {y : Sys} (h : Canonical (listed y.mem)) : Canonical (listed (tickSys y).mem) := by
  unfold tickSys; split <;> simp [h]

/-! ### Reset and boot -/

/-- A reset leaves memory that lists nothing. -/
@[simp] theorem afterReset_canonical (vaux : Bool) (y : Sys) : Canonical (listed (afterReset vaux y).mem) := canonical_empty

@[simp] theorem stageZero_mem (r : HeadTest) (h : Nat) (y : Sys) : (stageZero r h y).2.mem = y.mem := by
  unfold stageZero
  split
  · next hb =>
    split at hb
    · exact bootRom_mem hb
    · cases hb
  · rfl

@[simp] theorem failAtBoot_mem (pos : Nat) (x : Perm × Sys) : (failAtBoot pos x).2.mem = x.2.mem := by
  unfold failAtBoot; dsimp only; split
  · rfl
  · rw [reportFail_mem, freshWord_mem]

@[simp] theorem mendAtBoot_mem (p : Perm) (y : Sys) (n : Nat) : (mendAtBoot p y n).mem = y.mem := by
  unfold mendAtBoot; (repeat' split) <;> simp

@[simp] theorem bootRecords_mem (y : Sys) : (bootRecords y).mem = y.mem := by
  unfold bootRecords
  dsimp only
  rw [recordEvent_mem, foldl_mem]
  intro z h
  split <;> simp

@[simp] theorem endBoot_mem (y : Sys) : (endBoot y).mem = y.mem := rfl

/-- Boot stage 1 zeroes memory (R656). -/
@[simp] theorem stageOne_canonical (failing bad : List Nat) (x : Perm × Sys) :
    Canonical (listed (stageOne failing bad x).2.mem) := by
  unfold stageOne
  dsimp only
  rw [endBoot_mem, bootRecords_mem, foldl_mem fun z p => mendAtBoot_mem _ z p,
    foldl_keeps (fun x : Perm × Sys => x.2.mem) _ fun x pos => failAtBoot_mem pos x]
  exact canonical_empty

/-! ### Bucket events -/

theorem onBucket_canonical {tag : Nat} {test : Bucket → Bool} {f : Bucket → Route → Sys → Sys} {y : Sys}
    (hf : ∀ b r z, Canonical (listed z.mem) → Canonical (listed (f b r z).mem)) (h : Canonical (listed y.mem)) :
    Canonical (listed (onBucket tag test f y).mem) := by
  unfold onBucket; dsimp only; (repeat' split) <;> simp [h, hf]

@[simp] theorem shadowDone_mem (b : Bucket) (r : Route) (y : Sys) : (shadowDone b r y).mem = y.mem := by
  unfold shadowDone; simp

@[simp] theorem bucketMsg_canonical (port : Nat) (m : WarpMsg) (kind : Route → BucketHdr → Bool) {y : Sys}
    (h : Canonical (listed y.mem)) : Canonical (listed (bucketMsg port m kind y).mem) := by
  unfold bucketMsg; dsimp only; (repeat' split) <;> simp [h]

@[simp] theorem takeHeld_canonical : ∀ (l : List HeldPartial) {y : Sys}, Canonical (listed y.mem) →
    Canonical (listed (takeHeld l y).mem)
  | [], _, h => h
  | p :: l, _, h => takeHeld_canonical l (arrive_canonical p.port p.pick p.hdr p.payload h)

@[simp] theorem useCopy_canonical (b : Bucket) (r : Route) (hd : BucketHdr) (payload : List Byte) {y : Sys}
    (h : Canonical (listed y.mem)) : Canonical (listed (useCopy b r hd payload y).mem) := by
  unfold useCopy; dsimp only; (repeat' split) <;> simp [h]

/-! ### Registers and locks -/

@[simp] theorem writeEffect_listed (p : Perm) (c : Cmd) (y : Sys) : listed (writeEffect p c y).mem = listed y.mem := by
  unfold writeEffect
  dsimp only
  split
  · rfl
  · split
    · simp
    · rw [finish_mem, foldl_listed fun z i => writeReg_listed p _ _ i _ _ z]

theorem afterExpiries_canonical {op : Nat} {pk : Packet} {f : Sys → Sys} {y : Sys}
    (hf : ∀ z, Canonical (listed z.mem) → Canonical (listed (f z).mem)) (h : Canonical (listed y.mem)) :
    Canonical (listed (afterExpiries op pk f y).mem) := by
  unfold afterExpiries; split
  · exact hf _ (by simpa using h)
  · exact h

@[simp] theorem writeCommand_canonical (p : Perm) (pk : Packet) {y : Sys} (h : Canonical (listed y.mem)) :
    Canonical (listed (writeCommand p pk y).mem) := by
  have hw : ∀ z : Sys, Canonical (listed z.mem) → Canonical (listed (execCommand 0x0701
      [bits (regBits ++ [(63, 1), (62, 1), (56, 6)]), allBits, allBits] (fun _ => false) always (writeCheck p) (writeEffect p) pk z).mem) :=
    fun z hz => execCommand_canonical (fun c z hz => by simpa using hz) hz
  unfold writeCommand
  dsimp only
  split
  · exact afterExpiries_canonical hw h
  · exact hw y h

@[simp] theorem writeOf_canonical (b r : Nat) (pk : Packet) (p : Perm) {y : Sys} (h : Canonical (listed y.mem)) :
    Canonical (listed (writeOf b r pk p y).mem) := by
  unfold writeOf; split <;> simp [h]

/-! ### Image transfer -/

@[simp] theorem refuseHeader_mem (h : List Byte) (r : Nat) (y : Sys) : (refuseHeader h r y).mem = y.mem := by
  unfold refuseHeader; simp

@[simp] theorem beginTransfer_mem (h : List Byte) (y : Sys) : (beginTransfer h y).mem = y.mem := by
  unfold beginTransfer; simp

@[simp] theorem stageImage_mem (y : Sys) : (stageImage y).mem = y.mem := by
  unfold stageImage; simp

end Sys2Proof.Laws
end

section
/-! PROOF (O50). Every command keeps memory in canonical form, and so does every step. -/

namespace Sys2Proof.Laws

open Sys2Proof Sys2Proof.Machine Sys2Proof.Safety

/-! ### Outcomes -/

/-- The next state of an outcome, where there is one, has memory in canonical form where s has. -/
def KeepsMemory (s : State) (o : Host.Outcome State Fault Refusal) : Prop :=
  Canonical (listed s.sys.mem) → ∀ t, o = .next t → Canonical (listed t.sys.mem)

theorem keepsMemory_onSys {s : State} {f : Perm → Sys → Sys}
    (hf : ∀ p y, Canonical (listed y.mem) → Canonical (listed (f p y).mem)) : KeepsMemory s (onSys s f) := by
  intro h t ht
  rw [onSys_next] at ht
  subst ht
  exact hf s.perm s.sys h

theorem keepsMemory_onAll {s : State} {f : Perm → Sys → Perm × Sys}
    (hf : ∀ p y, Canonical (listed y.mem) → Canonical (listed (f p y).2.mem)) : KeepsMemory s (onAll s f) := by
  intro h t ht
  rw [onAll_next] at ht
  subst ht
  exact hf s.perm s.sys h

theorem keepsMemory_fault {s : State} {r : Fault} : KeepsMemory s (.fault r) := fun _ _ ht => nomatch ht

theorem keepsMemory_refused {s : State} {r : Refusal} : KeepsMemory s (.refused r) := fun _ _ ht => nomatch ht

/-- A command packet keeps memory canonical where its effect does. -/
theorem keepsMemory_command {s : State} {op : Nat} {layout : List Nat} {bad : Packet → Bool}
    {ready : Perm → Cmd → Sys → Bool} {check : Perm → Cmd → Sys → Option (Status × List Word64)}
    {effect : Perm → Cmd → Sys → Sys} {pk : Packet}
    (he : ∀ p c y, Canonical (listed y.mem) → Canonical (listed (effect p c y).mem)) :
    KeepsMemory s (onSys s (fun p y => execCommand op layout bad (ready p) (check p) (effect p) pk y)) :=
  keepsMemory_onSys fun p _ h => execCommand_canonical (he p) h

/-- An instruction of a thread keeps memory canonical where its result's state does. -/
theorem keepsMemory_vecRow {s : State} {n h op : Nat} {f : VCtx → Sys → VRes}
    (hf : ∀ k y, Canonical (listed y.mem) → Canonical (listed (resultState (f k y)).mem)) :
    KeepsMemory s (onSys s (fun _ y => vecRow n h op f y)) :=
  keepsMemory_onSys fun _ _ h => vecRow_canonical hf h

/-- An instruction of a microprogram keeps memory canonical where its effect does. -/
theorem keepsMemory_microRow {s : State} {die op : Nat} {f : Nat → UpdOp → Word32 → MicroRun → Sys → Sys}
    (hf : ∀ id o w r y, Canonical (listed y.mem) → Canonical (listed (f id o w r y).mem)) :
    KeepsMemory s (onSys s (fun _ y => microRow die op f y)) :=
  keepsMemory_onSys fun _ _ h => microRow_canonical hf h

/-- A frame keeps memory canonical where its effect does. -/
theorem keepsMemory_frame {s : State} {types : List Nat} {f : RxFrame} {effect : Perm → Sys → Sys}
    (he : ∀ p y, Canonical (listed y.mem) → Canonical (listed (effect p y).mem)) :
    KeepsMemory s (onSys s (fun p y => onFrame types f (effect p) y)) :=
  keepsMemory_onSys fun p _ h => onFrame_canonical (he p) h

/-- An instruction that works on registers alone keeps memory canonical. -/
theorem keepsMemory_sameState {s : State} {n h op : Nat} {f : VCtx → Sys → VRes}
    (hf : ∀ k y, (resultState (f k y)).mem = y.mem) : KeepsMemory s (onSys s (fun _ y => vecRow n h op f y)) :=
  keepsMemory_vecRow fun k y hy => by rwa [hf k y]

/-- An answer over the sideband keeps memory canonical. -/
theorem keepsMemory_smb (bytes : Sys → List Byte) (s : State) : KeepsMemory s (onSys s (fun _ y => smbAnswer bytes y)) :=
  keepsMemory_onSys fun _ y h => by rwa [smbAnswer_mem]

/-! ### The memory commands -/

theorem execMemCopy_keeps (pk : Packet) (s : State) : KeepsMemory s (execMemCopy pk s) := by
  unfold execMemCopy
  refine keepsMemory_command fun p c y h => ?_
  dsimp only
  split <;> simp [h]

theorem execMemFill_keeps (pk : Packet) (s : State) : KeepsMemory s (execMemFill pk s) := by
  unfold execMemFill
  refine keepsMemory_command fun p c y h => ?_
  split <;> simp [h]

theorem execYarnLoad_keeps (pk : Packet) (s : State) : KeepsMemory s (execYarnLoad pk s) := by
  unfold execYarnLoad
  refine keepsMemory_onSys fun p y h => ?_
  rw [trimCopies_mem]
  exact execCommand_canonical (fun c z hz => by simpa using hz) h

theorem execYarnStore_keeps (pk : Packet) (s : State) : KeepsMemory s (execYarnStore pk s) := by
  unfold execYarnStore
  refine keepsMemory_command fun p c y h => ?_
  dsimp only
  split
  · simp [h]
  · split
    · next hc => simp [consumeAll_listed hc, h]
    · simp [h]

theorem execMemRetrain_keeps (pk : Packet) (s : State) : KeepsMemory s (execMemRetrain pk s) := by
  unfold execMemRetrain
  exact keepsMemory_command fun p c y h => h

/-! ### The update -/

theorem execUpdRun_keeps (pk : Packet) (s : State) : KeepsMemory s (execUpdRun pk s) := by
  unfold execUpdRun
  exact keepsMemory_command fun p c y h => by simp [h]

theorem execUpdMicroLoad_keeps (pk : Packet) (s : State) : KeepsMemory s (execUpdMicroLoad pk s) := by
  unfold execUpdMicroLoad
  refine keepsMemory_command fun p c y h => ?_
  dsimp only
  split
  · next hc => simp [consume_listed hc, h]
  · simp [h]

theorem execMicroEnd_keeps (die : Nat) (s : State) : KeepsMemory s (execMicroEnd die s) := by
  unfold execMicroEnd
  refine keepsMemory_microRow fun _ _ _ _ y h => ?_
  dsimp only
  (repeat' split) <;> simp [h]

/-! ### The other bobbin commands -/

theorem execBobConvert_keeps (pk : Packet) (s : State) : KeepsMemory s (execBobConvert pk s) := by
  unfold execBobConvert
  refine keepsMemory_command fun p c y h => ?_
  dsimp only
  split
  · simp [h]
  · split
    · next hc => simp [consumeAll_listed hc, h]
    · simp [h]

theorem execBobGather_keeps (pk : Packet) (s : State) : KeepsMemory s (execBobGather pk s) := by
  unfold execBobGather
  refine keepsMemory_command fun p c y h => ?_
  have hcopy (l : List (Nat × Nat)) (w : Sys) {z : Sys} (hz : Canonical (listed z.mem)) :=
    foldl_canonical (f := fun z (p : Nat × Nat) => writeBytes (some c.id) ((rowOf pk).dense + p.1 * (rowOf pk).densePitch)
      (readBytes w ((rowOf pk).table + p.2 * (rowOf pk).tablePitch) (rowOf pk).len) z)
      (fun z p hz => writeBytes_canonical _ _ _ hz) l hz
  dsimp only
  split
  · simp [h]
  · split
    · next hc => simp [consume_listed hc, h]
    · split
      · next hc => simp [consumeAll_listed hc, h]
      · split
        · rw [finish_mem]; exact hcopy _ _ h
        · rw [finish_mem]; exact hcopy _ _ (by simpa using h)

theorem execBobScatterAdd_keeps (pk : Packet) (s : State) : KeepsMemory s (execBobScatterAdd pk s) := by
  unfold execBobScatterAdd
  refine keepsMemory_command fun p c y h => ?_
  have hadd (l : List (Nat × Nat)) {z : Sys} (hz : Canonical (listed z.mem)) :=
    foldl_canonical (f := fun z (p : Nat × Nat) => addRow c.id ((rowOf pk).table + p.2 * (rowOf pk).tablePitch)
      (denseRow y (rowOf pk) p.1) z) (fun z p hz => addRow_canonical _ _ _ hz) l hz
  dsimp only
  split
  · simp [h]
  · split
    · next hc => simp [consume_listed hc, h]
    · split
      · next hc => simp [consumeAll_listed hc, h]
      · split
        · rw [finish_mem]; exact hadd _ h
        · rw [finish_mem]; exact hadd _ (by simpa using h)

theorem execStateSet_keeps (pk : Packet) (s : State) : KeepsMemory s (execStateSet pk s) := by
  unfold execStateSet
  refine keepsMemory_command fun p c y h => ?_
  dsimp only
  (repeat' split) <;> simp [h]

theorem execStateRead_keeps (pk : Packet) (s : State) : KeepsMemory s (execStateRead pk s) := by
  unfold execStateRead
  exact keepsMemory_command fun p c y h => by simp [h]

theorem execCensusClear_keeps (pk : Packet) (s : State) : KeepsMemory s (execCensusClear pk s) := by
  unfold execCensusClear
  exact keepsMemory_command fun p c y h => by simp [h]

theorem execCensusRead_keeps (pk : Packet) (s : State) : KeepsMemory s (execCensusRead pk s) := by
  unfold execCensusRead
  refine keepsMemory_command fun p c y h => ?_
  dsimp only
  split <;> simp [h]

/-! ### Routes and bucket commands -/

theorem execWarpFwdSet_keeps (pk : Packet) (s : State) : KeepsMemory s (execWarpFwdSet pk s) := by
  unfold execWarpFwdSet
  refine keepsMemory_command fun p c y h => ?_
  dsimp only
  split
  · next hc => simp [consume_listed hc, h]
  · simp [h]

theorem execRouteSet_keeps (pk : Packet) (s : State) : KeepsMemory s (execRouteSet pk s) := by
  unfold execRouteSet
  refine keepsMemory_command fun p c y h => ?_
  dsimp only
  split <;> simp [h]

theorem execBktReduce_keeps (pk : Packet) (s : State) : KeepsMemory s (execBktReduce pk s) := by
  unfold execBktReduce
  refine keepsMemory_command fun p c y h => ?_
  dsimp only
  (repeat' split) <;> simp [h]

theorem execBktGather_keeps (pk : Packet) (s : State) : KeepsMemory s (execBktGather pk s) := by
  unfold execBktGather
  exact keepsMemory_command fun p c y h => by simp [h]

theorem execBktDigestRead_keeps (pk : Packet) (s : State) : KeepsMemory s (execBktDigestRead pk s) := by
  unfold execBktDigestRead
  exact keepsMemory_command fun p c y h => by simp [h]

/-! ### Accumulation commands -/

theorem execAccBegin_keeps (pk : Packet) (s : State) : KeepsMemory s (execAccBegin pk s) := by
  unfold execAccBegin
  refine keepsMemory_command fun p c y h => ?_
  dsimp only
  split
  · next hc => simp [consumeAll_listed hc, h]
  · simp [h]

theorem execAccMatmul_keeps (pk : Packet) (s : State) : KeepsMemory s (execAccMatmul pk s) := by
  unfold execAccMatmul
  refine keepsMemory_command fun p c y h => ?_
  split
  · next hc => simp [consumeAll_listed hc, h]
  · simp [h]

theorem execAccReadout_keeps (pk : Packet) (s : State) : KeepsMemory s (execAccReadout pk s) := by
  unfold execAccReadout
  exact keepsMemory_command fun p c y h => by simp [h]

theorem execAccExportWide_keeps (pk : Packet) (s : State) : KeepsMemory s (execAccExportWide pk s) := by
  unfold execAccExportWide
  exact keepsMemory_command fun p c y h => by simp [h]

theorem execAccDiscard_keeps (pk : Packet) (s : State) : KeepsMemory s (execAccDiscard pk s) := by
  unfold execAccDiscard
  refine keepsMemory_onSys fun p y h => ?_
  have hrun := execCommand_canonical (op := 0x0205) (layout := discardLayout) (bad := fun _ => false)
    (ready := fun c y => c.behind == none && !mending y (tileName pk).1)
    (check := discardCheck (tileName pk).1 (tileName pk).2.1 (tileName pk).2.2) (pk := pk)
    (effect := fun c y => startEnding c (tileName pk).1 (tileName pk).2.1 (tileName pk).2.2 y)
    (fun c z hz => by simpa using hz) h
  split
  · next z c e ha he =>
    split
    · rw [modCmd_mem, atUnit_cm ha]; exact h
    · exact hrun
  · exact hrun

theorem execAccImportWide_keeps (pk : Packet) (s : State) : KeepsMemory s (execAccImportWide pk s) := by
  unfold execAccImportWide
  refine keepsMemory_command fun p c y h => ?_
  dsimp only
  split
  · next hc => simp [consumeAll_listed hc, h]
  · simp [h]

theorem execEndingStart_keeps (n t : Nat) (r : FileRead) (s : State) : KeepsMemory s (execEndingStart n t r s) := by
  refine keepsMemory_onSys fun p y h => ?_
  dsimp only
  generalize (if (tileAt y n t).guarded = true then r.tile else 0) = u
  split
  · split
    · exact h
    · split
      · exact h
      · split
        · simp [h]
        · split
          · simp [h]
          · split
            · simp [h]
            · rw [unview_mem]
              split
              · exact endGuarded_canonical _ _ _ _ h
              · exact endExact_canonical _ _ _ h
  · exact h

/-! ### DRAM, run-ahead and the yarn engines -/

theorem execDramRead_keeps (granule source wrong : Nat) (s : State) : KeepsMemory s (execDramRead granule source wrong s) := by
  unfold execDramRead
  dsimp only
  split
  · exact keepsMemory_fault
  · refine keepsMemory_onSys fun p y h => ?_
    split <;> simp [h]

theorem execDramWrite_keeps (granule : Nat) (mask : BitVec 64) (data : BitVec 512) (s : State) :
    KeepsMemory s (execDramWrite granule mask data s) := by
  unfold execDramWrite
  dsimp only
  split
  · exact keepsMemory_fault
  · refine keepsMemory_onSys fun p y h => ?_
    split <;> simp [h]

theorem execKill_keeps (n granule : Nat) (s : State) : KeepsMemory s (execKill n granule s) := by
  refine keepsMemory_onSys fun p y h => ?_
  dsimp only
  split
  · rw [dropCopies_mem]; exact h
  · exact h

theorem execWriteComplete_keeps (granule : Nat) (s : State) : KeepsMemory s (execWriteComplete granule s) := by
  refine keepsMemory_onSys fun p y h => ?_
  (repeat' split) <;> exact h

theorem execRunaheadRead_keeps (n : Nat) (wrong : List Nat) (s : State) : KeepsMemory s (execRunaheadRead n wrong s) := by
  refine keepsMemory_onSys fun p y h => ?_
  split
  · exact h
  · split
    · exact h
    · exact foldl_canonical (fun z g hz => fetchAhead_canonical n g hz) _ (by simpa using h)

theorem execGranuleConsume_keeps (u : Consumption) (s : State) : KeepsMemory s (execGranuleConsume u s) := by
  unfold execGranuleConsume
  refine keepsMemory_onSys fun p y h => ?_
  split
  · exact h
  · split
    · exact h
    · split
      · exact h
      · rw [unview_mem, upsetStore_listed]; exact consumeUnit_canonical _ _ _ h

theorem execSlotFree_keeps (e h : Nat) (s : State) : KeepsMemory s (execSlotFree e h s) := by
  unfold execSlotFree
  refine keepsMemory_onSys fun p y hy => ?_
  dsimp only
  (repeat' split) <;> simp [hy]

theorem execScrubRead_keeps (stack wrong : Nat) (s : State) : KeepsMemory s (execScrubRead stack wrong s) := by
  unfold execScrubRead
  refine keepsMemory_onSys fun p y h => ?_
  dsimp only
  split <;> simp [h]

theorem execArbitrationRound_keeps (a : Nat) (arrivals : List Arrival) (withdrawn : Bool) (s : State) :
    KeepsMemory s (execArbitrationRound a arrivals withdrawn s) := by
  unfold execArbitrationRound
  refine keepsMemory_onSys fun p y h => ?_
  dsimp only
  split <;> simp [h]

theorem execPreemption_keeps (a : Nat) (r : Arrival) (doneBeats : Nat) (s : State) :
    KeepsMemory s (execPreemption a r doneBeats s) := by
  unfold execPreemption
  refine keepsMemory_onSys fun p y h => ?_
  dsimp only
  (repeat' split) <;> simp [h]

/-! ### Vector programs -/

theorem execThreadSwitch_keeps (e h granule : Nat) (s : State) : KeepsMemory s (execThreadSwitch e h granule s) := by
  unfold execThreadSwitch
  refine keepsMemory_onSys fun p y hy => ?_
  dsimp only
  split <;> simp [hy]

theorem execVscatter_keeps (n h : Nat) (s : State) : KeepsMemory s (execVscatter n h s) := by
  refine keepsMemory_vecRow fun k y hy => ?_
  split
  · exact hy
  · split
    · exact hy
    · exact foldl_canonical (fun z l hz => putElem_canonical _ _ _ _ hz) _ hy

theorem execVscatadd_keeps (n h : Nat) (s : State) : KeepsMemory s (execVscatadd n h s) := by
  refine keepsMemory_vecRow fun k y hy => ?_
  dsimp only
  split
  · exact hy
  · split
    · next hc => rw [resultState, consumeAll_listed hc]; exact hy
    · exact foldl_canonical (fun z l hz => putElem_canonical _ _ _ _ hz) _ hy

theorem execVcmp_keeps (n h : Nat) (s : State) : KeepsMemory s (execVcmp n h s) := by
  refine keepsMemory_vecRow fun k y hy => ?_
  (repeat' split) <;> exact hy

theorem execVsel_keeps (n h : Nat) (s : State) : KeepsMemory s (execVsel n h s) := by
  refine keepsMemory_vecRow fun k y hy => ?_
  (repeat' split) <;> exact hy

theorem execVcvt_keeps (n h : Nat) (s : State) : KeepsMemory s (execVcvt n h s) := by
  refine keepsMemory_vecRow fun k y hy => ?_
  (repeat' split) <;> exact hy

theorem execVredsum_keeps (n h : Nat) (s : State) : KeepsMemory s (execVredsum n h s) := by
  refine keepsMemory_vecRow fun k y hy => ?_
  split <;> exact hy

theorem execVwld_keeps (n h : Nat) (s : State) : KeepsMemory s (execVwld n h s) := by
  refine keepsMemory_vecRow fun k y hy => ?_
  dsimp only
  split
  · exact hy
  · split
    · next hc => rw [resultState, consume_listed hc]; exact hy
    · (repeat' split) <;> exact hy

theorem execVwadd_keeps (n h : Nat) (s : State) : KeepsMemory s (execVwadd n h s) := by
  refine keepsMemory_vecRow fun k y hy => ?_
  dsimp only
  split <;> exact hy

theorem execVwst_keeps (n h : Nat) (s : State) : KeepsMemory s (execVwst n h s) := by
  refine keepsMemory_vecRow fun k y hy => ?_
  dsimp only
  split
  · exact hy
  · exact foldl_canonical (fun z g hz => writeBytes_canonical _ _ _ hz) _ hy

theorem execBnz_keeps (n h : Nat) (s : State) : KeepsMemory s (execBnz n h s) := by
  refine keepsMemory_vecRow fun k y hy => ?_
  split <;> exact hy

theorem execVBarrierRelease_keeps (n : Nat) (s : State) : KeepsMemory s (execVBarrierRelease n s) := by
  unfold execVBarrierRelease
  refine keepsMemory_onSys fun p y h => ?_
  dsimp only
  split <;> simp [h]

/-! ### The vector commands and reductions -/

theorem execVecLoad_keeps (pk : Packet) (s : State) : KeepsMemory s (execVecLoad pk s) := by
  unfold execVecLoad
  refine keepsMemory_command fun p c y h => ?_
  dsimp only
  split
  · next hc => simp [consume_listed hc, h]
  · simp [h]

theorem execVecRun_keeps (pk : Packet) (s : State) : KeepsMemory s (execVecRun pk s) := by
  unfold execVecRun
  exact keepsMemory_command fun p c y h => by simp [h]

theorem execRedTopk_keeps (pk : Packet) (s : State) : KeepsMemory s (execRedTopk pk s) := by
  unfold execRedTopk
  refine keepsMemory_onSys fun p y h => execCommand_canonical (fun c z hz => ?_) h
  dsimp only
  generalize List.flatMap _ _ = writes
  split
  · simp [hz]
  · generalize redRanges _ ++ _ = ranges
    split
    · next hc => simp [consumeAll_listed hc, hz]
    · rw [finish_mem]; exact writeAll_canonical _ _ hz

theorem execRedMaxmin_keeps (pk : Packet) (s : State) : KeepsMemory s (execRedMaxmin pk s) := by
  unfold execRedMaxmin
  refine keepsMemory_command fun p c y h => ?_
  dsimp only
  split
  · simp [h]
  · split
    · next hc => simp [consumeAll_listed hc, h]
    · simp [h]

theorem execRedCensus_keeps (pk : Packet) (s : State) : KeepsMemory s (execRedCensus pk s) := by
  unfold execRedCensus
  refine keepsMemory_command fun p c y h => ?_
  dsimp only
  split
  · next hc => simp [consumeAll_listed hc, h]
  · simp [h]

/-! ### Link events -/

theorem execIdentityFrame_keeps (port : Nat) (m : WarpMsg) (s : State) : KeepsMemory s (execIdentityFrame port m s) := by
  unfold execIdentityFrame
  refine keepsMemory_onSys fun p y h => ?_
  dsimp only
  (repeat' split) <;> simp [h]

theorem execPortTraining_keeps (l : PortLanes) (s : State) : KeepsMemory s (execPortTraining l s) := by
  unfold execPortTraining
  refine keepsMemory_onSys fun p y h => ?_
  dsimp only
  (repeat' split) <;> simp [h]

theorem execPortUp_keeps (port : Nat) (m : WarpMsg) (s : State) : KeepsMemory s (execPortUp port m s) := by
  unfold execPortUp
  refine keepsMemory_onSys fun p y h => ?_
  dsimp only
  (repeat' split) <;> simp [h]

theorem execPortFault_keeps (port : Nat) (c : FaultCause) (s : State) : KeepsMemory s (execPortFault port c s) := by
  unfold execPortFault
  refine keepsMemory_onSys fun p y h => ?_
  dsimp only
  (repeat' split) <;> simp [h]

theorem execPortDown_keeps (port : Nat) (s : State) : KeepsMemory s (execPortDown port s) := by
  unfold execPortDown
  refine keepsMemory_onSys fun p y h => ?_
  dsimp only
  split <;> simp [h]

theorem execLaneEqualization_keeps (port : Nat) (s : State) : KeepsMemory s (execLaneEqualization port s) := by
  unfold execLaneEqualization
  refine keepsMemory_onSys fun p y h => ?_
  dsimp only
  split <;> simp [h]

theorem execLinkPacket_keeps (port : Nat) (e : LinkEvent) (s : State) : KeepsMemory s (execLinkPacket port e s) := by
  unfold execLinkPacket
  refine keepsMemory_onSys fun p y h => ?_
  split <;> simp [h]

theorem execLinkReset_keeps (pk : Packet) (s : State) : KeepsMemory s (execLinkReset pk s) := by
  unfold execLinkReset
  refine keepsMemory_onAll fun p y h => ?_
  generalize hm : meetUnit 0x0430 _ _ _ _ pk y = q
  have hq : q.1.mem = y.mem := by rw [← hm, meetUnit_mem]
  obtain ⟨z, _ | c⟩ := q
  · exact hq.symm ▸ h
  · rw [activateUnit_mem]
    dsimp only
    rw [foldl_listed fun z w => by rw [onPort_mem, downPort_listed], hq]
    exact h

theorem execLinkResetTimeout_keeps (s : State) : KeepsMemory s (execLinkResetTimeout s) := by
  unfold execLinkResetTimeout
  refine keepsMemory_onSys fun p y h => ?_
  (repeat' split) <;> simp [h]

theorem execWarpForward_keeps (port : Nat) (m : WarpMsg) (s : State) : KeepsMemory s (execWarpForward port m s) := by
  unfold execWarpForward
  refine keepsMemory_onSys fun p y h => ?_
  (repeat' split) <;> simp [h]

theorem execRemoteWrite_keeps (port : Nat) (m : WarpMsg) (s : State) : KeepsMemory s (execRemoteWrite port m s) := by
  unfold execRemoteWrite
  refine keepsMemory_onSys fun p y h => ?_
  dsimp only
  (repeat' split) <;> simp [h]

theorem execWritesCompleteReport_keeps (port : Nat) (m : WarpMsg) (s : State) :
    KeepsMemory s (execWritesCompleteReport port m s) := by
  unfold execWritesCompleteReport
  refine keepsMemory_onSys fun p y h => ?_
  (repeat' split) <;> simp [h]

/-! ### The step and twin commands -/

theorem execStepBegin_keeps (pk : Packet) (s : State) : KeepsMemory s (execStepBegin pk s) := by
  unfold execStepBegin
  exact keepsMemory_command fun p c y h => by simp [h]

theorem execStepPrepare_keeps (pk : Packet) (s : State) : KeepsMemory s (execStepPrepare pk s) := by
  unfold execStepPrepare
  exact keepsMemory_command fun p c y h => by simp [h]

theorem execPrepareDigest_keeps (s : State) : KeepsMemory s (execPrepareDigest s) := by
  unfold execPrepareDigest
  refine keepsMemory_onSys fun p y h => ?_
  (repeat' split) <;> simp [h]

theorem execPrepareMessage_keeps (port : Nat) (m : WarpMsg) (s : State) : KeepsMemory s (execPrepareMessage port m s) := by
  unfold execPrepareMessage
  refine keepsMemory_onSys fun p y h => ?_
  dsimp only
  (repeat' split) <;> simp [h]

theorem execStepCommit_keeps (pk : Packet) (s : State) : KeepsMemory s (execStepCommit pk s) := by
  unfold execStepCommit
  exact keepsMemory_command fun p c y h => by simp [h]

theorem execCommitStart_keeps (s : State) : KeepsMemory s (execCommitStart s) := by
  unfold execCommitStart
  refine keepsMemory_onSys fun p y h => ?_
  split <;> simp [h]

theorem execStepUndo_keeps (pk : Packet) (s : State) : KeepsMemory s (execStepUndo pk s) := by
  unfold execStepUndo
  exact keepsMemory_command fun p c y h => by simp [h]

theorem execStepAbort_keeps (pk : Packet) (s : State) : KeepsMemory s (execStepAbort pk s) := by
  unfold execStepAbort
  exact keepsMemory_command fun p c y h => by simp [h]

theorem execTwinSet_keeps (pk : Packet) (s : State) : KeepsMemory s (execTwinSet pk s) := by
  unfold execTwinSet
  exact keepsMemory_command fun p c y h => by simp [h]

theorem execShadowBegin_keeps (pk : Packet) (s : State) : KeepsMemory s (execShadowBegin pk s) := by
  unfold execShadowBegin
  exact keepsMemory_command fun p c y h => by simp [h]

theorem execShadowEnd_keeps (pk : Packet) (s : State) : KeepsMemory s (execShadowEnd pk s) := by
  unfold execShadowEnd
  exact keepsMemory_command fun p c y h => by simp [h]

theorem execWeaveSend_keeps (pk : Packet) (s : State) : KeepsMemory s (execWeaveSend pk s) := by
  unfold execWeaveSend
  exact keepsMemory_command fun p c y h => by simp [h]

theorem execWeaveRecv_keeps (pk : Packet) (s : State) : KeepsMemory s (execWeaveRecv pk s) := by
  unfold execWeaveRecv
  refine keepsMemory_command fun p c y h => ?_
  dsimp only
  split <;> simp [h]

theorem execWeavePacket_keeps (port : Nat) (m : WarpMsg) (s : State) : KeepsMemory s (execWeavePacket port m s) := by
  unfold execWeavePacket
  refine keepsMemory_onSys fun p y h => ?_
  (repeat' split) <;> simp [h]

/-! ### The general commands -/

theorem execNop_keeps (pk : Packet) (s : State) : KeepsMemory s (execNop pk s) := by
  unfold execNop
  exact keepsMemory_command fun p c y h => by simp [h]

theorem execFence_keeps (pk : Packet) (s : State) : KeepsMemory s (execFence pk s) := by
  unfold execFence
  exact keepsMemory_command fun p c y h => by simp [h]

theorem execPickSet_keeps (pk : Packet) (s : State) : KeepsMemory s (execPickSet pk s) := by
  unfold execPickSet
  exact keepsMemory_command fun p c y h => by simp [h]

theorem execTimeRead_keeps (pk : Packet) (s : State) : KeepsMemory s (execTimeRead pk s) := by
  unfold execTimeRead
  exact keepsMemory_command fun p c y h => by simp [h]

/-! ### Frames received and sessions -/

theorem execDroppedFrame_keeps (f : RxFrame) (s : State) : KeepsMemory s (execDroppedFrame f s) := by
  unfold execDroppedFrame
  refine keepsMemory_onSys fun p y h => ?_
  (repeat' split) <;> simp [h]

theorem execKeepalive_keeps (f : RxFrame) (s : State) : KeepsMemory s (execKeepalive f s) := by
  unfold execKeepalive
  exact keepsMemory_frame fun p y h => by simp [h]

theorem execKeepaliveSend_keeps (k : KeepaliveTurn) (s : State) : KeepsMemory s (execKeepaliveSend k s) := by
  unfold execKeepaliveSend
  refine keepsMemory_onSys fun p y h => ?_
  split <;> simp [h]

theorem execFrameResend_keeps (svc : Bool) (seq : Nat) (s : State) : KeepsMemory s (execFrameResend svc seq s) := by
  unfold execFrameResend
  refine keepsMemory_onSys fun p y h => ?_
  dsimp only
  (repeat' split) <;> simp [h]

theorem execReplyFlush_keeps (svc : Bool) (s : State) : KeepsMemory s (execReplyFlush svc s) := by
  unfold execReplyFlush
  refine keepsMemory_onSys fun p y h => ?_
  dsimp only
  split <;> simp [h]

theorem execCreelWrite_keeps (f : RxFrame) (s : State) : KeepsMemory s (execCreelWrite f s) := by
  unfold execCreelWrite
  refine keepsMemory_frame fun p y h => ?_
  dsimp only
  split <;> simp [h]

theorem execCreelStatus_keeps (s : State) : KeepsMemory s (execCreelStatus s) := by
  unfold execCreelStatus
  refine keepsMemory_onSys fun p y h => ?_
  dsimp only
  (repeat' split) <;> simp [h]

theorem execSessionForceEnd_keeps (svc : Bool) (s : State) : KeepsMemory s (execSessionForceEnd svc s) := by
  unfold execSessionForceEnd
  refine keepsMemory_onSys fun p y h => ?_
  dsimp only
  (repeat' split) <;> simp [h]

theorem execSessionClose_keeps (f : RxFrame) (s : State) : KeepsMemory s (execSessionClose f s) := by
  refine keepsMemory_onSys fun _ _ h => onSessionFrame_canonical (fun z hz => ?_) h
  dsimp only
  (repeat' split) <;> simp [hz]

theorem execSessionResume_keeps (f : RxFrame) (s : State) : KeepsMemory s (execSessionResume f s) := by
  refine keepsMemory_onSys fun _ _ h => onSessionFrame_canonical (fun z hz => ?_) h
  dsimp only
  (repeat' split) <;> simp [hz]

theorem execSessionLapse_keeps (svc : Bool) (s : State) : KeepsMemory s (execSessionLapse svc s) := by
  unfold execSessionLapse
  refine keepsMemory_onSys fun p y h => ?_
  dsimp only
  (repeat' split) <;> simp [h]

/-! ### Reading, completion and replies -/

theorem execPacketRead_keeps (s : State) : KeepsMemory s (execPacketRead s) := by
  unfold execPacketRead
  refine keepsMemory_onSys fun p y h => ?_
  split <;> simp [h]

theorem execStall_keeps (creel lane : Nat) (s : State) : KeepsMemory s (execStall creel lane s) := by
  unfold execStall
  refine keepsMemory_onSys fun p y h => ?_
  dsimp only
  split <;> simp [h]

theorem execCommandCompletion_keeps (creel lane : Nat) (s : State) : KeepsMemory s (execCommandCompletion creel lane s) := by
  unfold execCommandCompletion
  refine keepsMemory_onSys fun p y h => ?_
  (repeat' split) <;> simp [h]

/-! ### Shutdown -/

theorem execShdnReqN_keeps (ns : Nat) (s : State) : KeepsMemory s (execShdnReqN ns s) := by
  unfold execShdnReqN
  refine keepsMemory_onSys fun p y h => ?_
  split <;> simp [h]

/-! ### The integrity commands -/

theorem execBurlerSet_keeps (pk : Packet) (s : State) : KeepsMemory s (execBurlerSet pk s) := by
  unfold execBurlerSet
  exact keepsMemory_command fun p c y h => by simp [h]

theorem execMendRead_keeps (pk : Packet) (s : State) : KeepsMemory s (execMendRead pk s) := by
  unfold execMendRead
  exact keepsMemory_command fun p c y h => by simp [h]

theorem execSteplogRead_keeps (pk : Packet) (s : State) : KeepsMemory s (execSteplogRead pk s) := by
  unfold execSteplogRead
  exact keepsMemory_command fun p c y h => by simp [h]

theorem execCkptStream_keeps (pk : Packet) (s : State) : KeepsMemory s (execCkptStream pk s) := by
  unfold execCkptStream
  refine keepsMemory_command fun p c y h => ?_
  dsimp only
  split <;> simp [h]

theorem execCkptEnd_keeps (port : Nat) (m : WarpMsg) (s : State) : KeepsMemory s (execCkptEnd port m s) :=
  keepsMemory_onSys fun _ _ h => onCkpt_canonical (fun x b z hz => by simpa using hz) h

theorem execBurlerSlice_keeps (die : Nat) (wantsTile : Bool) (s : State) : KeepsMemory s (execBurlerSlice die wantsTile s) := by
  unfold execBurlerSlice
  refine keepsMemory_onSys fun p y h => ?_
  dsimp only
  (repeat' split) <;> simp [h]

theorem execBurlerTestDone_keeps (die part : Nat) (digest expected : Word64) (s : State) :
    KeepsMemory s (execBurlerTestDone die part digest expected s) := by
  unfold execBurlerTestDone
  refine keepsMemory_onAll fun p y h => ?_
  dsimp only
  (repeat' split) <;> simp [h]

theorem execMendDone_keeps (die : Nat) (pass : Bool) (s : State) : KeepsMemory s (execMendDone die pass s) := by
  unfold execMendDone
  refine keepsMemory_onAll fun p y h => ?_
  dsimp only
  (repeat' split) <;> simp [h]

theorem execUnitFailure_keeps (cls inst : Nat) (s : State) : KeepsMemory s (execUnitFailure cls inst s) := by
  unfold execUnitFailure
  refine keepsMemory_onSys fun p y h => ?_
  dsimp only
  split <;> simp [h]

/-! ### Firmware and security -/

theorem execFwQuery_keeps (pk : Packet) (s : State) : KeepsMemory s (execFwQuery pk s) := by
  unfold execFwQuery
  exact keepsMemory_command fun p c y h => by simp [h]

theorem execAttest_keeps (pk : Packet) (s : State) : KeepsMemory s (execAttest pk s) := by
  unfold execAttest
  refine keepsMemory_command fun p c y h => ?_
  dsimp only
  split <;> simp [h]

theorem execMeasureRead_keeps (pk : Packet) (s : State) : KeepsMemory s (execMeasureRead pk s) := by
  unfold execMeasureRead
  exact keepsMemory_command fun p c y h => by simp [h]

theorem execFuseDebugOff_keeps (pk : Packet) (s : State) : KeepsMemory s (execFuseDebugOff pk s) := by
  unfold execFuseDebugOff
  refine keepsMemory_onAll fun p y h => ?_
  dsimp only
  generalize hm : meetUnit 0x0830 _ _ _ _ pk y = q
  have hq : q.1.mem = y.mem := by rw [← hm, meetUnit_mem]
  obtain ⟨z, _ | c⟩ := q
  · exact hq.symm ▸ h
  · dsimp only at hq ⊢
    rw [← hq] at h
    (repeat' split) <;> simp [h]

theorem execUnitReset_keeps (pk : Packet) (s : State) : KeepsMemory s (execUnitReset pk s) := by
  unfold execUnitReset
  exact keepsMemory_command fun p c y h => by simp [h]

theorem execUnitReportsReady_keeps (standby : Bool) (die : Nat) (s : State) :
    KeepsMemory s (execUnitReportsReady standby die s) := by
  unfold execUnitReportsReady
  refine keepsMemory_onAll fun p y h => ?_
  dsimp only
  (repeat' split) <;> simp [h]

theorem execReadyTimeExpiry_keeps (standby : Bool) (die : Nat) (s : State) :
    KeepsMemory s (execReadyTimeExpiry standby die s) := by
  unfold execReadyTimeExpiry
  refine keepsMemory_onSys fun p y h => ?_
  dsimp only
  (repeat' split) <;> simp [h]

theorem execStandbyReady_keeps (bad : List Nat) (s : State) : KeepsMemory s (execStandbyReady bad s) := by
  refine keepsMemory_onAll fun p y h => ?_
  split
  · split
    · split
      · next hb => rw [standbyUp_mem, standbyBoots_mem hb]; exact h
      · exact h
    · rw [standbyUp_mem]; exact h
  · exact h

theorem execHsHandover_keeps (pk : Packet) (s : State) : KeepsMemory s (execHsHandover pk s) := by
  unfold execHsHandover
  exact keepsMemory_command fun p c y h => by simp [h]

theorem execHsFault_keeps (h : Nat) (s : State) : KeepsMemory s (execHsFault h s) := by
  unfold execHsFault
  refine keepsMemory_onSys fun p y hy => ?_
  dsimp only
  (repeat' split) <;> simp [hy]

theorem execTakeover_keeps (s : State) : KeepsMemory s (execTakeover s) := by
  unfold execTakeover
  refine keepsMemory_onSys fun p y h => ?_
  dsimp only
  split <;> simp [h]

theorem execMemRetrainDone_keeps (ok : Bool) (pause : Nat) (s : State) : KeepsMemory s (execMemRetrainDone ok pause s) := by
  refine keepsMemory_onAll fun p y h => ?_
  split
  · exact h
  · split
    · exact h
    · dsimp only
      rw [finish_mem]
      split
      · rw [activateUnit_mem, recordEvent_mem]; exact h
      · rw [recordEvent_mem]; exact h

/-! ### Picks -/

theorem execPick_keeps (f : RxFrame) (s : State) : KeepsMemory s (execPick f s) := by
  unfold execPick
  refine keepsMemory_frame fun p y h => ?_
  (repeat' split) <;> simp [h]

theorem execPickInEdge_keeps (s : State) : KeepsMemory s (execPickInEdge s) := by
  unfold execPickInEdge
  refine keepsMemory_onSys fun p y h => ?_
  dsimp only
  (repeat' split) <;> simp [h]

theorem execPickEcho_keeps (s : State) : KeepsMemory s (execPickEcho s) := by
  unfold execPickEcho
  refine keepsMemory_onSys fun p y h => ?_
  dsimp only
  (repeat' split) <;> simp [h]

theorem execLockExpired_keeps (k : Nat) (s : State) : KeepsMemory s (execLockExpired k s) := by
  unfold execLockExpired
  refine keepsMemory_onSys fun p y h => ?_
  split <;> simp [h]

/-! ### Observation -/

theorem execCtrConfig_keeps (pk : Packet) (s : State) : KeepsMemory s (execCtrConfig pk s) := by
  unfold execCtrConfig
  refine keepsMemory_command fun p c y h => ?_
  dsimp only
  split
  · simp [h]
  · split
    · next hc => simp [consume_listed hc, h]
    · simp [h]

theorem execCtrRead_keeps (pk : Packet) (s : State) : KeepsMemory s (execCtrRead pk s) := by
  unfold execCtrRead
  exact keepsMemory_command fun p c y h => by simp [h]

theorem execCtrSample_keeps (set : Nat) (s : State) : KeepsMemory s (execCtrSample set s) := by
  unfold execCtrSample
  refine keepsMemory_onSys fun p y h => ?_
  dsimp only
  (repeat' split) <;> simp [h]

theorem execTraceConfig_keeps (pk : Packet) (s : State) : KeepsMemory s (execTraceConfig pk s) := by
  unfold execTraceConfig
  refine keepsMemory_command fun p c y h => ?_
  dsimp only
  split
  · split
    · simp [h]
    · rw [tryStop_mem]; exact drainAll_canonical (by simpa using h)
  · simp [h]

theorem execTraceTrigger_keeps (pk : Packet) (s : State) : KeepsMemory s (execTraceTrigger pk s) := by
  unfold execTraceTrigger
  exact keepsMemory_command fun p c y h => by simp [h]

theorem execTraceDrain_keeps (u : Nat) (s : State) : KeepsMemory s (execTraceDrain u s) := by
  unfold execTraceDrain
  refine keepsMemory_onSys fun p y h => ?_
  dsimp only
  split <;> simp [h]

theorem execTraceGap_keeps (u : Nat) (s : State) : KeepsMemory s (execTraceGap u s) := by
  unfold execTraceGap
  refine keepsMemory_onSys fun p y h => ?_
  split <;> simp [h]

theorem execTraceWindowEnd_keeps (s : State) : KeepsMemory s (execTraceWindowEnd s) := by
  unfold execTraceWindowEnd
  refine keepsMemory_onSys fun p y h => ?_
  dsimp only
  split <;> simp [h]

theorem execWatchSet_keeps (pk : Packet) (s : State) : KeepsMemory s (execWatchSet pk s) := by
  unfold execWatchSet
  refine keepsMemory_command fun p c y h => ?_
  dsimp only
  split <;> simp [h]

theorem execEvlogRead_keeps (pk : Packet) (s : State) : KeepsMemory s (execEvlogRead pk s) := by
  unfold execEvlogRead
  exact keepsMemory_command fun p c y h => by simp [h]

theorem execLifeRead_keeps (pk : Packet) (s : State) : KeepsMemory s (execLifeRead pk s) := by
  unfold execLifeRead
  exact keepsMemory_command fun p c y h => by simp [h]

/-! ### Heat and power -/

theorem execThermalSample_keeps (die : Nat) (r : ThermReading) (s : State) : KeepsMemory s (execThermalSample die r s) := by
  unfold execThermalSample
  refine keepsMemory_onSys fun p y h => ?_
  dsimp only
  (repeat' split) <;> simp [h]

theorem execLifeSample_keeps (vcore : List Nat) (s : State) : KeepsMemory s (execLifeSample vcore s) := by
  unfold execLifeSample
  refine keepsMemory_onSys fun p y h => ?_
  dsimp only
  split <;> simp [h]

theorem execHoursTick_keeps (s : State) : KeepsMemory s (execHoursTick s) := by
  unfold execHoursTick
  refine keepsMemory_onSys fun p y h => ?_
  dsimp only
  split <;> simp [h]

theorem execSmbAlertResponse_keeps (s : State) : KeepsMemory s (execSmbAlertResponse s) := by
  unfold execSmbAlertResponse
  refine keepsMemory_onSys fun p y h => ?_
  dsimp only
  split <;> simp [h]

theorem execTestAccessPort_keeps (i : TapInstr) (s : State) : KeepsMemory s (execTestAccessPort i s) := by
  unfold execTestAccessPort
  dsimp only
  split
  · exact keepsMemory_onSys fun _ _ h => h
  · split
    · exact keepsMemory_onSys fun _ _ h => h
    · refine keepsMemory_onSys fun p y h => ?_
      split <;> simp [h]
    · exact keepsMemory_refused

/-! ### Reset and boot -/

theorem execPerstNAssert_keeps (ns : Nat) (s : State) : KeepsMemory s (execPerstNAssert ns s) := by
  unfold execPerstNAssert
  refine keepsMemory_onSys fun p y h => ?_
  dsimp only
  (repeat' split) <;> simp [h]

theorem execVauxRise_keeps (s : State) : KeepsMemory s (execVauxRise s) := by
  unfold execVauxRise
  refine keepsMemory_onSys fun p y h => ?_
  dsimp only
  split <;> simp [h]

theorem execPerstNRelease_keeps (hs0 hs1 : HeadTest) (s : State) : KeepsMemory s (execPerstNRelease hs0 hs1 s) := by
  unfold execPerstNRelease
  refine keepsMemory_onSys fun p y h => ?_
  dsimp only
  split <;> simp [h]

theorem execBootStage1_keeps (failing badA badB : List Nat) (s : State) :
    KeepsMemory s (execBootStage1 failing badA badB s) := by
  unfold execBootStage1
  refine keepsMemory_onAll fun p y h => ?_
  split <;> simp [h]

/-! ### Bucket events -/

theorem execBucketConversionDone_keeps (tag : Nat) (s : State) : KeepsMemory s (execBucketConversionDone tag s) := by
  refine keepsMemory_onSys fun _ _ h => onBucket_canonical (fun b r z hz => ?_) h
  split
  · next hc => exact convertBucket_inl hz hc
  · next hc =>
    have hw := convertBucket_inr hz hc
    split <;> simpa using hw

theorem execHeldPartialRelease_keeps (tag : Nat) (s : State) : KeepsMemory s (execHeldPartialRelease tag s) := by
  unfold execHeldPartialRelease
  refine keepsMemory_onSys fun p y h => ?_
  dsimp only
  (repeat' split) <;> simp [h]

theorem execShardFinal_keeps (tag : Nat) (s : State) : KeepsMemory s (execShardFinal tag s) := by
  refine keepsMemory_onSys fun _ _ h => onBucket_canonical (fun b r z hz => ?_) h
  split
  · dsimp only
    generalize hw : (if (shardStatus b).isSome = true then bucketTrace b 2 r.selfPos (bucketPort r) z else z) = w
    have hm : w.mem = z.mem := by rw [← hw]; split <;> simp
    rw [← hm] at hz
    split <;> simp [hz]
  · exact hz

theorem execBucketResend_keeps (tag : Nat) (s : State) : KeepsMemory s (execBucketResend tag s) := by
  refine keepsMemory_onSys fun _ _ h => onBucket_canonical (fun b r z hz => ?_) h
  split
  · dsimp only
    generalize hw : putBucket _ (bucketTrace _ _ _ _ _) = w
    have hm : w.mem = z.mem := by rw [← hw]; simp
    rw [← hm] at hz
    split
    · next hc => exact convertBucket_inl hz hc
    · next hc => rw [startSending_listed]; exact convertBucket_inr hz hc
  · exact hz

theorem execTwinCopyRequest_keeps (port : Nat) (m : WarpMsg) (s : State) : KeepsMemory s (execTwinCopyRequest port m s) := by
  unfold execTwinCopyRequest
  refine keepsMemory_onSys fun p y h => ?_
  (repeat' split) <;> simp [h]

theorem execTwinCopyAnswer_keeps (port : Nat) (m : WarpMsg) (s : State) : KeepsMemory s (execTwinCopyAnswer port m s) := by
  refine keepsMemory_onSys fun _ y h => ?_
  split
  · dsimp only
    split
    · split
      · exact h
      · split
        · exact h
        · split
          · exact bucketsMoved_canonical (by rwa [putBucket_mem])
          · split
            · exact bucketsMoved_canonical (useCopy_canonical _ _ _ _ h)
            · exact h
    · exact h
  · exact h

/-! ### Registers and locks -/

theorem execRegRead_keeps (pk : Packet) (s : State) : KeepsMemory s (execRegRead pk s) := by
  unfold execRegRead
  exact keepsMemory_command fun p c y h => by simp [h]

theorem execLockAcquire_keeps (pk : Packet) (s : State) : KeepsMemory s (execLockAcquire pk s) := by
  unfold execLockAcquire
  exact keepsMemory_onSys fun _ _ h => afterExpiries_canonical
    (fun _ hz => execCommand_canonical (fun _ _ hw => by simpa using hw) hz) h

theorem execLockRenew_keeps (pk : Packet) (s : State) : KeepsMemory s (execLockRenew pk s) := by
  unfold execLockRenew
  exact keepsMemory_onSys fun _ _ h => afterExpiries_canonical
    (fun _ hz => execCommand_canonical (fun _ _ hw => by simpa using hw) hz) h

theorem execLockRelease_keeps (pk : Packet) (s : State) : KeepsMemory s (execLockRelease pk s) := by
  unfold execLockRelease
  exact keepsMemory_onSys fun _ _ h => afterExpiries_canonical
    (fun _ hz => execCommand_canonical (fun _ _ hw => by simpa using hw) hz) h

/-! ### Image transfer -/

theorem execImageBegin_keeps (f : RxFrame) (s : State) : KeepsMemory s (execImageBegin f s) := by
  unfold execImageBegin
  refine keepsMemory_frame fun p y h => ?_
  split <;> simp [h]

theorem execImageData_keeps (m : ImageFrame) (s : State) : KeepsMemory s (execImageData m s) := by
  unfold execImageData
  refine keepsMemory_frame fun p y h => ?_
  dsimp only
  (repeat' split) <;> simp [h]

theorem execImageEnd_keeps (m : ImageFrame) (s : State) : KeepsMemory s (execImageEnd m s) := by
  unfold execImageEnd
  refine keepsMemory_frame fun p y h => ?_
  (repeat' split) <;> simp [h]

theorem execImageAbort_keeps (f : RxFrame) (s : State) : KeepsMemory s (execImageAbort f s) := by
  unfold execImageAbort
  exact keepsMemory_frame fun p y h => by simp [h]

/-! ### Every step -/

/-- No command takes memory out of canonical form. -/
theorem exec_keeps (i : Instr) (s : State) : KeepsMemory s (exec i s) := by
  cases i with
  | nop pk => exact execNop_keeps pk _
  | fence pk => exact execFence_keeps pk _
  | pickSet pk => exact execPickSet_keeps pk _
  | timeRead pk => exact execTimeRead_keeps pk _
  | memCopy pk => exact execMemCopy_keeps pk _
  | memFill pk => exact execMemFill_keeps pk _
  | yarnLoad pk => exact execYarnLoad_keeps pk _
  | yarnStore pk => exact execYarnStore_keeps pk _
  | memRetrain pk => exact execMemRetrain_keeps pk _
  | accBegin pk => exact execAccBegin_keeps pk _
  | accMatmul pk => exact execAccMatmul_keeps pk _
  | accReadout pk => exact execAccReadout_keeps pk _
  | accExportWide pk => exact execAccExportWide_keeps pk _
  | accImportWide pk => exact execAccImportWide_keeps pk _
  | accDiscard pk => exact execAccDiscard_keeps pk _
  | vecLoad pk => exact execVecLoad_keeps pk _
  | vecRun pk => exact execVecRun_keeps pk _
  | redTopk pk => exact execRedTopk_keeps pk _
  | redMaxmin pk => exact execRedMaxmin_keeps pk _
  | redCensus pk => exact execRedCensus_keeps pk _
  | warpFwdSet pk => exact execWarpFwdSet_keeps pk _
  | routeSet pk => exact execRouteSet_keeps pk _
  | bktReduce pk => exact execBktReduce_keeps pk _
  | bktGather pk => exact execBktGather_keeps pk _
  | bktDigestRead pk => exact execBktDigestRead_keeps pk _
  | linkReset pk => exact execLinkReset_keeps pk _
  | updRun pk => exact execUpdRun_keeps pk _
  | updMicroLoad pk => exact execUpdMicroLoad_keeps pk _
  | bobConvert pk => exact execBobConvert_keeps pk _
  | bobGather pk => exact execBobGather_keeps pk _
  | bobScatterAdd pk => exact execBobScatterAdd_keeps pk _
  | stateSet pk => exact execStateSet_keeps pk _
  | stateRead pk => exact execStateRead_keeps pk _
  | censusClear pk => exact execCensusClear_keeps pk _
  | censusRead pk => exact execCensusRead_keeps pk _
  | stepBegin pk => exact execStepBegin_keeps pk _
  | stepPrepare pk => exact execStepPrepare_keeps pk _
  | stepCommit pk => exact execStepCommit_keeps pk _
  | stepAbort pk => exact execStepAbort_keeps pk _
  | stepUndo pk => exact execStepUndo_keeps pk _
  | twinSet pk => exact execTwinSet_keeps pk _
  | shadowBegin pk => exact execShadowBegin_keeps pk _
  | shadowEnd pk => exact execShadowEnd_keeps pk _
  | weaveSend pk => exact execWeaveSend_keeps pk _
  | weaveRecv pk => exact execWeaveRecv_keeps pk _
  | regRead pk => exact execRegRead_keeps pk _
  | regWrite pk => exact keepsMemory_onSys fun p _ h => writeCommand_canonical p pk h
  | lockAcquire pk => exact execLockAcquire_keeps pk _
  | lockRenew pk => exact execLockRenew_keeps pk _
  | lockRelease pk => exact execLockRelease_keeps pk _
  | fwQuery pk => exact execFwQuery_keeps pk _
  | unitReset pk => exact execUnitReset_keeps pk _
  | hsHandover pk => exact execHsHandover_keeps pk _
  | attest pk => exact execAttest_keeps pk _
  | measureRead pk => exact execMeasureRead_keeps pk _
  | fuseDebugOff pk => exact execFuseDebugOff_keeps pk _
  | ctrConfig pk => exact execCtrConfig_keeps pk _
  | ctrRead pk => exact execCtrRead_keeps pk _
  | traceConfig pk => exact execTraceConfig_keeps pk _
  | traceTrigger pk => exact execTraceTrigger_keeps pk _
  | watchSet pk => exact execWatchSet_keeps pk _
  | evlogRead pk => exact execEvlogRead_keeps pk _
  | lifeRead pk => exact execLifeRead_keeps pk _
  | burlerSet pk => exact execBurlerSet_keeps pk _
  | mendRead pk => exact execMendRead_keeps pk _
  | steplogRead pk => exact execSteplogRead_keeps pk _
  | ckptStream pk => exact execCkptStream_keeps pk _
  | shutdownRequest pk => exact keepsMemory_onSys fun p _ h => writeOf_canonical _ _ pk p h
  | collSelfWrite pk => exact keepsMemory_onSys fun p _ h => writeOf_canonical _ _ pk p h
  | runaheadDisable pk => exact keepsMemory_onSys fun p _ h => writeOf_canonical _ _ pk p h
  | creelModeSet pk => exact keepsMemory_onSys fun p _ h => writeOf_canonical _ _ pk p h
  | traceRpWrite pk => exact keepsMemory_onSys fun p _ h => writeOf_canonical _ _ pk p h
  | vld n h => exact keepsMemory_vecRow fun k y hy => by rwa [loadLanes_listed]
  | vst n h => exact keepsMemory_vecRow fun k _ hy => storeLanes_canonical k _ hy
  | vgather n h => exact keepsMemory_vecRow fun k y hy => by rwa [loadLanes_listed]
  | vscatter n h => exact execVscatter_keeps n h _
  | vscatadd n h => exact execVscatadd_keeps n h _
  | vadd n h => exact keepsMemory_sameState fun k y => laneOp_mem k _ y
  | vsub n h => exact keepsMemory_sameState fun k y => laneOp_mem k _ y
  | vmul n h => exact keepsMemory_sameState fun k y => laneOp_mem k _ y
  | vfma n h => exact keepsMemory_sameState fun k y => floatOp_mem k _ y
  | vdiv n h => exact keepsMemory_sameState fun k y => floatOp_mem k _ y
  | vsqrt n h => exact keepsMemory_sameState fun k y => floatOp_mem k _ y
  | vmin n h => exact keepsMemory_sameState fun k y => laneOp_mem k _ y
  | vmax n h => exact keepsMemory_sameState fun k y => laneOp_mem k _ y
  | vand n h => exact keepsMemory_sameState fun k y => laneOp_mem k _ y
  | vor n h => exact keepsMemory_sameState fun k y => laneOp_mem k _ y
  | vxor n h => exact keepsMemory_sameState fun k y => laneOp_mem k _ y
  | vshl n h => exact keepsMemory_sameState fun k y => laneOp_mem k _ y
  | vshr n h => exact keepsMemory_sameState fun k y => laneOp_mem k _ y
  | vcmp n h => exact execVcmp_keeps n h _
  | vsel n h => exact execVsel_keeps n h _
  | vcvt n h => exact execVcvt_keeps n h _
  | vredsum n h => exact execVredsum_keeps n h _
  | vredmax n h => exact keepsMemory_sameState fun k y => redExtreme_mem true k y
  | vredmin n h => exact keepsMemory_sameState fun k y => redExtreme_mem false k y
  | vwld n h => exact execVwld_keeps n h _
  | vwadd n h => exact execVwadd_keeps n h _
  | vwst n h => exact execVwst_keeps n h _
  | sadd n h => exact keepsMemory_sameState fun _ _ => rfl
  | smovi n h => exact keepsMemory_sameState fun _ _ => rfl
  | slane n h => exact keepsMemory_sameState fun _ _ => rfl
  | br n h => exact keepsMemory_sameState fun _ _ => rfl
  | bnz n h => exact execBnz_keeps n h _
  | vBarrier n h => exact keepsMemory_sameState fun _ _ => rfl
  | vBarrierRelease n => exact execVBarrierRelease_keeps n _
  | vEnd n h => exact keepsMemory_sameState fun _ _ => rfl
  | threadSwitch e h granule => exact execThreadSwitch_keeps e h granule _
  | fadd die => exact keepsMemory_microRow fun _ _ _ _ _ h => h
  | fsub die => exact keepsMemory_microRow fun _ _ _ _ _ h => h
  | fmul die => exact keepsMemory_microRow fun _ _ _ _ _ h => h
  | fdiv die => exact keepsMemory_microRow fun _ _ _ _ _ h => h
  | fsqrt die => exact keepsMemory_microRow fun _ _ _ _ _ h => h
  | fmin die => exact keepsMemory_microRow fun _ _ _ _ _ h => h
  | fmax die => exact keepsMemory_microRow fun _ _ _ _ _ h => h
  | fneg die => exact keepsMemory_microRow fun _ _ _ _ _ h => h
  | fabs die => exact keepsMemory_microRow fun _ _ _ _ _ h => h
  | fsign die => exact keepsMemory_microRow fun _ _ _ _ _ h => h
  | fscale die => exact keepsMemory_microRow fun _ _ _ _ _ h => h
  | fsel die => exact keepsMemory_microRow fun _ _ _ _ _ h => h
  | fmov die => exact keepsMemory_microRow fun _ _ _ _ _ h => h
  | microEnd die => exact execMicroEnd_keeps die _
  | sessionOpen f => exact keepsMemory_onSys fun _ _ hy => onSessionFrame_canonical (fun z hz => by rwa [openFrame_mem]) hy
  | sessionForceEnd svc => exact execSessionForceEnd_keeps svc _
  | sessionResume f => exact execSessionResume_keeps f _
  | sessionClose f => exact execSessionClose_keeps f _
  | sessionLapse svc => exact execSessionLapse_keeps svc _
  | creelWrite f => exact execCreelWrite_keeps f _
  | keepalive f => exact execKeepalive_keeps f _
  | keepaliveSend k => exact execKeepaliveSend_keeps k _
  | frameResend svc seq => exact execFrameResend_keeps svc seq _
  | droppedFrame f => exact execDroppedFrame_keeps f _
  | creelStatus => exact execCreelStatus_keeps _
  | replyFlush svc => exact execReplyFlush_keeps svc _
  | packetRead => exact execPacketRead_keeps _
  | stall creel lane => exact execStall_keeps creel lane _
  | commandCompletion creel lane => exact execCommandCompletion_keeps creel lane _
  | lockExpired k => exact execLockExpired_keeps k _
  | pick f => exact execPick_keeps f _
  | pickInEdge => exact execPickInEdge_keeps _
  | pickAdvance => exact keepsMemory_onSys fun _ y hy => by rwa [nextAdvance_mem]
  | pickEcho => exact execPickEcho_keeps _
  | ctrSample set => exact execCtrSample_keeps set _
  | arbitrationRound a arrivals withdrawn => exact execArbitrationRound_keeps a arrivals withdrawn _
  | preemption a r doneBeats => exact execPreemption_keeps a r doneBeats _
  | dramRead granule source wrong => exact execDramRead_keeps granule source wrong _
  | dramWrite granule mask data => exact execDramWrite_keeps granule mask data _
  | kill n granule => exact execKill_keeps n granule _
  | writeComplete granule => exact execWriteComplete_keeps granule _
  | runaheadRead n wrong => exact execRunaheadRead_keeps n wrong _
  | granuleConsume u => exact execGranuleConsume_keeps u _
  | slotFree e h => exact execSlotFree_keeps e h _
  | scrubRead stack wrong => exact execScrubRead_keeps stack wrong _
  | memRetrainDone ok pause => exact execMemRetrainDone_keeps ok pause _
  | unitFailure cls inst => exact execUnitFailure_keeps cls inst _
  | endingStart n t r => exact execEndingStart_keeps n t r _
  | bucketConversionDone tag => exact execBucketConversionDone_keeps tag _
  | bucketPacket port m => exact keepsMemory_onSys fun _ _ h => bucketMsg_canonical port m _ h
  | heldPartialRelease tag => exact execHeldPartialRelease_keeps tag _
  | twinHalfSum port m => exact keepsMemory_onSys fun _ _ h => bucketMsg_canonical port m _ h
  | shardFinal tag => exact execShardFinal_keeps tag _
  | bucketResend tag => exact execBucketResend_keeps tag _
  | gatherPacket port m => exact keepsMemory_onSys fun _ _ h => bucketMsg_canonical port m _ h
  | latenessExpiry tag => exact keepsMemory_onSys fun _ _ hy => onBucket_canonical (fun b r z hz => by rwa [checkWindow_mem]) hy
  | twinCopyRequest port m => exact execTwinCopyRequest_keeps port m _
  | twinCopyAnswer port m => exact execTwinCopyAnswer_keeps port m _
  | warpForward port m => exact execWarpForward_keeps port m _
  | remoteWrite port m => exact execRemoteWrite_keeps port m _
  | linkPacket port e => exact execLinkPacket_keeps port e _
  | identityFrame port m => exact execIdentityFrame_keeps port m _
  | portUp port m => exact execPortUp_keeps port m _
  | portFault port c => exact execPortFault_keeps port c _
  | portDown port => exact execPortDown_keeps port _
  | laneEqualization port => exact execLaneEqualization_keeps port _
  | prepareDigest => exact execPrepareDigest_keeps _
  | prepareMessage port m => exact execPrepareMessage_keeps port m _
  | commitStart => exact execCommitStart_keeps _
  | weavePacket port m => exact execWeavePacket_keeps port m _
  | ckptData port m => exact keepsMemory_onSys fun _ _ hy => onCkpt_canonical (fun x b _ hz => takeData_canonical x b hz) hy
  | ckptEnd port m => exact execCkptEnd_keeps port m _
  | burlerSlice die wantsTile => exact execBurlerSlice_keeps die wantsTile _
  | burlerTestDone die part digest expected => exact execBurlerTestDone_keeps die part digest expected _
  | mendDone die pass => exact execMendDone_keeps die pass _
  | imageBegin f => exact execImageBegin_keeps f _
  | imageData f => exact execImageData_keeps f _
  | imageEnd f => exact execImageEnd_keeps f _
  | imageAbort f => exact execImageAbort_keeps f _
  | hsFault h => exact execHsFault_keeps h _
  | takeover => exact execTakeover_keeps _
  | standbyReady bad => exact execStandbyReady_keeps bad _
  | thermalSample die r => exact execThermalSample_keeps die r _
  | lifeSample vcore => exact execLifeSample_keeps vcore _
  | hoursTick => exact execHoursTick_keeps _
  | perstNAssert ns => exact execPerstNAssert_keeps ns _
  | perstNRelease hs0 hs1 => exact execPerstNRelease_keeps hs0 hs1 _
  | bootStage1 failing badA badB => exact execBootStage1_keeps failing badA badB _
  | vauxRise => exact execVauxRise_keeps _
  | shdnReqN ns => exact execShdnReqN_keeps ns _
  | smbVersion => exact keepsMemory_smb _ s
  | smbStatus => exact keepsMemory_smb _ s
  | smbHottestLogic => exact keepsMemory_smb _ s
  | smbHottestDram => exact keepsMemory_smb _ s
  | smbHottestOther => exact keepsMemory_smb _ s
  | smbDieLogicTemp d => exact keepsMemory_smb _ s
  | smbStackTemp d => exact keepsMemory_smb _ s
  | smbVcore d => exact keepsMemory_smb _ s
  | smbIdent => exact keepsMemory_smb _ s
  | smbLife => exact keepsMemory_smb _ s
  | smbAlertResponse => exact execSmbAlertResponse_keeps _
  | traceDrain u => exact execTraceDrain_keeps u _
  | traceGap u => exact execTraceGap_keeps u _
  | traceWindowEnd => exact execTraceWindowEnd_keeps _
  | portTraining l => exact execPortTraining_keeps l _
  | linkResetTimeout => exact execLinkResetTimeout_keeps _
  | unitReportsReady standby die => exact execUnitReportsReady_keeps standby die _
  | readyTimeExpiry standby die => exact execReadyTimeExpiry_keeps standby die _
  | writesCompleteReport port m => exact execWritesCompleteReport_keeps port m _
  | vauxLoss => exact keepsMemory_onSys fun _ y _ => afterReset_canonical false y
  | testAccessPort ti => exact execTestAccessPort_keeps ti _

/-- The passing of a nanosecond keeps memory in canonical form. -/
theorem tick_keeps (s : State) : KeepsMemory s (tick s) := keepsMemory_onSys fun _ _ h => tickSys_canonical h

/-- Settles O50: a step runs the front command or lets a nanosecond pass, and each of them keeps the canonical form. -/
theorem memoryStaysCanonical : Obligations.MemoryStaysCanonical := by
  unfold Obligations.MemoryStaysCanonical
  intro s t h ht
  have hs : KeepsMemory s (step s) := by
    unfold step
    split
    · exact tick_keeps s
    · next c rest _ => exact fun h => exec_keeps c { s with pending := rest } h
  exact (canonical_listed t.sys.mem).mp (hs ((canonical_listed s.sys.mem).mpr h) t ht)

end Sys2Proof.Laws
end

section
/-! WRITES. Where each byte of a write is stored, piece by piece, and what a write leaves in the cells. -/

namespace Sys2Proof.Laws

open Sys2Proof Sys2Proof.Machine Sys2Proof.Safety

/-! ### The physical address of a byte of a write -/

theorem storedAt_congr {y z : Sys} (h : ∀ x, translateAddr z x = translateAddr y x) (a i : Nat) :
    storedAt z a i = storedAt y a i := by
  unfold storedAt
  dsimp only
  rw [h]

theorem pieceLen_pos (a : Nat) : 0 < pieceLen a := by
  unfold pieceLen
  split <;> omega

/-- The bytes of the first piece follow its physical address. -/
theorem storedAt_firstPiece (y : Sys) {a i : Nat} (h : i < pieceLen a) : storedAt y a i = translateAddr y a + i := by
  have hstart : Nat.max a ((a + i) / (if a + i < dramEnd then 64 else 8) * (if a + i < dramEnd then 64 else 8)) = a := by
    refine Nat.max_eq_left ?_
    unfold pieceLen dramEnd at h
    unfold dramEnd
    split at h <;> split <;> omega
  unfold storedAt
  dsimp only
  rw [hstart]
  omega

/-- The bytes after the first piece are stored as those of a write that begins there. -/
theorem storedAt_nextPieces (y : Sys) (a i : Nat) : storedAt y a (pieceLen a + i) = storedAt y (a + pieceLen a) i := by
  have hstart : ∀ u, u = 64 ∧ a < dramEnd ∨ u = 8 →
      Nat.max a ((a + pieceLen a + i) / u * u) = Nat.max (a + pieceLen a) ((a + pieceLen a + i) / u * u) := by
    intro u hu
    have hpos := pieceLen_pos a
    have hle : a + pieceLen a ≤ (a + pieceLen a + i) / u * u := by
      unfold pieceLen at hpos ⊢
      obtain ⟨rfl, ha⟩ | rfl := hu
      · rw [if_pos ha]; omega
      · split <;> omega
    exact (Nat.max_eq_right (by omega)).trans (Nat.max_eq_right hle).symm
  have hunit : (if a + pieceLen a + i < dramEnd then 64 else 8) = 64 ∧ a < dramEnd ∨
      (if a + pieceLen a + i < dramEnd then 64 else 8) = 8 := by
    split
    · exact .inl ⟨rfl, by omega⟩
    · exact .inr rfl
  unfold storedAt
  dsimp only
  rw [← Nat.add_assoc, hstart _ hunit]

/-! ### One piece -/

/-- A byte of memory on which the piece does not fall stays as it was. -/
theorem cellAt_writePiece_frame (id : Option Nat) (a : Nat) (bs : List Byte) (y : Sys) {p : Nat}
    (h : ∀ i < bs.length, translateAddr y a + i ≠ p) : cellAt (writePiece id a bs y).mem p = cellAt y.mem p := by
  obtain ⟨hcells, hunspec, _⟩ := writePiece_cells id a bs y
  obtain ⟨hsame, _⟩ | hput := hcells
  · exact cellAt_congr hsame hunspec p
  · have hout : ¬(translateAddr y a ≤ p ∧ p < translateAddr y a + bs.length) := by
      rintro ⟨hl, hr⟩
      exact h (p - translateAddr y a) (by omega) (by omega)
    rw [cellAt_congr hput (hunspec.trans (putCells_unspec bs y.mem _).symm), cellAt_putCells, if_neg hout]

/-- No granule is poisoned and no word marked. -/
def Unmarked (y : Sys) : Prop := y.mem.poison = [] ∧ y.mem.badWords = []

theorem cellAt_writePiece_stored (id : Option Nat) (a : Nat) (bs : List Byte) {y : Sys} (hy : Unmarked y) {i : Nat}
    (hi : i < bs.length) : some (cellAt (writePiece id a bs y).mem (translateAddr y a + i)) = bs[i]? := by
  obtain ⟨hcells, hunspec, _⟩ := writePiece_cells id a bs y
  obtain ⟨_, hmarked⟩ | hput := hcells
  · exact absurd hmarked (by simp [hy.1, hy.2])
  · rw [cellAt_congr hput (hunspec.trans (putCells_unspec bs y.mem _).symm), cellAt_putCells, if_pos (by omega)]
    simp [hi]

theorem writePiece_unmarked (id : Option Nat) (a : Nat) (bs : List Byte) {y : Sys} (hy : Unmarked y) :
    Unmarked (writePiece id a bs y) := by
  obtain ⟨hp, hb⟩ := hy
  unfold writePiece
  have hhit : (if translateAddr y a < dramEnd then setHas y.mem.poison (translateAddr y a / 64)
      else setHas y.mem.badWords (translateAddr y a / 8)) = false := by
    rw [hp, hb]; split <;> rfl
  dsimp only
  rw [hhit, Bool.false_and, if_neg Bool.false_ne_true]
  unfold Unmarked
  rw [noteBack_mem, dropAllCopies_mem]
  split <;> simp [hp, hb, setDel]

/-! ### All pieces -/

/-- A byte of memory on which no byte of the write falls stays as it was. -/
theorem cellAt_writePieces_frame (id : Option Nat) (p : Nat) : ∀ (fuel a : Nat) (bs : List Byte) (y : Sys),
    (∀ i < bs.length, storedAt y a i ≠ p) → cellAt (writePieces id fuel a bs y).mem p = cellAt y.mem p := by
  intro fuel
  induction fuel with
  | zero => intros; rfl
  | succ fuel ih =>
    intro a bs y h
    unfold writePieces
    split
    · rfl
    · have hfirst : ∀ i < (bs.take (pieceLen a)).length, translateAddr y a + i ≠ p := by
        intro i hi
        rw [List.length_take] at hi
        rw [← storedAt_firstPiece y (by omega : i < pieceLen a)]
        exact h i (by omega)
      have hnext : ∀ i < (bs.drop (pieceLen a)).length,
          storedAt (writePiece id a (bs.take (pieceLen a)) y) (a + pieceLen a) i ≠ p := by
        intro i hi
        rw [List.length_drop] at hi
        rw [storedAt_congr (writePiece_cells id a _ y).2.2, ← storedAt_nextPieces]
        exact h (pieceLen a + i) (by omega)
      rw [ih _ _ _ hnext, cellAt_writePiece_frame id a _ y hfirst]

/-- A byte of the write on whose place no other falls is stored there, where nothing is marked. -/
theorem cellAt_writePieces_stored (id : Option Nat) : ∀ (fuel a : Nat) (bs : List Byte) (y : Sys) (i : Nat),
    bs.length ≤ fuel → Unmarked y → i < bs.length → (∀ j < bs.length, j ≠ i → storedAt y a j ≠ storedAt y a i) →
    some (cellAt (writePieces id fuel a bs y).mem (storedAt y a i)) = bs[i]? := by
  intro fuel
  induction fuel with
  | zero => intro a bs y i hf _ hi _; omega
  | succ fuel ih =>
    intro a bs y i hf hy hi honly
    have hne : bs ≠ [] := List.ne_nil_of_length_pos (by omega)
    have hpos := pieceLen_pos a
    have hstep : ∀ j, storedAt (writePiece id a (bs.take (pieceLen a)) y) (a + pieceLen a) j = storedAt y a (pieceLen a + j) :=
      fun j => (storedAt_congr (writePiece_cells id a _ y).2.2 _ j).trans (storedAt_nextPieces y a j).symm
    unfold writePieces
    rw [if_neg hne]
    by_cases hin : i < pieceLen a
    · have hlater : ∀ j < (bs.drop (pieceLen a)).length,
          storedAt (writePiece id a (bs.take (pieceLen a)) y) (a + pieceLen a) j ≠ storedAt y a i := by
        intro j hj
        rw [List.length_drop] at hj
        rw [hstep]
        exact honly (pieceLen a + j) (by omega) (by omega)
      rw [cellAt_writePieces_frame id _ _ _ _ _ hlater, storedAt_firstPiece y hin,
        cellAt_writePiece_stored id a _ hy (by rw [List.length_take]; omega), List.getElem?_take_of_lt hin]
    · obtain ⟨k, rfl⟩ := Nat.exists_eq_add_of_le (Nat.le_of_not_lt hin)
      rw [← hstep, ih _ _ _ k (by rw [List.length_drop]; omega) (writePiece_unmarked id a _ hy)
        (by rw [List.length_drop]; omega) ?_, List.getElem?_drop]
      intro j hj hjk
      rw [List.length_drop] at hj
      rw [hstep, hstep]
      exact honly (pieceLen a + j) (by omega) (by omega)

/-- Settles O60: a read after the write is a read of the cell at the same physical address, since a write moves no translation;
the pieces of the write are followed by induction. -/
theorem writesStoreTheirBytes : Obligations.WritesStoreTheirBytes := by
  unfold Obligations.WritesStoreTheirBytes
  intro y id a bs
  have hread : ∀ x, readByte (writeBytes id a bs y) x = cellAt (writeBytes id a bs y).mem (translateAddr y x) := by
    intro x
    unfold readByte
    rw [translate_writeBytes]
  constructor
  · intro x hframe
    rw [hread]
    exact cellAt_writePieces_frame id _ _ a bs y hframe
  · intro hpoison hwords i hi honly x hx
    rw [hread, hx]
    exact cellAt_writePieces_stored id _ a bs y i (Nat.le_refl _) ⟨hpoison, hwords⟩ hi honly

end Sys2Proof.Laws
end

section
/-! REGISTERS. The commands that read and write registers. -/

namespace Sys2Proof.Laws

open Sys2Proof Sys2Proof.Machine Sys2Proof.Safety

/-- Whether a register exists at an index does not turn on the list of commands. -/
theorem goodInstance_met {op : Nat} {layout : List Nat} {bad : Bool} {pk : Packet} {s : State} {z : Sys} {c : Cmd}
    (h : Meets op layout bad pk s z c) (k : InstKind) (i : Nat) : goodInstance z k i = goodInstance s.sys k i := by
  rw [meets_cm h]
  rfl

/-- The conditions of a REG_WRITE in terms of the parts of its register's name. -/
theorem writeAllowed_iff {pk : Packet} {p : Perm} {z : Sys} {c : Cmd} {k : InstKind} : WriteAllowed pk p z c k ↔
    regKind (regName pk).1 (regName pk).2.1 = some k ∧
    (if pf pk 0 63 1 = 1 then (regName pk).2.2 = 0 else goodInstance z k (regName pk).2.2 = true) ∧
    (if guarded pk then (mapGet ({} : Lock) z.lck (pf pk 0 56 6)).state = .held ∧
      (mapGet ({} : Lock) z.lck (pf pk 0 56 6)).owner = c.creel
     else pf pk 0 56 6 = 0) ∧
    pw pk 1 &&& reservedBits (regName pk).1 (regName pk).2.1 = 0 ∧
    (∀ j ∈ writtenInsts pk k, badWrite p z c.creel (regName pk).1 (regName pk).2.1 j (BitVec.ofNat 64 (pw pk 1))
      (BitVec.ofNat 64 (pw pk 2)) = false) ∧
    ((regName pk).1 = 0x0A ∧ (regName pk).2.1 = 0x00 → ∀ q ∈ z.coll.routes, q.2.loaded = false) :=
  Iff.rfl

/-- The guard of a REG_WRITE holds: its creel holds the lock that it names, or it names none. -/
theorem guardFails_none {c : Cmd} {y : Sys} : guardFails c y = none ↔
    if guarded c.pkt then (mapGet ({} : Lock) y.lck (pf c.pkt 0 56 6)).state = .held ∧
      (mapGet ({} : Lock) y.lck (pf c.pkt 0 56 6)).owner = c.creel
    else pf c.pkt 0 56 6 = 0 := by
  unfold guardFails
  dsimp only
  cases guarded c.pkt <;> simp

/-- A REG_WRITE whose conditions hold passes its checks. -/
theorem writeCheck_of_allowed {p : Perm} {z : Sys} {c : Cmd} {k : InstKind} (h : WriteAllowed c.pkt p z c k) :
    writeCheck p c z = none := by
  obtain ⟨hkind, hinst, hguard, hreserved, hvalue, hself⟩ := writeAllowed_iff.mp h
  have hgood : (if (pf c.pkt 0 63 1 == 1) = true then (regName c.pkt).2.2 != 0 else !goodInstance z k (regName c.pkt).2.2) = false := by
    split at hinst
    next hb => rw [if_pos (beq_iff_eq.mpr hb), hinst]; rfl
    next hb => rw [if_neg (mt beq_iff_eq.mp hb), hinst]; rfl
  unfold writeCheck
  dsimp only
  rw [hkind]
  dsimp only
  rw [hgood, guardFails_none.mpr hguard]
  refine firstFail_none.mpr ?_
  simp only [List.mem_cons, List.not_mem_nil, or_false, forall_eq_or_imp, forall_eq]
  refine ⟨by rw [hreserved]; rfl, ?_, ?_⟩
  · rw [List.any_eq_false]
    intro j hj
    rw [hvalue j hj]
    exact Bool.false_ne_true
  · by_cases hbr : (regName c.pkt).1 = 0x0A ∧ (regName c.pkt).2.1 = 0x00
    · have hroutes : z.coll.routes.any (fun q => q.2.loaded) = false := by
        rw [List.any_eq_false]
        intro q hq
        rw [hself hbr q hq]
        exact Bool.false_ne_true
      rw [hroutes, Bool.and_false]
    · simp [hbr]

/-- A REG_WRITE that is no request of a shutdown writes its registers and returns their number. -/
theorem writeEffect_written {p : Perm} {c : Cmd} {k : InstKind} (y : Sys)
    (hkind : regKind (regName c.pkt).1 (regName c.pkt).2.1 = some k)
    (hno : ¬((regName c.pkt).1 = 0x15 ∧ (regName c.pkt).2.1 = 0x02 ∧
      (BitVec.ofNat 64 (pw c.pkt 1) &&& BitVec.ofNat 64 (pw c.pkt 2)).getLsbD 0 = true)) :
    writeEffect p c y = finish c.id .ok [BitVec.ofNat 64 (writtenInsts c.pkt k).length] (written c.pkt p k y) := by
  unfold writeEffect
  dsimp only
  rw [hkind]
  exact if_neg hno

/-- A REG_WRITE packet runs in the state with the leases applied, where it is guarded. -/
theorem writeCommand_eq {p : Perm} {pk : Packet} {s : State} (h : (atUnit 0x0701 pk s.sys).isSome = true) :
    writeCommand p pk s.sys =
      execCommand 0x0701 [bits (regBits ++ [(63, 1), (62, 1), (56, 6)]), allBits, allBits] (fun _ => false) always
        (writeCheck p) (writeEffect p) pk (if guarded pk then afterLeases s else s).sys := by
  unfold writeCommand
  dsimp only
  cases guarded pk with
  | true => rw [if_pos rfl, if_pos rfl, afterExpiries, if_pos h, afterLeases]
  | false => rfl

theorem exec_regRead {pk : Packet} {s : State} {z : Sys} {c : Cmd} {k : InstKind} (h : Meets 0x0700 [bits regBits] false pk s z c)
    (hkind : regKind (regName pk).1 (regName pk).2.1 = some k) (hgood : goodInstance s.sys k (regName pk).2.2 = true) :
    exec (.regRead pk) s = onward s (clearRead (regName pk).1 (regName pk).2.1 (regName pk).2.2 (finish c.id .ok
      [regValue s.perm (taken c z) (regName pk).1 (regName pk).2.1 (regName pk).2.2] (taken c z))) := by
  change execRegRead pk s = _
  unfold execRegRead
  refine onSys_eq (execCommand_go h rfl ?_)
  have hpair : regKind (pf pk 0 48 8) (pf pk 0 32 8) = some k := hkind
  rw [hpair]
  refine firstFail_none.mpr ?_
  simpa [goodInstance_met h, regName] using hgood

theorem exec_regWrite {pk : Packet} {s : State} {z : Sys} {c : Cmd} {k : InstKind} (hmet : WriteMeets pk s z c)
    (hallowed : WriteAllowed pk s.perm z c k)
    (hno : ¬((regName pk).1 = 0x15 ∧ (regName pk).2.1 = 0x02 ∧
      (BitVec.ofNat 64 (pw pk 1) &&& BitVec.ofNat 64 (pw pk 2)).getLsbD 0 = true)) :
    exec (.regWrite pk) s =
      onward s (finish c.id .ok [BitVec.ofNat 64 (writtenInsts pk k).length] (written pk s.perm k (taken c z))) := by
  obtain ⟨hmeets, hsome⟩ := hmet
  obtain ⟨-, rfl⟩ := meets_packet hmeets
  refine (onSys_eq ?_ : execRegWrite c.pkt s = _)
  rw [writeCommand_eq hsome, execCommand_go hmeets rfl (writeCheck_of_allowed hallowed)]
  exact writeEffect_written _ (writeAllowed_iff.mp hallowed).1 hno

/-- Settles O16: each of the two commands is taken up, since its checks pass, and has its effect. -/
theorem registerCommandsComplete : Obligations.RegisterCommandsComplete := by
  unfold Obligations.RegisterCommandsComplete
  constructor
  · intro pk s z c hmet k hkind hgood
    exact exec_regRead hmet hkind hgood
  · intro pk s z c k hmet hallowed hno
    exact exec_regWrite hmet hallowed hno

end Sys2Proof.Laws
end

section
/-! RESET. What the registers read and which invariants hold in the state after reset. -/

namespace Sys2Proof.Laws

open Sys2Proof Sys2Proof.Machine Sys2Proof.Safety

/-! ### The capacity of a die -/

theorem usedPositions_reset (reed : Nat) : usedPositions State.reset.sys reed = List.range 16 := by
  have hposition : (fun j => positionOf State.reset.sys (16 * reed + j)) = fun j => some (j % 16) :=
    funext fun j => congrArg some (Nat.mul_add_mod 16 reed j)
  unfold usedPositions
  rw [hposition]
  rfl

theorem spareOf_reset (reed : Nat) : spareOf State.reset.perm State.reset.sys reed = some 16 := by
  unfold spareOf
  rw [usedPositions_reset]
  rfl

theorem capacityReg_reset (d : Nat) :
    capacityReg State.reset.perm State.reset.sys d = capacityReg State.reset.perm State.reset.sys 0 := by
  simp only [capacityReg, activeShuttles, sparesLeft, shortReeds, usedPositions_reset, spareOf_reset]

/-! ### Registers with instances -/

/-- LD.IDENT and LINK.PORT_STATE: the registers that differ among their instances at reset. -/
def differsByInstance (b r : Nat) : Bool := (b == 0x03 || b == 0x09) && r == 0x00

/-- A register shows the same fields at every index at reset: LD.CAPACITY counts alike on every die, and any other that has an
index shows a record at its default. -/
theorem regFields_reset_instance {b r : Nat} (i : Nat) (hsame : differsByInstance b r = false) :
    regFields State.reset.perm State.reset.sys b r i = regFields State.reset.perm State.reset.sys b r 0 := by
  unfold regFields
  split
  -- of the arms, only those of LD.IDENT, LD.CAPACITY and LINK.PORT_STATE read more at their index than such a record
  case h_2 => exact absurd hsame (by decide)
  case h_3 => exact capacityReg_reset i
  case h_17 => exact absurd hsame (by decide)
  all_goals rfl

theorem regValue_reset_instance {b r : Nat} (i : Nat) (hsame : differsByInstance b r = false) :
    regValue State.reset.perm State.reset.sys b r i = regValue State.reset.perm State.reset.sys b r 0 := by
  unfold regValue
  rw [regFields_reset_instance i hsame]

/-- LINK.PORT_STATE at reset: no peer, DOWN, and TWIN as the port is. -/
theorem portState_reset (w : Nat) : (regValue State.reset.perm State.reset.sys 0x09 0x00 w).toNat =
    0x1000000000000000 + (if w = 7 ∨ w = 31 ∨ w = 39 ∨ w = 63 then 0x10000 else 0) := by
  have htwin : (w == 7 || w == 31 || w == 39 || w == 63) = decide (w = 7 ∨ w = 31 ∨ w = 39 ∨ w = 63) := by
    rw [Bool.eq_iff_iff]
    simp [or_assoc]
  have hstate : regValue State.reset.perm State.reset.sys 0x09 0x00 w =
      BitVec.ofNat 64 (regVersion + portStateReg State.reset.sys w % 2 ^ 56) := by
    unfold regValue regFields
    rfl
  have hport : portAt State.reset.sys w = {} := rfl
  rw [hstate, portStateReg, hport, htwin]
  by_cases h : w = 7 ∨ w = 31 ∨ w = 39 ∨ w = 63
  · rw [decide_eq_true h, if_pos h]
    decide
  · rw [decide_eq_false h, if_neg h]
    decide

/-! ### Invariants -/

theorem onlyForward_refl (p : Perm) : onlyForward p p :=
  ⟨Nat.le_refl _, BitVec.and_self, fun _ => Nat.le_refl _, fun _ hx => hx, rfl⟩

theorem mapLegal_reset : mapLegal State.reset.sys := by
  refine ⟨rfl, ?_, ?_⟩ <;> exact fun _ h => absurd h List.not_mem_nil

theorem cmdsInOrder_reset : cmdsInOrder State.reset.sys := by
  refine ⟨List.Pairwise.nil, ?_, ?_⟩ <;> exact fun _ h => absurd h List.not_mem_nil

/-- Settles O46: every register of the list reads alike at all its indices, and its word at index 0 is read off the reset state. -/
theorem resetRegistersReadAsStated : Obligations.ResetRegistersReadAsStated := by
  unfold Obligations.ResetRegistersReadAsStated
  refine ⟨?_, portState_reset, onlyForward_refl _, memoryWf_reset, mapLegal_reset, cmdsInOrder_reset,
    rfl, rfl, rfl, rfl, rfl, rfl⟩
  rintro i r hr k - -
  have hfirst : differsByInstance r.1 r.2.1 = false ∧ (regValue State.reset.perm State.reset.sys r.1 r.2.1 0).toNat = r.2.2 := by
    revert r
    decide
  rw [regValue_reset_instance i hfirst.1]
  exact hfirst.2

end Sys2Proof.Laws
end

section
/-! GF64 SUMS. What one element of a sum is, and that the partials of a sum may be added in any order (R94). -/

namespace Sys2Proof.Laws

open Sys2Proof Sys2Proof.Machine

/-- A sum reaches as far as both of its operands. -/
theorem length_sum64 (a b : List Nat) : (sum64 a b).length = min a.length b.length := by
  simp only [sum64, List.length_map, List.length_zip]

theorem lt_length_sum64 {a b : List Nat} {i : Nat} : i < (sum64 a b).length ↔ i < a.length ∧ i < b.length := by
  rw [length_sum64, Nat.lt_min]

/-- One element of a sum (R94). -/
theorem getElem_sum64 {a b : List Nat} {i : Nat} (ha : i < a.length) (hb : i < b.length) :
    (sum64 a b)[i]'(lt_length_sum64.2 ⟨ha, hb⟩) = (a[i] + b[i]) % 2 ^ 64 := by
  simp only [sum64, List.getElem_map, List.getElem_zip]

/-- Two partials may change places: either way each element is the exact sum modulo 2^64. -/
theorem sum64_right_comm (a p q : List Nat) : sum64 (sum64 a p) q = sum64 (sum64 a q) p := by
  have hlength : (sum64 (sum64 a p) q).length = (sum64 (sum64 a q) p).length := by
    simp only [length_sum64]
    omega
  refine List.ext_getElem hlength fun i hi _ => ?_
  obtain ⟨hap, hq⟩ := lt_length_sum64.1 hi
  obtain ⟨ha, hp⟩ := lt_length_sum64.1 hap
  have haq : i < (sum64 a q).length := lt_length_sum64.2 ⟨ha, hq⟩
  calc (sum64 (sum64 a p) q)[i]
      = (a[i] + p[i] + q[i]) % 2 ^ 64 := by rw [getElem_sum64 hap hq, getElem_sum64 ha hp, Nat.mod_add_mod]
    _ = (a[i] + q[i] + p[i]) % 2 ^ 64 := by rw [Nat.add_right_comm]
    _ = (sum64 (sum64 a q) p)[i] := by rw [getElem_sum64 haq hp, getElem_sum64 ha hq, Nat.mod_add_mod]

/-- Settles O56: a sum is taken element by element, and since two partials may change places, a permutation of the partials
leaves their sum. -/
theorem gridSumsAreOrderFree : Obligations.GridSumsAreOrderFree := by
  unfold Obligations.GridSumsAreOrderFree
  constructor
  · intro a b i ha hb
    rw [List.getElem?_eq_getElem (lt_length_sum64.2 ⟨ha, hb⟩), getElem_sum64 ha hb, List.getElem_eq_getD 0, List.getElem_eq_getD 0]
  · intro a l m hperm
    exact hperm.foldl_eq' (fun p _ q _ partialSum => sum64_right_comm partialSum p q) a

end Sys2Proof.Laws
end

section
/-! EXACT SUMS. Terms added to exact tiles: their order and their division among contributions leave no trace (R113). -/

namespace Sys2Proof.Laws

open Sys2Proof Sys2Proof.Machine

/-! ### One element -/

theorem clsJoin_right_comm (a b c : Cls) : clsJoin (clsJoin a b) c = clsJoin (clsJoin a c) b := by
  cases a <;> cases b <;> cases c <;> rfl

/-- Two terms of an element may change places. -/
theorem addTerm_right_comm (e : BeamElem) (s t : Term) : addTerm (addTerm e s) t = addTerm (addTerm e t) s := by
  simp only [addTerm, BeamElem.mk.injEq]
  exact ⟨clsJoin_right_comm _ _ _, by ac_rfl, Bool.or_right_comm _ _ _, Bool.or_right_comm _ _ _⟩

/-- The terms of an element may come in any order. -/
theorem foldl_addTerm_perm {ts us : List Term} (h : ts.Perm us) (e : BeamElem) : ts.foldl addTerm e = us.foldl addTerm e :=
  h.foldl_eq' (fun s _ t _ e => addTerm_right_comm e s t) e

/-- The content of an element is the sum of its terms (R113). -/
theorem sum_foldl_addTerm (ts : List Term) (e : BeamElem) :
    (ts.foldl addTerm e).sum = e.sum + BitVec.ofInt 288 (ts.map (fun t => t.t)).sum := by
  induction ts generalizing e with
  | nil => simp
  | cons t r ih =>
    have hhead : (addTerm e t).sum = e.sum + BitVec.ofInt 288 t.t := rfl
    rw [List.foldl_cons, ih, hhead, List.map_cons, List.sum_cons, BitVec.ofInt_add, BitVec.add_assoc]

/-! ### The elements of a tile -/

theorem addTerms_cons (e : BeamElem) (els : List BeamElem) (t : List Term) (ts : List (List Term)) :
    addTerms (e :: els) (t :: ts) = t.foldl addTerm e :: addTerms els ts := rfl

/-- Two contributions to the elements add as one that gives each element the terms of both. -/
theorem addTerms_addTerms : ∀ (els : List BeamElem) (ts us : List (List Term)),
    addTerms (addTerms els ts) us = addTerms els (List.zipWith (fun a b => a ++ b) ts us)
  | [], _, _ | _ :: _, [], _ | _ :: _, _ :: _, [] => rfl
  | e :: els, t :: ts, u :: us => by
    rw [addTerms_cons, addTerms_cons, addTerms_addTerms els ts us, List.zipWith_cons_cons, addTerms_cons, List.foldl_append]

/-- Two contributions to the elements may change places, since the terms of each element may. -/
theorem addTerms_right_comm : ∀ (els : List BeamElem) (ts us : List (List Term)),
    addTerms (addTerms els ts) us = addTerms (addTerms els us) ts
  | [], _, _ | _ :: _, [], [] | _ :: _, [], _ :: _ | _ :: _, _ :: _, [] => rfl
  | e :: els, t :: ts, u :: us => by
    have hhead : u.foldl addTerm (t.foldl addTerm e) = t.foldl addTerm (u.foldl addTerm e) := by
      rw [← List.foldl_append, ← List.foldl_append, foldl_addTerm_perm List.perm_append_comm]
    rw [addTerms_cons, addTerms_cons, addTerms_cons, addTerms_cons, hhead, addTerms_right_comm els ts us]

/-! ### The top of a tile -/

theorem topMax_none (a : Option Int) : topMax a none = a := by
  cases a <;> rfl

theorem topMax_some (a b : Int) : topMax (some a) (some b) = some (max a b) :=
  congrArg some (by omega)

theorem topMax_comm (a b : Option Int) : topMax a b = topMax b a :=
  match a, b with
  | none, _ => (topMax_none _).symm
  | _, none => topMax_none _
  | some a, some b => by rw [topMax_some, topMax_some, Int.max_comm]

theorem topMax_assoc (a b c : Option Int) : topMax (topMax a b) c = topMax a (topMax b c) :=
  match a, b, c with
  | none, _, _ => rfl
  | some _, none, _ => rfl
  | some _, some _, none => by rw [topMax_none, topMax_none]
  | some a, some b, some c => by rw [topMax_some, topMax_some, topMax_some, topMax_some, Int.max_assoc]

theorem topMax_right_comm (a b c : Option Int) : topMax (topMax a b) c = topMax (topMax a c) b := by
  rw [topMax_assoc, topMax_comm b c, topMax_assoc]

/-- The exponent that a term brings to the top: none where the term is zero or not finite (R194). -/
def termExp (b : Int) (t : Term) : Option Int := if t.cls = Cls.finite ∧ t.t ≠ 0 then some (flog t.t + b) else none

/-- The top of a list of terms is the largest of their exponents. -/
theorem termTop_eq (b : Int) (ts : List Term) : termTop b ts = (ts.map (termExp b)).foldl topMax none := by
  have hstep (m : Option Int) (t : Term) :
      (if t.cls = Cls.finite ∧ t.t ≠ 0 then topMax m (some (flog t.t + b)) else m) = topMax m (termExp b t) := by
    unfold termExp
    split
    · rfl
    · exact (topMax_none m).symm
  simp only [termTop, hstep, List.foldl_map]

/-- The top of two lists of terms is the larger of their tops. -/
theorem termTop_append (b : Int) (ts us : List Term) : termTop b (ts ++ us) = topMax (termTop b ts) (termTop b us) := by
  have : Std.Associative topMax := ⟨topMax_assoc⟩
  rw [termTop_eq, termTop_eq b ts, termTop_eq b us, List.map_append, List.foldl_append,
    ← List.foldl_assoc (op := topMax), topMax_none]

/-- The top of a list of terms does not turn on their order. -/
theorem termTop_perm {ts us : List Term} (h : ts.Perm us) (b : Int) : termTop b ts = termTop b us := by
  rw [termTop_eq, termTop_eq]
  exact (h.map (termExp b)).foldl_eq' (fun p _ q _ m => topMax_right_comm m p q) none

/-! ### A tile -/

/-- The terms that two contributions hold, element by element, are the terms of the one and the terms of the other. -/
theorem flatten_zipWith_append_perm : ∀ {ts us : List (List Term)}, ts.length = us.length →
    (List.zipWith (fun a b => a ++ b) ts us).flatten.Perm (ts.flatten ++ us.flatten)
  | [], [], _ => .nil
  | t :: ts, u :: us, h => by
    have htail := flatten_zipWith_append_perm (Nat.succ.inj h)
    rw [List.perm_iff_count] at htail ⊢
    intro a
    have hcount := htail a
    simp only [List.zipWith_cons_cons, List.flatten_cons, List.count_append] at hcount ⊢
    omega

/-- Two contributions to a tile may change places. -/
theorem tileAdd_right_comm (x : ExactTile) (ts us : List (List Term)) :
    tileAdd us (tileAdd ts x) = tileAdd ts (tileAdd us x) := by
  simp only [tileAdd, ExactTile.mk.injEq, true_and]
  exact ⟨Bool.or_right_comm _ _ _, Bool.or_right_comm _ _ _, Bool.or_right_comm _ _ _, topMax_right_comm _ _ _,
    addTerms_right_comm _ _ _⟩

/-- Two contributions to a tile add as one that gives each element the terms of both. -/
theorem tileAdd_tileAdd (x : ExactTile) {ts us : List (List Term)} (h : ts.length = us.length) :
    tileAdd us (tileAdd ts x) = tileAdd (List.zipWith (fun a b => a ++ b) ts us) x := by
  have hperm := flatten_zipWith_append_perm h
  simp only [tileAdd, addTerms_addTerms, termTop_perm hperm, termTop_append, hperm.any_eq, List.any_append,
    topMax_assoc, Bool.or_assoc]

/-- Settles O55: the content of an element is a sum, and two contributions to a tile may change places or be given as one. -/
theorem exactSumsAreOrderFree : Obligations.ExactSumsAreOrderFree := by
  unfold Obligations.ExactSumsAreOrderFree
  refine ⟨fun e ts => sum_foldl_addTerm ts e, fun x l m hperm => ?_, fun x ts us hlength => tileAdd_tileAdd x hlength⟩
  exact hperm.foldl_eq' (fun ts _ us _ x => tileAdd_right_comm x ts us) x

end Sys2Proof.Laws
end


section
/-! ACCUMULATION. The commands that open a tile, add to it and end it: their checks pass, and what they do then. -/

namespace Sys2Proof.Laws

open Sys2Proof Sys2Proof.Machine Sys2Proof.Safety

/-! ### What the commands read where their packet met its unit, and where they were taken up -/

section
variable {op : Nat} {layout : List Nat} {bad : Bool} {pk : Packet} {s : State} {z : Sys} {c : Cmd}

theorem tileAt_met (h : Meets op layout bad pk s z c) (n t : Nat) : tileAt z n t = tileAt s.sys n t := by
  rw [meets_cm h]
  rfl

theorem badShuttle_met (h : Meets op layout bad pk s z c) (n : Nat) : badShuttle z n = badShuttle s.sys n := by
  rw [meets_cm h]
  rfl

theorem mending_met (h : Meets op layout bad pk s z c) (n : Nat) : mending z n = mending s.sys n := by
  rw [meets_cm h]
  rfl

theorem vecFree_met (h : Meets op layout bad pk s z c) (n : Nat) : vecFree z n = vecFree s.sys n := by
  rw [meets_cm h]
  rfl

theorem burDie_met (h : Meets op layout bad pk s z c) (d : Nat) : burDie z d = burDie s.sys d := by
  rw [meets_cm h]
  rfl

theorem anyHeld_met (h : Meets op layout bad pk s z c) (rs : List (Nat × Nat)) : anyHeld z rs = anyHeld s.sys rs := by
  rw [meets_cm h]
  rfl

theorem tileAt_taken (h : Meets op layout bad pk s z c) (n t : Nat) : tileAt (taken c z) n t = tileAt s.sys n t := by
  unfold tileAt
  rw [taken_acc h]

theorem readBytes_taken (h : Meets op layout bad pk s z c) (a n : Nat) : readBytes (taken c z) a n = readBytes s.sys a n :=
  readBytes_congr (taken_mem h) (taken_smap h) a n

theorem rangeBytes_taken (h : Meets op layout bad pk s z c) (rs : List (Nat × Nat)) :
    rangeBytes (taken c z) rs = rangeBytes s.sys rs := by
  simp only [rangeBytes, readBytes_taken h]

end

/-! ### Lists of checks -/

theorem firstFail_cons {b : Bool} {st : Status} {l : List (Bool × Status)} (hb : b = false) (hl : firstFail l = none) :
    firstFail ((b, st) :: l) = none := by
  rw [hb]
  exact hl

/-- The checks of two lists pass where those of each do. -/
theorem firstFail_append {l m : List (Bool × Status)} (hl : firstFail l = none) (hm : firstFail m = none) :
    firstFail (l ++ m) = none :=
  firstFail_none.mpr (List.forall_mem_append.mpr ⟨firstFail_none.mp hl, firstFail_none.mp hm⟩)

/-! ### The tile that a command names -/

/-- Checks 3 to 5 of R658 pass on an open tile that has not failed, for a command of the tile's lane. -/
theorem tileChecks_pass {c : Cmd} {p : TilePos} {u : Nat} (hopen : (namedTile p u).1 = .opened)
    (hfailed : (namedTile p u).2.1 = false) (hlane : wrongLane c p u = false) : firstFail (tileChecks c p u) = none := by
  simp [tileChecks, firstFail, hopen, hfailed, hlane]

theorem endingOn_opened {p : TilePos} {u : Nat} (hopen : (namedTile p u).1 = .opened) : endingOn p u = none := by
  rw [endingOn, hopen]

section
variable {p : TilePos} (hexact : p.guarded = false)
include hexact

theorem namedTile_exact (u : Nat) : namedTile p u = (p.exact.status, p.exact.failed, p.exact.terms) := by
  simp [namedTile, hexact]

theorem wrongLane_exact (c : Cmd) (u : Nat) : wrongLane c p u = false := by
  simp [wrongLane, hexact]

/-- A plane of WP256 elements has the rows and columns of the open exact tile that it belongs to. -/
theorem wideShape_exact (hopen : p.exact.status = .opened) :
    (if p.guarded then (1, 1) else outShape p 0) = (p.exact.m, p.exact.n) := by
  simp [outShape, hexact, hopen]

/-- Checks 3 to 5 of R658 pass on an open exact tile that has not failed. -/
theorem tileChecks_pass_exact (c : Cmd) (u : Nat) (hopen : p.exact.status = .opened) (hfailed : p.exact.failed = false) :
    firstFail (tileChecks c p u) = none := by
  refine tileChecks_pass ?_ ?_ (wrongLane_exact hexact c u)
  · rw [namedTile_exact hexact, hopen]
  · rw [namedTile_exact hexact, hfailed]

end

/-- The checks of a plane of WP256 elements pass where its rows fit its pitch, its view is open and it is aligned in reach. -/
theorem badWide_pass {n rows cols a pitch : Nat} {closed : Bool} (hpitch : shortPitch pitch (cols * 40) = false)
    (hview : closed = false) (haligned : a % 8 = 0 ∧ pitch % 8 = 0)
    (hplane : inStoreOrDram n a (spanBytes rows pitch (cols * 40)) = true) :
    firstFail (badWide n closed rows cols a pitch) = none := by
  simp [badWide, firstFail, hpitch, hview, haligned, hplane]

/-! ### The preload of an ACC_BEGIN -/

section
variable {o : PreOp} {code row n : Nat}

/-- A preload that is read has one of the three scalar formats (R184). -/
theorem preloadFormat_pass (h : o.mode ≠ 0 → code ∈ [0x20, 0x21, 0x22]) :
    (o.mode != 0 && !([0x20, 0x21, 0x22].elem code)) = false := by
  refine Bool.and_eq_false_imp.mpr fun hread => ?_
  rw [List.elem_iff.mpr (h (bne_iff_ne.mp hread))]
  rfl

/-- The fields of an ACC_BEGIN pass where those of its mode do, and its preload names nothing that is not read. -/
theorem preloadFields_pass {bad : Bool} (hmode : bad = false) (hzero : o.mode = 0 → code = 0 ∧ o.addr = 0 ∧ o.pitch = 0)
    (hone : o.mode = 1 → o.pitch = 0) (hrows : o.mode = 2 → shortPitch o.pitch row = false) :
    (bad || (o.mode == 0 && (code != 0 || o.addr != 0 || o.pitch != 0)) || (o.mode == 1 && o.pitch != 0) ||
      (o.mode == 2 && shortPitch o.pitch row)) = false := by
  simpa [hmode, and_assoc] using ⟨hzero, hone, hrows⟩

/-- The rows of a preload that is read are aligned and in reach. -/
theorem preloadAddr_pass (h : o.mode ≠ 0 → aligned64 o.addr = true ∧ o.pitch % 64 = 0 ∧
      inStoreOrDram n o.addr (if o.mode = 2 then spanBytes o.m o.pitch row else row) = true) :
    (o.mode != 0 && (!aligned64 o.addr || o.pitch % 64 != 0 ||
      !inStoreOrDram n o.addr (if o.mode = 2 then spanBytes o.m o.pitch row else row))) = false := by
  simpa [and_assoc] using h

end

/-- Settles O5: the checks of each command pass, so it is taken up; its operands hold no poison, so it does its work, and what it
reads stands as before the packet met its unit. -/
theorem accumulationWorkCompletes : Obligations.AccumulationWorkCompletes := by
  unfold Obligations.AccumulationWorkCompletes
  refine ⟨?begin, ?matmul, ?importWide⟩
  case begin =>
    intro pk s z c hmet
    dsimp only
    intro hshuttle hfmt hzero hone hrows haddr hview hheld hidle hburler
    have hwait : ((if (preOf pk.params).mode = 0 then !mending z (pf pk 0 32 12) else shuttleReady (pf pk 0 32 12) c z) &&
        !anyHeld z (preRanges (preOf pk.params)) && (burDie z (pf pk 0 32 12 / 128)).holds !=
          some (pf pk 0 32 12, pf pk 0 24 3)) = true := by
      rw [mending_met hmet, anyHeld_met hmet, burDie_met hmet, hheld]
      split at hidle
      next hmode => simp [hmode, hidle, hburler]
      next hmode => simp [hmode, hidle, hburler]
    have hchecks (bad : Bool) (hbad : bad = false) := firstFail_cons (st := .paramRange) hshuttle
      (firstFail_cons (st := .formatPair) (preloadFormat_pass hfmt)
        (firstFail_cons (st := .paramRange) (preloadFields_pass hbad hzero hone hrows)
          (firstFail_cons (st := .debugClosed) hview
            (firstFail_cons (st := .addrRange) (preloadAddr_pass haddr)
              (firstFail_cons (st := .accBusy) (bne_self_eq_false ([] : List TileStatus)) (l := []) rfl)))))
    constructor
    · intro hmode hshape hnarrow hbaseLo hbaseHi hmLo hmHi hnLo hnHi hblock hclean
      change execAccBegin pk s = _
      unfold execAccBegin tileName
      dsimp only
      rw [beq_false_of_ne hmode]
      refine onSys_eq ((execCommand_go hmet ?_ ?_).trans ?_)
      · rw [hwait, tileAt_met hmet, hblock]
        rfl
      · rw [badShuttle_met hmet, tileAt_met hmet, hblock]
        refine hchecks _ ?_
        simp [hshape, hnarrow, hbaseLo, hbaseHi, hmHi, hnHi, Nat.ne_of_gt hmLo, Nat.ne_of_gt hnLo]
      · rw [rangeBytes_taken hmet, tileAt_taken hmet, if_neg Bool.false_ne_true, hclean]
        rfl
    · intro hmode hm hn hbase hblock hclean
      change execAccBegin pk s = _
      unfold execAccBegin tileName
      dsimp only
      rw [beq_iff_eq.mpr hmode]
      refine onSys_eq ((execCommand_go hmet ?_ ?_).trans ?_)
      · rw [hwait, tileAt_met hmet, hblock]
        rfl
      · rw [badShuttle_met hmet, tileAt_met hmet, hblock]
        refine hchecks _ ?_
        simp [hm, hn, hbase]
      · rw [tileAt_taken hmet, if_pos rfl, hclean]
        rfl
  case matmul =>
    intro pk s z c hmet
    dsimp only
    intro hshuttle hpair hkLo hkHi hview ha hb haAddr hbAddr hnamed hlane hshape hterms hready hengine hclean
    change execAccMatmul pk s = _
    unfold execAccMatmul tileName
    refine onSys_eq ((execCommand_go hmet (by simp [hready, hengine]) ?_).trans ?_)
    · dsimp only
      rw [tileAt_met hmet, badShuttle_met hmet]
      have htile := tileChecks_pass (congrArg (fun q => q.1) hnamed) (congrArg (fun q => q.2.1) hnamed) hlane
      refine firstFail_append (firstFail_append ?_ htile) ?_
      · have hk : (matOf pk.params).k ≠ 0 := Nat.ne_of_gt hkLo
        rcases hpair with ⟨hpa, hpb⟩ | ⟨hpa, hpb⟩ <;>
          simp [firstFail, hshuttle, hpa, hpb, hk, hkHi, ha, hb, hview, haAddr, hbAddr]
      · rw [decide_eq_false (Nat.not_lt.mpr hterms)]
        split at hshape
        next hguarded => simp [firstFail, hguarded, hshape]
        next hexact => simp [firstFail, hexact, hshape]
    · rw [hclean]
  case importWide =>
    intro pk s z c hmet
    dsimp only
    intro hshuttle hpitch haddr hpitch8 hplane hexact hview hopen hfailed hterms hready hfree hengine hheld hclean
    change execAccImportWide pk s = _
    unfold execAccImportWide tileName
    have htake : (shuttleReady (pf pk 0 32 12) c z && vecFree z (pf pk 0 32 12) && !engineTaken c z && !anyHeld z
        (wideRanges (pw pk 1) (pf pk 2 32 32) (tileAt z (pf pk 0 32 12) (pf pk 0 24 3)).exact.m
          (tileAt z (pf pk 0 32 12) (pf pk 0 24 3)).exact.n)) = true := by
      simp [tileAt_met hmet, vecFree_met hmet, anyHeld_met hmet, hready, hfree, hengine, hheld]
    refine onSys_eq ((execCommand_go hmet htake ?_).trans ?_)
    · dsimp only
      rw [tileAt_met hmet, badShuttle_met hmet, wideShape_exact hexact hopen, hexact]
      have hwide := badWide_pass hpitch hview ⟨haddr, hpitch8⟩ hplane
      have htile := tileChecks_pass_exact hexact c 0 hopen hfailed
      refine firstFail_append (firstFail_append (firstFail_append (firstFail_append ?_ hwide) rfl) htile) ?_
      · simp [firstFail, hshuttle]
      · simpa [firstFail] using hterms
    · dsimp only
      rw [tileAt_taken hmet, hclean]
      simp only [readBytes_taken hmet]

/-- Settles O6: the checks of each ending command pass, so it is taken up and starts to end the tile. -/
theorem endingCommandsAreAccepted : Obligations.EndingCommandsAreAccepted := by
  unfold Obligations.EndingCommandsAreAccepted
  refine ⟨?readout, ?exportWide, ?discard⟩
  case readout =>
    intro pk s z c hmet
    dsimp only
    intro hshuttle hgf64 hwp256 hscaleLo hscaleHi hclamp hslot hpitch hdest hpitch64 hplane hplain hblock hnamed hlane hnarrow
      hready
    change execAccReadout pk s = _
    unfold execAccReadout tileName
    refine onSys_eq (execCommand_go hmet hready ?_)
    dsimp only
    rw [tileAt_met hmet, badShuttle_met hmet]
    have htile := tileChecks_pass (congrArg (fun q => q.1) hnamed) (congrArg (fun q => q.2.1) hnamed) hlane
    refine firstFail_append (firstFail_append ?_ htile) ?_
    · cases hb : isBlockFmt ((readOf pk.params).fmt.getD .fp32) with
      | false =>
        simp [firstFail, hshuttle, hgf64, hwp256, hscaleLo, hscaleHi, hclamp, hslot, hpitch, hdest, hpitch64, hplane, hplain hb]
      | true =>
        simp [firstFail, hshuttle, hgf64, hwp256, hscaleLo, hscaleHi, hclamp, hslot, hpitch, hdest, hpitch64, hplane, hblock hb]
    · simpa [firstFail] using hnarrow
  case exportWide =>
    intro pk s z c hmet
    dsimp only
    intro hshuttle hpitch haddr hpitch8 hplane hexact hopen hfailed hready
    change execAccExportWide pk s = _
    unfold execAccExportWide tileName
    refine onSys_eq (execCommand_go hmet hready ?_)
    dsimp only
    rw [tileAt_met hmet, badShuttle_met hmet, wideShape_exact hexact hopen, hexact]
    have hwide := badWide_pass hpitch rfl ⟨haddr, hpitch8⟩ hplane
    have htile := tileChecks_pass_exact hexact c 0 hopen hfailed
    refine firstFail_append (firstFail_append (firstFail_append ?_ hwide) rfl) htile
    simp [firstFail, hshuttle]
  case discard =>
    intro pk s z c hmet
    dsimp only
    intro hshuttle hopen hlane hnarrow hbehind hmend
    change execAccDiscard pk s = _
    unfold execAccDiscard tileName
    have hready : (c.behind == none && !mending z (pf pk 0 32 12)) = true := by
      rw [hbehind, mending_met hmet, hmend]
      rfl
    have hcheck : discardCheck (pf pk 0 32 12) (pf pk 0 24 3) (pf pk 0 20 2) c z = none := by
      unfold discardCheck
      rw [tileAt_met hmet, badShuttle_met hmet]
      simpa [firstFail, hshuttle, hopen, hlane] using hnarrow
    refine onSys_eq ?_
    rw [endingOn_opened hopen]
    split
    next hnone => exact absurd hnone (by simp)
    next => exact execCommand_go hmet hready hcheck

end Sys2Proof.Laws
end


section
/-! ENDINGS AND TRACE. What the start of an ending command and the events of a trace unit come to. -/

namespace Sys2Proof.Laws

open Sys2Proof Sys2Proof.Machine Sys2Proof.Safety

/-- An ending command starts where nothing holds it back: it discards, finds the accumulation failed, meets the parity error,
or does its work with the translation that it began with (R189, R200, R282, R507). -/
theorem execEndingStart_starts {s : State} {n t id : Nat} {r : FileRead} {c : Cmd} (hup : isUp s.sys = true)
    (hending : (namedTile (tileAt s.sys n t) (if (tileAt s.sys n t).guarded then r.tile else 0)).1 = .ending id)
    (hfind : findCmd s.sys id = some c) (hrunning : c.phase = .running) (hheld : endingHeld (viewed c s.sys) c = false)
    (hpath : readoutTaken (viewed c s.sys) c = false) :
    execEndingStart n t r s = onward s
      (let p := tileAt s.sys n t
      let u := if p.guarded then r.tile else 0
      if c.op = 0x0205 then finish c.id .ok [] s.sys
      else if (namedTile p u).2.1 then finish c.id .accFailed [] (reopenTile n t u s.sys)
      else if r.parity then finish c.id .memUncorrectable [] (storeError n s.sys)
      else unview (if p.guarded then endGuarded c n t u (viewed c s.sys) else endExact c n t (viewed c s.sys))) := by
  refine onSys_eq ?_
  dsimp only
  rw [hending]
  dsimp only
  rw [hfind]
  simp [hup, hrunning, hheld, hpath]

/-- Settles O40: an ending command whose start nothing holds back does what its state says, and a trace unit whose guard holds
acts. -/
theorem endingAndTraceEventsComplete : Obligations.EndingAndTraceEventsComplete := by
  unfold Obligations.EndingAndTraceEventsComplete
  refine ⟨?ending, ?unit, ?window⟩
  case ending =>
    intro s n t u id c hup
    dsimp only
    intro hending hfind hrunning hheld hpath
    have hstart (parity : Bool) := execEndingStart_starts (r := ⟨u, parity⟩) hup hending hfind hrunning hheld hpath
    refine ⟨fun parity hop => ?_, fun parity hop hfailed => ?_, fun hop hfailed => ⟨?_, ?_⟩⟩
    · exact (hstart parity).trans (by rw [if_pos hop])
    · exact (hstart parity).trans (by rw [if_neg hop, if_pos hfailed])
    · exact (hstart false).trans (by simp [hop, hfailed])
    · exact (hstart true).trans (by simp [hop, hfailed])
  case unit =>
    intro s u hup hon
    refine ⟨fun hstate => ?_, ?_⟩
    · have hguard : (isUp s.sys && unitOn s.sys u &&
          (s.sys.obs.trace.state == .running || s.sys.obs.trace.state == .triggered)) = true := by
        simp [hup, hon, hstate]
      exact (onSys_eq (if_pos hguard) : execTraceDrain u s = _)
    · have hguard : (isUp s.sys && unitOn s.sys u) = true := by rw [hup, hon]; rfl
      exact (onSys_eq (if_pos hguard) : execTraceGap u s = _)
  case window =>
    intro s hup hstate hstopping hend
    have hguard : (isUp s.sys && s.sys.obs.trace.state == .triggered && s.sys.obs.trace.stopping.isNone &&
        decide (windowEnd s.sys.obs.trace ≤ pickNow s.sys)) = true := by
      simp [hup, hstate, hstopping, hend]
    exact (onSys_eq (if_pos hguard) : execTraceWindowEnd s = _)

end Sys2Proof.Laws
end

section
/-! VECTOR INSTRUCTIONS. What a thread's instruction comes to where nothing holds it back. -/

namespace Sys2Proof.Laws

open Sys2Proof Sys2Proof.Machine Sys2Proof.Safety

/-! ### A thread that stands at an instruction -/

section
variable {op : Nat} {s : State} {k : VCtx} {f : VCtx → Sys → VRes}

/-- A thread that stands at an instruction executes it, in the state as its command sees it (R207, R208, R213, R282). -/
theorem vecRow_atInstr (h : AtInstr op s k) (hop : op ∈ vecOps) :
    vecRow k.n k.h op f s.sys = unview (vecEnd k (f k (seen s k))) := by
  obtain ⟨hctx, hup, hrun, hlimit, hword, hheld, hissued⟩ := h
  have hcount : ¬((runAt s.sys k.n).limit ≠ 0 ∧ (runAt s.sys k.n).limit * 1024 ≤ k.th.count) := by omega
  unfold vecRow
  rw [hctx]
  simp [hup, hrun, hcount, hword, hop, hheld, hissued, seen]

/-- An instruction that goes on: its thread has changed as it says, and stands at the next instruction. -/
theorem vecRow_goes {th : VThread} {y : Sys} (h : AtInstr op s k) (hop : op ∈ vecOps) (hf : f k (seen s k) = .go th y) :
    onSys s (fun _ y => vecRow k.n k.h op f y) = worked s (vecGo k th (Int.ofNat k.th.pc + 1) y) := by
  refine onSys_eq ?_
  rw [vecRow_atInstr h hop, hf]
  rfl

/-- An instruction that jumps: its thread stands at the target and has not changed else. -/
theorem vecRow_jumps {i : Int} {y : Sys} (h : AtInstr op s k) (hop : op ∈ vecOps) (hf : f k (seen s k) = .jump i y) :
    onSys s (fun _ y => vecRow k.n k.h op f y) = worked s (vecGo k k.th i y) := by
  refine onSys_eq ?_
  rw [vecRow_atInstr h hop, hf]
  rfl

end

/-! ### The lane-wise instructions -/

theorem laneOp_typed {k : VCtx} {ty : VTy} (hty : tyOf (vT k) = some ty) (f : VTy → Word32 → Word32 → Word32) (y : Sys) :
    laneOp k f y =
      .go (setV k ty (fun l => f ty (vLane (vReg k.th (vA k)) l) (vLane (vReg k.th (vB k)) l)) k.th) y := by
  rw [laneOp, hty]

theorem floatOp_f32 {k : VCtx} (hty : vT k = 2) (f : Nat → Word32) (y : Sys) : floatOp k f y = .go (setV k .f32 f k.th) y :=
  if_pos hty

/-- Settles O22: each instruction writes the masked lanes of its register, or the masked bits of its mask, and goes on. The
type from which VCVT converts (log 100) and its lower bound of I32 (log 103), VCMP of a NaN (log 32) and the signs of zeros
(logs 14, 102) are as the model takes them. -/
theorem laneInstructionsComplete : Obligations.LaneInstructionsComplete := by
  unfold Obligations.LaneInstructionsComplete
  refine ⟨?vadd, ?vsub, ?vmul, ?vfma, ?vdiv, ?vsqrt, ?vmin, ?vmax, ?vand, ?vor, ?vxor, ?vshl, ?vshr, ?vcmp,
    ?vcmpM0, ?vsel, ?vcvt⟩
  case vadd | vsub | vmul | vmin | vmax | vand | vor | vxor | vshl | vshr =>
    exact fun s k h ty hty => vecRow_goes h (by decide) (laneOp_typed hty _ _)
  case vfma | vdiv | vsqrt => exact fun s k h hty => vecRow_goes h (by decide) (floatOp_f32 hty _ _)
  case vcmp =>
    intro s k h ty hty hcond hlo hhi
    refine vecRow_goes h (by decide) ?_
    rw [hty]
    dsimp only
    rw [if_neg (by omega), if_neg (by omega)]
  case vcmpM0 =>
    intro s k h ty hty hcond hzero
    refine vecRow_goes h (by decide) ?_
    rw [hty]
    dsimp only
    rw [if_neg (by omega), if_pos hzero]
  case vsel =>
    intro s k h ty hty hmask
    refine vecRow_goes h (by decide) ?_
    rw [hty]
    exact if_neg (by omega)
  case vcvt =>
    intro s k h tgt htgt hpol
    refine vecRow_goes h (by decide) ?_
    rw [htgt]
    exact if_neg (by omega)

/-! ### The memory instructions -/

/-- Where the address of no lane is bad, the list of addresses holds no bad one. -/
theorem any_map_eq_false {α β : Type} {l : List α} {g : α → β} {bad : β → Bool} (h : ∀ x ∈ l, bad (g x) = false) :
    (l.map g).any bad = false := by
  simpa [List.any_eq_false] using h

/-- A load from legal addresses that hold no poison widens the element of each masked lane (R208, R210). -/
theorem loadLanes_goes {k : VCtx} {w : Nat} {addr : Nat → Nat → Nat × Nat} {y : Sys} (hw : memWidth (vT k) = some w)
    (hlegal : ∀ l ∈ onLanes k, badElem y k.n w (addr w l) = false)
    (hclean : consumeAll 2 y (((onLanes k).map (addr w)).map (fun a => (a.1, elemBytes w))) = none) :
    loadLanes k addr y = .go (setV k (loadTy (vT k) y).1 (fun l => widen (vT k) (elemCode y w (addr w l))) k.th)
      (loadTy (vT k) y).2 := by
  unfold loadLanes
  rw [hw]
  dsimp only
  rw [any_map_eq_false hlegal, hclean]
  rfl

/-- A store to legal addresses stores the converted lanes, the highest last (R208, R210). -/
theorem storeLanes_goes {k : VCtx} {w : Nat} {addr : Nat → Nat → Nat × Nat} {y : Sys} (hw : memWidth (vT k) = some w)
    (hpol : vPol k ≤ 1) (hlegal : ∀ l ∈ onLanes k, badStore y k w (addr w l) = false) :
    storeLanes k addr y =
      .go k.th ((onLanes k).foldl (fun y l => putElem k.c.id w (addr w l) (storeCode k l) y) y) := by
  unfold storeLanes
  rw [hw]
  dsimp only
  rw [if_neg (Nat.not_lt.mpr hpol), any_map_eq_false hlegal]
  rfl

/-- Where every wide value is there, none is missing. -/
theorem any_isNone_eq_false {ws : List (Option Wide)} (h : ∀ w ∈ ws, w.isSome = true) :
    ws.any (fun w => w.isNone) = false := by
  rw [List.any_eq_false]
  intro w hw
  rw [Option.isNone_iff_eq_none]
  exact Option.isSome_iff_ne_none.mp (h w hw)

/-- Settles O23: each instruction finds its addresses legal and its operands free of poison, moves its elements, and goes on. The
type from which VST and VSCATTER convert (log 100), the half byte of a 4-bit index (log 101) and that only masked lanes touch
memory (log 30) are as the model takes them. -/
theorem vectorMemoryInstructionsComplete : Obligations.VectorMemoryInstructionsComplete := by
  unfold Obligations.VectorMemoryInstructionsComplete
  refine ⟨?vld, ?vgather, ?vst, ?vscatter, ?vscatadd, ?vwld, ?vwst⟩
  case vld | vgather => exact fun s k h w hw hlegal hclean => vecRow_goes h (by decide) (loadLanes_goes hw hlegal hclean)
  case vst => exact fun s k h w hw hpol hlegal => vecRow_goes h (by decide) (storeLanes_goes hw hpol hlegal)
  case vscatter =>
    intro s k h w hw hlegal
    refine vecRow_goes h (by decide) ?_
    rw [hw]
    dsimp only
    rw [any_map_eq_false hlegal]
    rfl
  case vscatadd =>
    intro s k h hlegal hclean
    refine vecRow_goes h (by decide) ?_
    dsimp only
    rw [any_map_eq_false hlegal, hclean]
    rfl
  case vwld =>
    intro s k h
    dsimp only
    intro haligned hrange hclean hwide th y hset
    have hsome := any_isNone_eq_false fun w hw => Option.isSome_iff_exists.mpr ((hwide w hw).imp fun v hv => hv.1)
    have hbase : (((List.range 8).map (fun i => wideOf (readBytes (seen s k) (wideAddr k + 40 * i) 40))).filterMap id).any
        (fun w => w.cls == Cls.finite && w.base != sext (fld (sReg k.th (vB k)) 0 16) 16) = false := by
      rw [List.any_eq_false]
      intro v hv
      obtain ⟨v', hv', hfinite⟩ := hwide (some v) (by simpa using hv)
      cases hv'
      simpa using hfinite
    refine vecRow_goes h (by decide) ?_
    dsimp only
    rw [if_neg (by simp [haligned, hrange]), hclean]
    dsimp only
    rw [hsome, hbase]
    exact hset
  case vwst =>
    intro s k h
    dsimp only
    intro haligned hlegal
    refine vecRow_goes h (by decide) (if_neg ?_)
    rw [not_or, Bool.not_eq_true, List.any_eq_false]
    refine ⟨fun hne => hne haligned, fun g hg => ?_⟩
    obtain ⟨hreach, hopen⟩ := hlegal g hg
    simp [hreach, hopen]

/-! ### The vector reductions -/

/-- Settles O24: each instruction writes its result for the type that it names, and goes on; VWADD's eight sums are all in
range. That a reduction reads all 64 lanes and how it extends to 64 bits (logs 19, 31) are as the model takes them. -/
theorem vectorReductionsComplete : Obligations.VectorReductionsComplete := by
  unfold Obligations.VectorReductionsComplete
  refine ⟨?vredsum, ?vredmax, ?vredmin, ?vwadd⟩
  case vredsum =>
    refine fun s k h => ⟨fun hty => vecRow_goes h (by decide) ?_, fun hty => vecRow_goes h (by decide) ?_⟩
    · rw [hty]; rfl
    · rw [hty]; rfl
  case vredmax | vredmin =>
    refine fun s k h hd => ⟨fun hty => vecRow_goes h (by decide) ?_, fun hty => vecRow_goes h (by decide) ?_,
      fun hty => vecRow_goes h (by decide) ?_⟩
    all_goals
      unfold redExtreme
      rw [hty]
      exact if_neg hd
  case vwadd =>
    intro s k h
    dsimp only
    intro hsums th y hwide
    refine vecRow_goes h (by decide) ?_
    dsimp only
    rw [any_isNone_eq_false hsums]
    exact hwide

/-! ### Scalar and control instructions -/

/-- Settles O25: each instruction writes its scalar register, jumps, or changes the status of its thread; a barrier that every
thread has reached lets all of them go on. -/
theorem vectorControlCompletes : Obligations.VectorControlCompletes := by
  unfold Obligations.VectorControlCompletes
  refine ⟨?sadd, ?smovi, ?slane, ?br, ?bnz, ?barrier, ?vend, ?release⟩
  case sadd | smovi | slane | barrier | vend => exact fun s k h => vecRow_goes h (by decide) rfl
  case br => exact fun s k h => vecRow_jumps h (by decide) rfl
  case bnz =>
    intro s k h
    dsimp only
    split
    next hzero => exact vecRow_goes h (by decide) (if_pos hzero)
    next hnonzero => exact vecRow_jumps h (by decide) (if_neg hnonzero)
  case release =>
    intro s n hup hsome hall
    have hguard : ¬(isUp s.sys = false ∨ (runAt s.sys n).threads = [] ∨
        (runAt s.sys n).threads.all (fun t => t.status == .atBarrier) = false) := by
      simpa [hup, hsome] using hall
    exact (onSys_eq (if_neg hguard) : execVBarrierRelease n s = _)

end Sys2Proof.Laws
end

section
/-! VECTOR COMMANDS. Vector programs and reductions: their checks pass, and what they do then. -/

namespace Sys2Proof.Laws

open Sys2Proof Sys2Proof.Machine Sys2Proof.Safety

/-! ### What the commands read where their packet met its unit, and where they were taken up -/

section
variable {op : Nat} {layout : List Nat} {bad : Bool} {pk : Packet} {s : State} {z : Sys} {c : Cmd}

theorem runAt_met (h : Meets op layout bad pk s z c) (n : Nat) : runAt z n = runAt s.sys n := by
  unfold runAt
  rw [meets_vec h]

theorem rangeHeld_met (h : Meets op layout bad pk s z c) (a n : Nat) : rangeHeld z a n = rangeHeld s.sys a n := by
  rw [meets_cm h]
  rfl

theorem badRedUnit_met (h : Meets op layout bad pk s z c) (o : RedOp) : badRedUnit z o = badRedUnit s.sys o := by
  unfold badRedUnit
  rw [badShuttle_met h]

theorem readNat_taken (h : Meets op layout bad pk s z c) (a n : Nat) : readNat (taken c z) a n = readNat s.sys a n :=
  readNat_congr (taken_mem h) (taken_smap h) a n

theorem protectedHit_taken (h : Meets op layout bad pk s z c) (b : Bool) (a n : Nat) :
    protectedHit (taken c z) b a n = protectedHit s.sys b a n :=
  protectedHit_congr (taken_smap h) b a n

theorem rowCodes_taken (h : Meets op layout bad pk s z c) (o : RedOp) (r : Nat) :
    rowCodes (taken c z) o r = rowCodes s.sys o r := by
  simp only [rowCodes, readBytes_taken h]

theorem rankedRow_taken (h : Meets op layout bad pk s z c) (o : RedOp) (pos : Nat → Nat) (r : Nat) :
    rankedRow (taken c z) o pos r = rankedRow s.sys o pos r := by
  unfold rankedRow
  rw [rowCodes_taken h]

end

/-! ### Vector programs -/

/-- Settles O7: the checks of each command pass, so it is taken up; a program is read as it stood, and a run starts. -/
theorem vectorCommandsComplete : Obligations.VectorCommandsComplete := by
  unfold Obligations.VectorCommandsComplete
  refine ⟨?load, ?run⟩
  case load =>
    intro pk s z c hmet
    dsimp only
    intro hdie htargets hlenLo hlenHi hview haligned hdram hheld hclean
    have hready : ((loadTargets pk).all (fun n => execVecLoad.vecIdle z n && !mending z n) &&
        !rangeHeld z (pw pk 1) (8 * pf pk 0 0 12)) = true := by
      rw [rangeHeld_met hmet, hheld, Bool.not_false, Bool.and_true, List.all_eq_true]
      intro n hn
      obtain ⟨-, hidle, hmend⟩ := htargets n hn
      simp [execVecLoad.vecIdle, runAt_met hmet, mending_met hmet, hidle, hmend]
    have hshuttles : (loadTargets pk).any (badShuttle z) = false := by
      rw [List.any_eq_false]
      intro n hn
      simp [badShuttle_met hmet, (htargets n hn).1]
    have hlen : pf pk 0 0 12 ≠ 0 := Nat.ne_of_gt hlenLo
    change execVecLoad pk s = _
    unfold execVecLoad
    refine onSys_eq ((execCommand_go hmet hready ?_).trans ?_)
    · simp [firstFail, Nat.not_lt.mpr hdie, hshuttles, hlen, Nat.not_lt.mpr hlenHi, hview, haligned, hdram]
    · dsimp only
      rw [hclean, readBytes_taken hmet, taken_vec hmet]
  case run =>
    intro pk s z c hmet
    dsimp only
    intro hshuttle hready hidle hengine
    have htake : (shuttleReady (pf pk 0 32 12) c z && (runAt z (pf pk 0 32 12)).cmd == none && !engineTaken c z) = true := by
      simp [runAt_met hmet, hready, hidle, hengine]
    have hcheck : firstFail [(badShuttle z (pf pk 0 32 12), .paramRange)] = none := by
      simp [firstFail, badShuttle_met hmet, hshuttle]
    change execVecRun pk s = _
    unfold execVecRun
    exact onSys_eq (execCommand_go hmet htake hcheck)

/-! ### Reductions -/

/-- Settles O8: the checks of each command pass, so it is taken up; its input holds no poison, so it does its work, and what it
reads stands as before the packet met its unit. Positions modulo 2^32 (log 35) and a spare nibble of zero (log 106) are as the
model takes them. -/
theorem reductionsComplete : Obligations.ReductionsComplete := by
  unfold Obligations.ReductionsComplete
  refine ⟨?topk, ?maxmin, ?census⟩
  case topk =>
    intro pk s z c hmet
    dsimp only
    intro hunit hscalar hkLo hkHi hfields hpairs hplain hvalPitch hposPitch hsrc hvalAligned hposAligned hvalPitch64 hposPitch64
      hvalRange hposRange hview hready hfaces hclean
    have hk : pf pk 0 0 7 ≠ 0 := Nat.ne_of_gt hkLo
    simp only [imp_and] at hpairs hplain
    obtain ⟨hbase, hinPitch, hinAligned, hinPitch64, hinRange⟩ := hpairs
    obtain ⟨hnoAddr, hnoPitch⟩ := hplain
    change execRedTopk pk s = _
    unfold execRedTopk
    simp only [beq_iff_eq]
    refine onSys_eq ((execCommand_go hmet hready ?_).trans ?_)
    · refine firstFail_cons ((badRedUnit_met hmet _).trans hunit) (firstFail_cons (by rw [hscalar]; rfl)
        (firstFail_cons ?_ (firstFail_cons hview (firstFail_cons ?_ rfl))))
      · simpa [hk, hkHi, hfields, hvalPitch, hposPitch, and_assoc, imp_and] using
          ⟨hbase, hnoAddr, hnoPitch, hinPitch⟩
      · simpa [hsrc, hvalAligned, hposAligned, hvalPitch64, hposPitch64, hvalRange, hposRange, and_assoc, imp_and] using
          ⟨hinAligned, hinPitch64, hinRange⟩
    · simp only [rankedRow_taken hmet, readNat_taken hmet, protectedHit_taken hmet]
      rw [if_neg ?_, hclean]
      rw [Bool.not_eq_true, List.any_eq_false]
      intro w hw
      rw [hfaces w hw]
      exact Bool.false_ne_true
  case maxmin =>
    intro pk s z c hmet
    dsimp only
    intro hunit hscalar hfields hsrc haligned hrange hview hready hface hclean
    change execRedMaxmin pk s = _
    unfold execRedMaxmin
    refine onSys_eq ((execCommand_go hmet hready ?_).trans ?_)
    · simp [firstFail, badRedUnit_met hmet, hunit, hscalar, hfields, hview, hsrc, haligned, hrange]
    · dsimp only
      simp only [protectedHit_taken hmet, rankedRow_taken hmet]
      rw [hface, hclean]
      rfl
  case census =>
    intro pk s z c hmet
    dsimp only
    intro hunit hscalar hfields hslotLo hslotHi hsrc hview hready hclean
    have hslot : pf pk 0 0 12 ≠ 0 := Nat.ne_of_gt hslotLo
    change execRedCensus pk s = _
    unfold execRedCensus
    refine onSys_eq ((execCommand_go hmet hready ?_).trans ?_)
    · simp [firstFail, badRedUnit_met hmet, hunit, hscalar, hfields, hslot, hslotHi, hview, hsrc]
    · dsimp only
      simp only [rowCodes_taken hmet]
      rw [hclean]

end Sys2Proof.Laws
end

section
/-! STREAMS AND THREADS. What run-ahead, the consumption of a stream, a freed slot and a switch of threads come to. -/

namespace Sys2Proof.Laws

open Sys2Proof Sys2Proof.Machine Sys2Proof.Safety

/-! ### The translation that a command began with -/

@[simp] theorem viewed_yarnAt (c : Cmd) (y : Sys) (n : Nat) : yarnAt (viewed c y) n = yarnAt y n := rfl

/-! ### The consumption of a unit -/

section
variable {y : Sys} {n id : Nat} {l : LoadOp}

/-- The state in which a YARN_LOAD has consumed the unit at which it stands, which holds no poison (R237, R239). -/
def unitConsumed (n id : Nat) (l : LoadOp) (y : Sys) : Sys :=
  let i := (yarnAt y n).pos
  let r := unitSource l i
  let z := writeAll id (unitWrites l i (readBytes y r.1 r.2)) (useCopies n (unitGranules y l i) y)
  setYarn n { yarnAt z n with pos := i + 1 } z

/-- A clean unit is consumed, and with the last one the load has finished (R237, R257). -/
theorem consumeUnit_clean (hclean : consume 1 (unitSource l (yarnAt y n).pos).1 (unitSource l (yarnAt y n).pos).2 y = none) :
    consumeUnit n id l y =
      if (yarnAt y n).pos + 1 < loadUnits l then unitConsumed n id l y
      else endYarn n (finish id .ok [loadResult l] (unitConsumed n id l y)) := by
  unfold consumeUnit
  dsimp only
  rw [hclean]
  rfl

end

/-- A YARN_LOAD whose next unit waits for nothing consumes it, with the translation that it began with (R237, R247, R282). -/
theorem execGranuleConsume_consumes {s : State} {n id : Nat} {upset : List (Nat × Nat)} {c : Cmd} (hup : isUp s.sys = true)
    (hcmd : (yarnAt s.sys n).cmd = some id) (hfind : findCmd s.sys id = some c)
    (hwaits : unitWaits (viewed c s.sys) n c = false) :
    execGranuleConsume ⟨n, upset⟩ s =
      worked s (upsetStore n upset (consumeUnit n id (loadOf c.pkt) (viewed c s.sys))) := by
  unfold execGranuleConsume
  refine onSys_eq ?_
  dsimp only
  rw [hcmd]
  dsimp only
  rw [hfind]
  exact if_neg (by simp [hup, hwaits])

/-! ### Requests of threads -/

/-- A request that fits takes a slot (R244). -/
theorem issueAll_fits {h g : Nat} {x : Engine} (hfits : slotFits x g = true) :
    issueAll h [g] x = { x with slots := x.slots ++ [{ thread := h, granules := [g] }] } := by
  simp [issueAll, hfits]

/-- A thread whose request finds no slot stops, once (R245). -/
theorem issueAll_unissued {h g : Nat} {x : Engine} (hfull : slotFits x g = false) (hnew : h ∉ x.unissued) :
    issueAll h [g] x = { x with unissued := x.unissued ++ [h] } := by
  simp [issueAll, hfull, hnew]

/-- The oldest slot of a thread frees; of a yarn engine, the data of its request have arrived (R243 to R245). -/
theorem execSlotFree_frees {s : State} {e h : Nat} {p : Slot}
    (hslot : (engAt s.sys e).slots.find? (fun p => p.thread == h) = some p) :
    execSlotFree e h s = onward s (setEng e { engAt s.sys e with slots := (engAt s.sys e).slots.erase p, unissued := [] }
      (if e < 8192 then s.sys
       else setYarn (e - 8192) (markArrived p.granules (yarnAt s.sys (e - 8192))) s.sys)) := by
  refine onSys_eq ?_
  dsimp only
  rw [hslot]

/-- An engine whose current thread misses goes on with a thread that can run (R213, R245). -/
theorem execThreadSwitch_switches {s : State} {e h granule : Nat} (hup : isUp s.sys = true)
    (hother : h ≠ (engAt s.sys e).current) (hready : threadReady s.sys e h = true) (hmissed : missed s.sys e granule ≠ []) :
    execThreadSwitch e h granule s = onward s (setEng e
      { issueAll (engAt s.sys e).current (missed s.sys e granule) (engAt s.sys e) with current := h } s.sys) :=
  onSys_eq (if_neg (by simp [hup, hother, hready, hmissed]))

/-- Settles O28: a stream that may run ahead does so, a unit that waits for nothing is consumed, a slot that is in use frees, and an
engine whose current thread misses switches. The wrong symbols and upset words are operands (logs 43, 97). -/
theorem streamAndThreadEventsComplete : Obligations.StreamAndThreadEventsComplete := by
  unfold Obligations.StreamAndThreadEventsComplete
  refine ⟨?ahead, ?consume, ?free, ?switch⟩
  case ahead =>
    intro s n g wrong rest hn hup hwanted hwrong hmay
    refine (onSys_eq ?_ : execRunaheadRead n wrong s = _)
    dsimp only
    rw [hwanted]
    exact if_neg (by simp [hup, hn, hwrong, hmay])
  case consume =>
    intro s n id upset c hup hcmd hfind
    dsimp only
    intro hwaits hclean
    have hexec := execGranuleConsume_consumes (upset := upset) hup hcmd hfind hwaits
    rw [consumeUnit_clean hclean] at hexec
    refine ⟨fun hmore => hexec.trans ?_, fun hlast => hexec.trans ?_⟩
    · rw [viewed_yarnAt, if_pos hmore]
      rfl
    · rw [viewed_yarnAt, if_neg (Nat.not_lt.mpr hlast)]
      rfl
  case free =>
    intro s e h p hslot
    dsimp only
    refine ⟨fun he => (execSlotFree_frees hslot).trans ?_, fun he => (execSlotFree_frees hslot).trans ?_⟩
    · rw [if_pos he]
    · rw [if_neg (Nat.not_lt.mpr he)]
  case switch =>
    intro s e h granule hup hother hready
    dsimp only
    intro hmissed
    have hexec := execThreadSwitch_switches hup hother hready hmissed
    refine ⟨hexec, fun g hg hfits => hexec.trans ?_, fun g hg hfull hnew => hexec.trans ?_⟩
    · rw [hg, issueAll_fits hfits]
    · rw [hg, issueAll_unissued hfull hnew]

end Sys2Proof.Laws
end

section
/-! REMOTE PACKETS. Packets for another device, writes of another device, and the reports of writes. -/

namespace Sys2Proof.Laws

open Sys2Proof Sys2Proof.Machine Sys2Proof.Safety

/-! ### The port to another device -/

section
variable {y z : Sys}

theorem portUp_congr (hl : y.lnk = z.lnk) (w : Nat) : portUp y w = portUp z w := by
  unfold portUp portAt
  rw [hl]

theorem portTo_congr (hl : y.lnk = z.lnk) (hc : y.coll = z.coll) (dev : Nat) : portTo y dev = portTo z dev := by
  have hup : upTwin y = upTwin z := by
    unfold upTwin
    rw [funext (portUp_congr hl)]
  unfold portTo fwdTo twinPortFor
  rw [hc, hup]

end

section
variable (dev : Nat)

theorem dropAllCopies_portTo (test : Copy → Bool) (killed : Bool) (y : Sys) :
    portTo (dropAllCopies test killed y) dev = portTo y dev := by
  refine foldl_keeps (fun y => portTo y dev) _ (fun z n => ?_) _ y
  unfold dropCopies
  dsimp only
  split <;> rfl

theorem noteBack_portTo (id : Option Nat) (a : Nat) (bs : List Byte) (y : Sys) :
    portTo (noteBack id a bs y) dev = portTo y dev := by
  unfold noteBack
  split
  · rfl
  · split <;> rfl

theorem reportGranule_portTo (g source : Nat) (y : Sys) : portTo (reportGranule g source y) dev = portTo y dev := by
  unfold reportGranule
  dsimp only
  rw [recordEvent_nv]
  rfl

theorem writePiece_portTo (id : Option Nat) (a : Nat) (bs : List Byte) (y : Sys) :
    portTo (writePiece id a bs y) dev = portTo y dev := by
  unfold writePiece
  dsimp only
  generalize (if translateAddr y a < dramEnd then setHas y.mem.poison (translateAddr y a / 64)
    else setHas y.mem.badWords (translateAddr y a / 8)) = hit
  generalize (if translateAddr y a < dramEnd then bs.length == 64 else bs.length == 8) = whole
  cases hit && !whole with
  | true =>
    rw [if_pos rfl]
    split
    · rw [reportGranule_portTo]
      cases id <;> rfl
    · cases id <;> rfl
  | false =>
    rw [if_neg Bool.false_ne_true, noteBack_portTo, dropAllCopies_portTo]
    rfl

theorem writePieces_portTo (id : Option Nat) (fuel : Nat) : ∀ (a : Nat) (bs : List Byte) (y : Sys),
    portTo (writePieces id fuel a bs y) dev = portTo y dev := by
  induction fuel with
  | zero => exact fun _ _ _ => rfl
  | succ fuel ih =>
    intro a bs y
    unfold writePieces
    split
    · rfl
    · rw [ih, writePiece_portTo]

/-- A write moves no route. -/
theorem writeBytes_portTo (id : Option Nat) (a : Nat) (bs : List Byte) (y : Sys) :
    portTo (writeBytes id a bs y) dev = portTo y dev := writePieces_portTo dev id bs.length a bs y

/-- The digest terms of a write move no route. -/
theorem addDigests_portTo (w : SMap Byte) (y : Sys) : portTo (addDigests w y) dev = portTo y dev := rfl

end

/-! ### The events -/

section
variable {s : State} {port src dst cmd : Nat}

/-- A packet for a third device to which the table names a port goes on through it (R324). -/
theorem execWarpForward_forwards {w : Nat} {m : WarpMsg} (hdst : addressee m = some dst) (hpower : powered s.sys = true)
    (htakes : portTakes s.sys port = true) (hown : ownNumber s.sys dst = false) (hport : portTo s.sys dst = some w) :
    execWarpForward port m s = onward s (sendWarp w m s.sys) := by
  refine onSys_eq ?_
  rw [hdst]
  dsimp only
  rw [if_pos (by simp [hpower, htakes, hown]), hport]

/-- A write of another device is done or refused, and the answer goes back to it (R254, R261, R277, R278). -/
theorem execRemoteWrite_answers {a w : Nat} {free : Bool} {bytes : List Byte} (hup : isUp s.sys = true)
    (htakes : portTakes s.sys port = true) (hown : ownNumber s.sys dst = true) (hdram : inDram a bytes.length = true)
    (hheld : rangeHeld s.sys a bytes.length = false) (hport : portTo s.sys src = some w) :
    execRemoteWrite port (.memWrite src dst cmd a free bytes) s = onward s
      (sendWarp w (.memDone dst src cmd (protectedHit s.sys free a bytes.length))
        (if protectedHit s.sys free a bytes.length then s.sys
         else addDigests (backBytes s.sys a bytes) (writeBytes none a bytes s.sys))) := by
  refine onSys_eq ?_
  dsimp only
  rw [if_pos (by simp [hup, htakes, hown, hdram, hheld])]
  have hroute : portTo (if protectedHit s.sys free a bytes.length then s.sys
      else addDigests (backBytes s.sys a bytes) (writeBytes none a bytes s.sys)) src = some w := by
    split
    · exact hport
    · rw [addDigests_portTo, writeBytes_portTo, hport]
  rw [hroute]

/-- A report reaches the copy that waits for it (R261). -/
theorem execWritesCompleteReport_takes {refused : Bool} {r : RemoteCopy} (hup : isUp s.sys = true)
    (htakes : portTakes s.sys port = true) (hown : ownNumber s.sys dst = true)
    (hfind : s.sys.mem.remote.find? (fun r => r.cmd == cmd && r.device == src) = some r) :
    execWritesCompleteReport port (.memDone src dst cmd refused) s = onward s (takeReport r refused s.sys) := by
  refine onSys_eq ?_
  dsimp only
  rw [hfind]
  exact if_pos (by simp [hup, htakes, hown])

end

/-- Settles O37: a packet goes on, a write is done or refused and answered, and a report is taken by the copy that it names. -/
theorem remoteEventsComplete : Obligations.RemoteEventsComplete := by
  unfold Obligations.RemoteEventsComplete
  refine ⟨?forward, ?write, ?report⟩
  case forward =>
    intro s port dst w m hdst hpower htakes hown hport
    exact execWarpForward_forwards hdst hpower htakes hown hport
  case write =>
    intro s port src dst cmd a w free bytes hup htakes hown hdram hheld hport
    have hexec := execRemoteWrite_answers (cmd := cmd) (free := free) hup htakes hown hdram hheld hport
    refine ⟨fun hfree => hexec.trans ?_, fun hface => hexec.trans ?_⟩
    · rw [hfree, if_neg Bool.false_ne_true]
    · rw [hface, if_pos rfl]
  case report =>
    intro s port src dst cmd refused r hup htakes hown hfind
    have hnamed : r.cmd = cmd ∧ r.device = src := by simpa using List.find?_some hfind
    obtain ⟨rfl, rfl⟩ := hnamed
    have hexec := execWritesCompleteReport_takes (refused := refused) hup htakes hown hfind
    refine ⟨fun hlast => hexec.trans ?_, fun hmore => hexec.trans ?_⟩
    · rw [takeReport, if_pos (Nat.sub_eq_zero_of_le hlast)]
    · rw [takeReport, if_neg (Nat.sub_ne_zero_of_lt hmore)]

end Sys2Proof.Laws
end

section
/-! MEMORY COMMANDS. Fills, copies, yarn loads and stores, and retraining: their checks pass, and what they do then. -/

namespace Sys2Proof.Laws

open Sys2Proof Sys2Proof.Machine Sys2Proof.Safety

/-! ### What the commands read where their packet met its unit, and where they were taken up -/

section
variable {op : Nat} {layout : List Nat} {bad : Bool} {pk : Packet} {s : State} {z : Sys} {c : Cmd}

theorem ownNumber_met (h : Meets op layout bad pk s z c) (dev : Nat) : ownNumber z dev = ownNumber s.sys dev := by
  unfold ownNumber
  rw [meets_coll h]

theorem fwdTo_met (h : Meets op layout bad pk s z c) (dev : Nat) : fwdTo z dev = fwdTo s.sys dev := by
  unfold fwdTo
  rw [meets_coll h]

theorem yarnAt_met (h : Meets op layout bad pk s z c) (n : Nat) : yarnAt z n = yarnAt s.sys n := by
  unfold yarnAt
  rw [meets_yarn h]

theorem ownNumber_taken (h : Meets op layout bad pk s z c) (dev : Nat) : ownNumber (taken c z) dev = ownNumber s.sys dev := by
  unfold ownNumber
  rw [taken_coll h]

theorem yarnAt_taken (h : Meets op layout bad pk s z c) (n : Nat) : yarnAt (taken c z) n = yarnAt s.sys n := by
  unfold yarnAt
  rw [taken_yarn h]

end

/-! ### Fills and copies (R260 to R262) -/

section
variable {c : Cmd} {src dst n : Nat} {y : Sys}

/-- The length of a fill or a copy passes: whole granules, from one to 512 GiB (R260, R262). -/
theorem transferLength_pass (hwhole : n % 64 = 0) (hlo : 64 ≤ n) (hhi : n ≤ 2 ^ 39) :
    (n % 64 != 0 || decide (n < 64) || decide (2 ^ 39 < n)) = false := by
  rw [hwhole, decide_eq_false (Nat.not_lt.mpr hlo), decide_eq_false (Nat.not_lt.mpr hhi)]
  rfl

/-- A copy in the device whose source holds no poison copies its bytes (R260, R261). -/
theorem copyLocal_clean (hface : protectedHit y (backIsFace c) dst n = false) (hclean : consume 3 src n y = none) :
    copyLocal c src dst n y = finish c.id .ok [] (writeBytes (some c.id) dst (readBytes y src n) y) := by
  rw [copyLocal, hface, hclean]
  rfl

/-- A copy to another device whose source holds no poison sends its bytes in one write and waits for its report (R261). -/
theorem copyRemote_clean {dev w : Nat} (hport : portTo y dev = some w) (hup : portUp y w = true) (hclean : consume 3 src n y = none) :
    copyRemote c dev src dst n y = awaitReports c dev w 1 .ok
      (sendWarp w (.memWrite y.coll.selfDev.toNat dev c.id dst (backIsFace c) (readBytes y src n)) y) := by
  unfold copyRemote
  dsimp only
  rw [hport]
  dsimp only
  rw [hup, hclean]
  rfl

end

/-- Settles O3: the checks of each command pass, so it is taken up; what it reads and where it writes or sends stand as before the
packet met its unit. -/
theorem memoryCommandsComplete : Obligations.MemoryCommandsComplete := by
  unfold Obligations.MemoryCommandsComplete
  refine ⟨?fill, ?copy, ?retrain⟩
  case fill =>
    intro pk s z c hmet
    dsimp only
    intro hdie hwhole hlo hhi haligned hrange hheld hface
    change execMemFill pk s = _
    unfold execMemFill
    refine onSys_eq ((execCommand_go hmet ?_ ?_).trans ?_)
    · rw [rangeHeld_met hmet, hheld]
      rfl
    · refine firstFail_cons (decide_eq_false (Nat.not_lt.mpr hdie)) (firstFail_cons (transferLength_pass hwhole hlo hhi)
        (firstFail_cons ?_ rfl))
      rw [haligned, hrange]
      rfl
    · rw [protectedHit_taken hmet, hface]
      rfl
  case copy =>
    intro pk s z c hmet
    dsimp only
    intro hdie hwhole hlo hhi hsrc hdst hrange hview hheld hclean
    constructor
    · intro hhere hapart hdrange hdheld hface
      have hlocal : (pf pk 0 0 1 == 1 && !ownNumber s.sys (nfld (pw pk 2) 54 10)) = false := by simpa using hhere
      change execMemCopy pk s = _
      unfold execMemCopy
      simp only [beq_iff_eq]
      refine onSys_eq ((execCommand_go hmet ?_ ?_).trans ?_)
      · rw [anyHeld_met hmet, ownNumber_met hmet, hlocal]
        simp [anyHeld, hheld, hdheld]
      · rw [ownNumber_met hmet, hlocal]
        refine firstFail_cons (decide_eq_false (Nat.not_lt.mpr hdie)) (firstFail_cons (transferLength_pass hwhole hlo hhi) ?_)
        simp [firstFail, hapart, hview, hsrc, hdst, hrange, hdrange]
      · rw [ownNumber_taken hmet, hlocal, if_neg Bool.false_ne_true,
          copyLocal_clean ((protectedHit_taken hmet _ _ _).trans hface) hclean, readBytes_taken hmet]
    · intro w hglob haway hdrange hshadow hfwd hport hup
      have hremote : (pf pk 0 0 1 == 1 && !ownNumber s.sys (nfld (pw pk 2) 54 10)) = true := by simp [hglob, haway]
      change execMemCopy pk s = _
      unfold execMemCopy
      simp only [beq_iff_eq]
      refine onSys_eq ((execCommand_go hmet ?_ ?_).trans ?_)
      · rw [anyHeld_met hmet, ownNumber_met hmet, hremote]
        simp [anyHeld, hheld]
      · rw [ownNumber_met hmet, hremote, fwdTo_met hmet]
        refine firstFail_cons (decide_eq_false (Nat.not_lt.mpr hdie)) (firstFail_cons (transferLength_pass hwhole hlo hhi) ?_)
        simp [firstFail, hview, hsrc, hdst, hrange, hdrange, hshadow, hfwd]
      · rw [ownNumber_taken hmet, hremote, if_pos rfl,
          copyRemote_clean ((portTo_congr (taken_lnk hmet) (taken_coll hmet) _).trans hport)
            ((portUp_congr (taken_lnk hmet) w).trans hup) hclean, taken_coll hmet, readBytes_taken hmet]
        rfl
  case retrain =>
    intro pk s z c hmet
    dsimp only
    intro hdie hidle
    change execMemRetrain pk s = _
    unfold execMemRetrain
    refine onSys_eq ((execCommand_go hmet ?_ ?_).trans ?_)
    · rw [meets_mem hmet, hidle]
      rfl
    · exact firstFail_cons (decide_eq_false (Nat.not_lt.mpr hdie)) rfl
    · rw [taken_mem hmet, taken_t hmet]

/-! ### Yarn loads and stores (R257 to R259) -/

/-- Settles O4: the checks of each command pass, so it is taken up; a load takes its engine, and a store writes what it reads, which
stands as before the packet met its unit. -/
theorem yarnCommandsComplete : Obligations.YarnCommandsComplete := by
  unfold Obligations.YarnCommandsComplete
  refine ⟨?load, ?store⟩
  case load =>
    intro pk s z c hmet
    dsimp only
    intro hshuttle hquant hplain hkib hfields hnoScale hview hdesc hdest hscale hrange hscaleRange hmend hidle
    change execYarnLoad pk s = _
    unfold execYarnLoad
    refine onSys_eq (congrArg (trimCopies _) ((execCommand_go hmet ?_ ?_).trans ?_))
    · simp [mending_met hmet, yarnAt_met hmet, hmend, hidle]
    · refine firstFail_cons ((badShuttle_met hmet _).trans hshuttle) (firstFail_cons ?_ (firstFail_cons ?_
        (firstFail_cons hview (firstFail_cons ?_ rfl))))
      · cases hout : (loadOf pk).out with
        | none => rfl
        | some f =>
          obtain ⟨hblock, hsource, -⟩ := hquant f hout
          dsimp only
          have hfmt : ((loadOf pk).desc.fmt == some .fp32 || (loadOf pk).desc.fmt == some .bf16) = true := by
            rwa [Bool.or_eq_true, beq_iff_eq, beq_iff_eq]
          rw [hblock, hfmt]
          rfl
      · cases hout : (loadOf pk).out with
        | none => simpa [hkib, hfields, hplain hout] using hnoScale
        | some f =>
          obtain ⟨-, -, hrun⟩ := hquant f hout
          simpa [hkib, hfields, hrun] using hnoScale
      · simpa [hdesc, hdest, hscale, hrange] using hscaleRange
    · rw [yarnAt_taken hmet]
  case store =>
    intro pk s z c hmet
    dsimp only
    intro hshuttle hfields hplain hview hdesc hsrc hscaleSrc hrange hscaleRange hmend hidle hheld hfaces hclean
    change execYarnStore pk s = _
    unfold execYarnStore
    refine onSys_eq ((execCommand_go hmet ?_ ?_).trans ?_)
    · simp [mending_met hmet, yarnAt_met hmet, anyHeld_met hmet, hmend, hidle, hheld]
    · refine firstFail_cons ((badShuttle_met hmet _).trans hshuttle) (firstFail_cons ?_
        (firstFail_cons hview (firstFail_cons ?_ rfl)))
      · simpa [hfields] using hplain
      · simpa [hdesc, hsrc, hscaleSrc, hrange] using hscaleRange
    · have hfree : (storeRuns (descOf pk 1)).any (fun r => protectedHit (taken c z) (backIsFace c) r.1 r.2) = false := by
        rw [List.any_eq_false]
        intro r hr
        rw [protectedHit_taken hmet, hfaces r hr]
        exact Bool.false_ne_true
      simp only [ne_eq, ite_not] at hclean ⊢
      rw [hfree, if_neg Bool.false_ne_true, hclean]
      simp only [readBytes_taken hmet]

end Sys2Proof.Laws
end

section
/-! REGISTER ROWS. The writes of registers that have a row of their own. -/

namespace Sys2Proof.Laws

open Sys2Proof Sys2Proof.Machine Sys2Proof.Safety

/-! ### A row is the REG_WRITE of its register -/

section
variable {b r : Nat} {pk : Packet} {p : Perm} {y : Sys}

/-- A packet that names the register of a row is a REG_WRITE of it (R459). -/
theorem writeOf_named {i : Nat} (h : regName pk = (b, r, i)) : writeOf b r pk p y = writeCommand p pk y := by
  unfold writeOf
  rw [h]
  exact if_pos ⟨rfl, rfl⟩

end

section
variable {b r i : Nat} {pk : Packet} {s : State} {z : Sys} {c : Cmd} {k : InstKind}

/-- A write without BROADCAST writes at the index that it names alone (R459). -/
theorem writtenInsts_named (hname : regName pk = (b, r, i)) (hsingle : pf pk 0 63 1 = 0) : writtenInsts pk k = [i] := by
  unfold writtenInsts
  rw [hsingle, hname]
  rfl

/-- A write of a register that has index 0 alone writes there, with BROADCAST and without (R459, R461). -/
theorem writtenInsts_single (hname : regName pk = (b, r, 0)) : writtenInsts pk .single = [0] := by
  unfold writtenInsts
  rw [hname]
  split <;> rfl

/-- The registers after a write at one index. -/
theorem written_one {p : Perm} {y : Sys} (hname : regName pk = (b, r, i)) (hone : writtenInsts pk k = [i]) :
    written pk p k y = writeReg p b r i (BitVec.ofNat 64 (pw pk 1)) (BitVec.ofNat 64 (pw pk 2)) y := by
  unfold written
  rw [hname]
  dsimp only
  rw [hone]
  rfl

/-- A row's packet that meets its unit and is allowed writes its register at the one index that it names, and returns how many
it wrote; the request of a shutdown is no such row (R459, R625). -/
theorem writeOf_writes (hmet : WriteMeets pk s z c) (hallowed : WriteAllowed pk s.perm z c k) (hname : regName pk = (b, r, i))
    (hone : writtenInsts pk k = [i]) (hblock : b ≠ 0x15) :
    onSys s (writeOf b r pk) = onward s (finish c.id .ok [BitVec.ofNat 64 (writtenInsts pk k).length]
      (writeReg s.perm b r i (BitVec.ofNat 64 (pw pk 1)) (BitVec.ofNat 64 (pw pk 2)) (taken c z))) := by
  have hwrite := exec_regWrite hmet hallowed (fun h => hblock (by rw [← h.1, hname]))
  rw [written_one hname hone] at hwrite
  rw [← hwrite]
  exact onSys_eq (writeOf_named hname)

/-- An allowed write of PWR.SHUTDOWN that requests a shutdown begins it (R625). -/
theorem execShutdownRequest_begins (hmet : WriteMeets pk s z c) (hallowed : WriteAllowed pk s.perm z c k)
    (hname : regName pk = (0x15, 0x02, i))
    (hrequest : flag (BitVec.ofNat 64 (pw pk 1) &&& BitVec.ofNat 64 (pw pk 2)) 0 = true) :
    execShutdownRequest pk s = onward s (requestShutdown c (taken c z)) := by
  obtain ⟨hmeets, hsome⟩ := hmet
  obtain ⟨-, rfl⟩ := meets_packet hmeets
  refine onSys_eq ?_
  rw [writeOf_named hname, writeCommand_eq hsome, execCommand_go hmeets rfl (writeCheck_of_allowed hallowed)]
  unfold writeEffect
  rw [hname]
  exact if_pos ⟨rfl, rfl, hrequest⟩

end

/-! ### What the rows write -/

section
variable {p : Perm} {data mask : Word64} {y : Sys}

/-- A write of COLL.SELF makes it valid and renews identity (R323, R372). -/
theorem writeReg_collSelf (h : fld mask 0 10 ≠ 0) : writeReg p 0x0A 0x00 0 data mask y =
    setAgreed (sendIdentities (List.range 64) { y with coll :=
      { y.coll with selfDev := BitVec.ofNat 10 (fld (mergeBits (regValue p y 0x0A 0x00 0) data mask) 0 10), selfValid := true } }) :=
  if_neg h

/-- A write of YARN.CTL that clears RUNAHEAD_EN cancels the run-ahead of the die (R242, R267). -/
theorem writeReg_runaheadOff {d : Nat} (h : flag (mergeBits (regValue p y 0x06 0x00 d) data mask) 0 = false) :
    writeReg p 0x06 0x00 d data mask y = cancelRunahead d (onDie d (fun m => { m with
      runaheadEn := false, defaultKib := BitVec.ofNat 16 (fld (mergeBits (regValue p y 0x06 0x00 d) data mask) 16 16) }) y) := by
  unfold writeReg
  dsimp only
  rw [h]
  rfl

end

/-- Settles O17: each row is the REG_WRITE of its register, which its conditions allow, and writes at the one index that it names;
the rows are commands of their own (log 75), and the shutdown begins once its reply has left (log 67). -/
theorem registerRowsComplete : Obligations.RegisterRowsComplete := by
  unfold Obligations.RegisterRowsComplete
  intro pk s z c k hmet hallowed
  dsimp only
  have hkind := (writeAllowed_iff.mp hallowed).1
  refine ⟨?self, ?runahead, ?mode, ?pointer, ?shutdown⟩
  case self =>
    intro hname hmask
    rw [hname] at hkind
    obtain rfl : .single = k := Option.some.inj hkind
    refine (writeOf_writes hmet hallowed hname (writtenInsts_single hname) (by decide) : execCollSelfWrite pk s = _).trans ?_
    rw [writeReg_collSelf hmask]
  case runahead =>
    intro d hname hsingle hoff
    refine (writeOf_writes hmet hallowed hname (writtenInsts_named hname hsingle) (by decide) : execRunaheadDisable pk s = _).trans ?_
    rw [writeReg_runaheadOff hoff]
  case mode =>
    intro i hname hsingle
    exact writeOf_writes hmet hallowed hname (writtenInsts_named hname hsingle) (by decide)
  case pointer =>
    intro u hname hsingle
    exact writeOf_writes hmet hallowed hname (writtenInsts_named hname hsingle) (by decide)
  case shutdown =>
    intro hname hrequest
    exact execShutdownRequest_begins hmet hallowed hname hrequest

end Sys2Proof.Laws
end

section
/-! CHANNELS. What the channels of bonded DRAM, the prefetch directories and the scrubs do. -/

namespace Sys2Proof.Laws

open Sys2Proof Sys2Proof.Machine Sys2Proof.Safety

/-! ### Serving a granule (R225 to R227, R230) -/

section
variable {y : Sys} {g source : Nat}

theorem setHas_iff {l : List Nat} {x : Nat} : setHas l x = true ↔ x ∈ l := List.elem_iff

theorem setHas_eq_false {l : List Nat} {x : Nat} : setHas l x = false ↔ x ∉ l := by
  rw [Bool.eq_false_iff, Ne, setHas_iff]

/-- A poisoned granule is reported, whatever its code would find. -/
theorem serveRead_poisoned (h : g ∈ y.mem.poison) (wrong : Nat) : serveRead g source wrong y = reportGranule g source y :=
  if_pos (setHas_iff.mpr h)

/-- What a granule that is not poisoned reads as: clean, one wrong symbol corrected, or two found. -/
theorem serveRead_unpoisoned (h : g ∉ y.mem.poison) :
    serveRead g source 0 y = y ∧ serveRead g source 1 y = countCorr (stackOf (g * 64)) y ∧
      serveRead g source 2 y = reportGranule g source (poisonGranule g y) := by
  have hclean := setHas_eq_false.mpr h
  simp [serveRead, readCode, hclean]

/-- A write of a granule that is not poisoned, or of all of it, is stored and sends its kills. -/
theorem serveWrite_stores {mask : BitVec 64} {a t : Nat} (h : t ∉ y.mem.poison ∨ mask = BitVec.allOnes 64) (data : BitVec 512) :
    serveWrite a t mask data y = { y with mem :=
      { putCells y.mem (t * 64) (mergeBytes mask (readBytes y (a * 64) 64) (leBytes 64 data.toNat)) with
        poison := setDel y.mem.poison t, writes := y.mem.writes ++ [{ granule := t, kills := holders y t }] } } := by
  refine if_neg ?_
  rcases h with hclean | rfl
  · simp [setHas_eq_false.mpr hclean]
  · simp

end

/-! ### The events -/

section
variable {s : State} {g source wrong : Nat}

theorem execDramRead_serves (hg : g * 64 < dramEnd) (hup : isUp s.sys = true) (hlo : 1 ≤ source) (hhi : source ≤ 8)
    (hfree : retraining s.sys (translateAddr s.sys (g * 64) / 64) = false) :
    execDramRead g source wrong s = onward s (serveRead (translateAddr s.sys (g * 64) / 64) source wrong s.sys) := by
  refine (if_neg (Nat.not_le.mpr hg)).trans (onSys_eq (if_neg ?_))
  simp [hup, hfree, Nat.ne_of_gt hlo, hhi]

theorem execDramWrite_serves {mask : BitVec 64} {data : BitVec 512} (hg : g * 64 < dramEnd) (hup : isUp s.sys = true)
    (hmask : mask ≠ 0) (hfree : retraining s.sys (translateAddr s.sys (g * 64) / 64) = false)
    (hface : protectedHit s.sys true (g * 64) 64 = false) :
    execDramWrite g mask data s = onward s (serveWrite g (translateAddr s.sys (g * 64) / 64) mask data s.sys) := by
  refine (if_neg (Nat.not_le.mpr hg)).trans (onSys_eq (if_neg ?_))
  simp only [hup, hfree, hmask, hface, reduceCtorEq, or_self, not_false_eq_true]

/-- The retraining in progress ends within 40 µs, recorded, and its command finishes; one that trained first activates a
pending image of the channel (R254, R255, R263, R592). -/
theorem execMemRetrainDone_ends {ok : Bool} {pause : Nat} {r : Retrain} (hretrain : s.sys.mem.retrain = some r)
    (hpower : powered s.sys = true) (hpause : pause ≤ 40000) :
    execMemRetrainDone ok pause s = onwardAll s
      (let y := recordEvent 1 0x0011 (r.stack * 2 ^ 8 + r.channel) (pause + b2n (!ok) * 2 ^ 32)
        { s.sys with mem := { s.sys.mem with retrain := none } }
      let x := if ok then activateUnit 5 (256 * r.stack + r.channel) true (s.perm, y) else (s.perm, y)
      (x.1, finish r.cmd (if ok then .ok else .retrainFailed) [BitVec.ofNat 64 pause] x.2)) := by
  refine onAll_eq ?_
  dsimp only
  rw [hretrain]
  exact if_neg (by simp [hpower, hpause])

end

/-- Settles O27: each event whose guard holds acts. The number of wrong symbols is an operand (log 97); three or more are left
out. -/
theorem channelEventsComplete : Obligations.ChannelEventsComplete := by
  unfold Obligations.ChannelEventsComplete
  refine ⟨?read, ?write, ?kill, ?complete, ?scrub, ?retrain⟩
  case read =>
    intro s g source wrong hg hup hlo hhi
    dsimp only
    intro hfree
    have hexec := execDramRead_serves (wrong := wrong) hg hup hlo hhi hfree
    refine ⟨fun hpoison => hexec.trans ?_, fun hclean => ?_⟩
    · rw [serveRead_poisoned hpoison]
    · obtain ⟨hzero, hone, htwo⟩ := serveRead_unpoisoned (source := source) hclean
      refine ⟨?_, ?_, ?_⟩
      · rintro rfl
        exact hexec.trans (by rw [hzero])
      · rintro rfl
        exact hexec.trans (by rw [hone])
      · rintro rfl
        exact hexec.trans (by rw [htwo]; rfl)
  case write =>
    intro s g mask data hg hup hmask
    dsimp only
    intro hfree hface hwhole _
    exact (execDramWrite_serves hg hup hmask hfree hface).trans (by rw [serveWrite_stores hwhole])
  case kill =>
    intro s n g ⟨w, hw, hgranule, hkill⟩
    refine (onSys_eq (if_pos ?_) : execKill n g s = _)
    rw [List.any_eq_true]
    exact ⟨w, hw, by simp [hgranule, hkill]⟩
  case complete =>
    intro s g w hfind hkills
    refine (onSys_eq ?_ : execWriteComplete g s = _)
    dsimp only
    rw [hfind]
    exact if_pos hkills
  case scrub =>
    intro s stack wrong hup hstack hruns
    dsimp only
    intro hon hfree
    refine (onSys_eq (if_neg ?_) : execScrubRead stack wrong s = _)
    simp only [hup, Nat.not_lt.mpr hstack, hruns, hon, hfree, reduceCtorEq, or_self, not_false_eq_true]
  case retrain =>
    intro s pause r hretrain hpower hpause
    have hexec (ok : Bool) := execMemRetrainDone_ends (ok := ok) hretrain hpower hpause
    exact ⟨hexec false, hexec true⟩

end Sys2Proof.Laws
end

section
/-! ARBITRATION. Which requester a round of an arbiter grants. -/

namespace Sys2Proof.Laws

open Sys2Proof Sys2Proof.Machine Sys2Proof.Safety

/-! ### Preference between requesters (R249) -/

theorem winsOver_iff {a b : Requester} : winsOver a b = true ↔ effective b < effective a ∨
    (effective a = effective b ∧ (a.since < b.since ∨ (a.since = b.since ∧ a.index < b.index))) := by
  simp [winsOver]

/-- No requester is preferred to itself. -/
theorem winsOver_irrefl (a : Requester) : winsOver a a = false := by
  simp [winsOver]

/-- A requester that is preferred to another has no such requester preferred to it. -/
theorem winsOver_asymm {a b : Requester} (h : winsOver a b = true) : winsOver b a = false := by
  rw [Bool.eq_false_iff, Ne, winsOver_iff]
  rw [winsOver_iff] at h
  omega

/-- If a is not preferred to b, nor b to c, then a is not preferred to c. -/
theorem winsOver_false_trans {a b c : Requester} (hab : winsOver a b = false) (hbc : winsOver b c = false) :
    winsOver a c = false := by
  rw [Bool.eq_false_iff, Ne, winsOver_iff] at hab hbc ⊢
  omega

/-! ### The winner of a round (R249) -/

theorem roundWinner_isSome {l : List Requester} (h : l ≠ []) : ∃ w, roundWinner l = some w := by
  cases l with
  | nil => exact absurd rfl h
  | cons r rs =>
    cases hrest : roundWinner rs with
    | none => exact ⟨r, by rw [roundWinner, hrest]⟩
    | some w =>
      refine ⟨if winsOver w r then w else r, ?_⟩
      rw [roundWinner, hrest]
      dsimp only
      split <;> rfl

theorem roundWinner_eq_none {l : List Requester} (h : roundWinner l = none) : l = [] := by
  cases l with
  | nil => rfl
  | cons r rs =>
    obtain ⟨w, hw⟩ := roundWinner_isSome (List.cons_ne_nil r rs)
    rw [hw] at h
    cases h

/-- The winner of a round waits, and no waiting requester is preferred to it. -/
theorem roundWinner_spec {l : List Requester} {w : Requester} (h : roundWinner l = some w) :
    w ∈ l ∧ ∀ r ∈ l, winsOver r w = false := by
  induction l generalizing w with
  | nil => cases h
  | cons r rs ih =>
    rw [roundWinner] at h
    split at h
    next hrest =>
      cases h
      rw [roundWinner_eq_none hrest]
      simp [winsOver_irrefl]
    next v hrest =>
      obtain ⟨hmem, hbest⟩ := ih hrest
      split at h
      next hwins =>
        cases h
        exact ⟨List.mem_cons_of_mem r hmem, List.forall_mem_cons.mpr ⟨winsOver_asymm hwins, hbest⟩⟩
      next hloses =>
        cases h
        have hv := Bool.eq_false_iff.mpr hloses
        refine ⟨List.mem_cons_self, List.forall_mem_cons.mpr ⟨winsOver_irrefl r, fun q hq => ?_⟩⟩
        exact winsOver_false_trans (hbest q hq) hv

/-- A round among waiting requesters grants the winner at its effective priority, and every other one grows older (R249). -/
theorem arbRound_grants {x : Arbiter} {w : Requester} (h : roundWinner x.waiting = some w) :
    arbRound x = { waiting := (x.waiting.filter (fun r => r.index != w.index)).map older,
                   grant := some ({ w with age := 0 }, effective w), idle := false } := by
  unfold arbRound
  rw [h]

/-! ### The base priority of a requester (R229, R248, R541) -/

/-- The base priority of a request is the lane of the command that issues it, or 0. -/
theorem basePriority_eq {y : Sys} {i : Issuer} {b : Nat} (hlane : ∀ id, i = .command id → (findCmd y id).map (fun c => c.lane) = some b)
    (hzero : (∀ id, i ≠ .command id) → b = 0) : basePriority y i = some b := by
  cases i with
  | command id => exact hlane id rfl
  | scrub => rw [hzero fun _ => Issuer.noConfusion]; rfl
  | observation => rw [hzero fun _ => Issuer.noConfusion]; rfl

/-! ### Preemption (R250) -/

/-- The arbiter after a newcomer has met a grant made at a frozen priority: the newcomer takes the grant, and the one that
held it waits for the beats left to it, or the newcomer waits. -/
def preempted (y : Sys) (a : Nat) (x : Arbiter) (holder newcomer : Requester) (frozen left : Nat) : Arbiter :=
  if frozen < effective newcomer ∧ bankHeld y a = false then
    { x with waiting := x.waiting ++ [older { holder with beats := left }], grant := some (newcomer, effective newcomer) }
  else { x with waiting := x.waiting ++ [newcomer] }

/-- A requester that does not wait yet arrives while the grant of another is in progress (R250). -/
theorem execPreemption_meets {s : State} {a doneBeats b : Nat} {r : Arrival} {h : Requester} {frozen : Nat}
    (hup : isUp s.sys = true) (hbase : basePriority s.sys r.issuer = some b)
    (hgrant : (mapGet ({} : Arbiter) s.sys.arb a).grant = some (h, frozen))
    (hnew : ∀ q ∈ (mapGet ({} : Arbiter) s.sys.arb a).waiting, q.index ≠ r.index) (hother : r.index ≠ h.index)
    (hdone : doneBeats < h.beats) :
    execPreemption a r doneBeats s = onward s { s.sys with
      arb := mapSet {} s.sys.arb a (preempted s.sys a (mapGet {} s.sys.arb a) h
        { index := r.index, base := b, since := s.sys.t.timeBase, beats := r.beats } frozen (h.beats - doneBeats)) } := by
  refine onSys_eq ?_
  unfold preempted
  dsimp only
  rw [hgrant, hbase]
  exact if_neg (by simpa [hup, hother, hdone] using hnew)

/-- Settles O29: a round grants the requester to which none is preferred, and a newcomer takes a grant of lower priority or waits.
Scrubs and observation have base priority 0 (R229, R541), and a bank whose channel retrains holds no round (R254). -/
theorem arbitersGrantThePreferred : Obligations.ArbitersGrantThePreferred := by
  unfold Obligations.ArbitersGrantThePreferred
  refine ⟨?round, ?preemption⟩
  case round =>
    intro s a arrivals hup
    dsimp only
    refine ⟨fun hheld => ?_, fun hheld hwaiting => ?_⟩
    · refine (onSys_eq ?_ : execArbitrationRound a arrivals false s = _)
      simp [hup, hheld]
    · obtain ⟨w, hw⟩ := roundWinner_isSome hwaiting
      obtain ⟨hmem, hbest⟩ := roundWinner_spec hw
      refine ⟨w, hmem, fun r hr => .inl (hbest r hr), (onSys_eq ?_ : execArbitrationRound a arrivals false s = _)⟩
      dsimp only
      rw [if_neg (by simp [hup]), if_neg (by simp [hheld]), if_neg (by simp), arbRound_grants (by exact hw)]
  case preemption =>
    intro s a doneBeats b r h frozen hup hlane hzero
    dsimp only
    intro hgrant hnew hother hdone
    have hexec := execPreemption_meets hup (basePriority_eq hlane hzero) hgrant hnew hother hdone
    refine ⟨fun hhigher hfree => hexec.trans ?_, fun hwaits => hexec.trans ?_⟩
    · rw [preempted, if_pos ⟨hhigher, hfree⟩]
    · rw [preempted, if_neg]
      rintro ⟨hhigher, hfree⟩
      rcases hwaits with hlower | hheld
      · exact absurd hhigher (Nat.not_lt.mpr hlower)
      · rw [hfree] at hheld
        cases hheld

end Sys2Proof.Laws
end

section
/-! OUTCOMES. Which commands can stop, and with what. -/

namespace Sys2Proof.Laws

open Sys2Proof Sys2Proof.Machine Sys2Proof.Safety

/-- The commands that may answer something else than a next state. -/
def mayStop : Instr → Bool
  | .dramRead _ _ _ | .dramWrite _ _ _ | .testAccessPort _ => true
  | _ => false

/-- Every other command has a meaning that always answers a next state. -/
theorem exec_next {i : Instr} (h : mayStop i = false) (s : State) : ∃ t, exec i s = .next t := by
  cases i with
  | dramRead g source wrong => cases h
  | dramWrite g mask data => cases h
  | testAccessPort ti => cases h
  | _ => exact ⟨_, rfl⟩

/-- A command that touches a granule of bonded DRAM stops where the granule does not exist (R221; log 93). -/
theorem granule_next_or_fault {g : Nat} {f : Perm → Sys → Sys} {s : State} {o : Host.Outcome State Fault Refusal}
    (ho : o = if dramEnd ≤ g * 64 then .fault .noSuchAddress else onSys s f) :
    (∃ t, o = .next t) ∨ (dramEnd ≤ g * 64 ∧ o = .fault .noSuchAddress) := by
  subst ho
  by_cases hg : dramEnd ≤ g * 64
  · exact .inr ⟨hg, if_pos hg⟩
  · exact .inl ⟨_, if_neg hg⟩

/-- The test access port stops at a debug instruction while it is open and powered, and nowhere else (R612; log 92). -/
theorem testAccessPort_next_or_refused (ti : TapInstr) (s : State) : (∃ t, execTestAccessPort ti s = .next t) ∨
    ((∃ k, ti = .debug k) ∧ s.perm.elements < 2 ∧ s.sys.pwr.vaux = true ∧ execTestAccessPort ti s = .refused .tapInstruction) := by
  unfold execTestAccessPort
  cases hclosed : debugOff s.perm || !s.sys.pwr.vaux with
  | true => exact .inl ⟨_, if_pos rfl⟩
  | false =>
    cases ti with
    | boundaryScan => exact .inl ⟨_, rfl⟩
    | readAccumulator a => exact .inl ⟨_, rfl⟩
    | debug k =>
      obtain ⟨hopen, hvaux⟩ := Bool.or_eq_false_iff.mp hclosed
      exact .inr ⟨⟨k, rfl⟩, Nat.not_le.mp (of_decide_eq_false hopen), by simpa using hvaux, rfl⟩

/-- Settles O47: a command that cannot stop answers a next state, and the three that can stop do so for the reasons named. Both
stops are the model's own: the fault for a granule that does not exist (log 93), and the refusal of a debug instruction (log 92). -/
theorem stopsAreNamed : Obligations.StopsAreNamed := by
  unfold Obligations.StopsAreNamed
  intro i s
  cases hstop : mayStop i with
  | false => exact .inl (exec_next hstop s)
  | true =>
    cases i with
    | dramRead g source wrong =>
      exact (granule_next_or_fault rfl).imp_right fun ⟨hend, hfault⟩ => .inl ⟨⟨g, .inl ⟨source, wrong, rfl⟩, hend⟩, hfault⟩
    | dramWrite g mask data =>
      exact (granule_next_or_fault rfl).imp_right fun ⟨hend, hfault⟩ => .inl ⟨⟨g, .inr ⟨mask, data, rfl⟩, hend⟩, hfault⟩
    | testAccessPort ti =>
      refine (testAccessPort_next_or_refused ti s).imp_right fun ⟨⟨k, hk⟩, hopen, hvaux, hrefused⟩ => .inr ?_
      exact ⟨⟨k, congrArg _ hk⟩, hopen, hvaux, hrefused⟩
    | _ => cases hstop

end Sys2Proof.Laws
end

section
/-! COLLECTIVE COMMANDS. Routes, link resets, bucket records and the start of buckets: their checks pass, and what they do then. -/

namespace Sys2Proof.Laws

open Sys2Proof Sys2Proof.Machine Sys2Proof.Safety

/-! ### What the commands read where their packet met its unit, and where they were taken up -/

section
variable {op : Nat} {layout : List Nat} {bad : Bool} {pk : Packet} {s : State} {z : Sys} {c : Cmd}

theorem fwdEntries_met (h : Meets op layout bad pk s z c) (a : Nat) : fwdEntries z a = fwdEntries s.sys a := by
  unfold fwdEntries
  rw [readBytes_congr (meets_mem h) (meets_smap h)]

theorem ownEntryUsed_met (h : Meets op layout bad pk s z c) (es : List Nat) : ownEntryUsed z es = ownEntryUsed s.sys es := by
  unfold ownEntryUsed
  rw [meets_coll h]

theorem routeOf_met (h : Meets op layout bad pk s z c) : routeOf pk z = routeOf pk s.sys := by
  simp only [routeOf, readNat_congr (meets_mem h) (meets_smap h)]

theorem badMembers_met (h : Meets op layout bad pk s z c) (r : Route) (a : Nat) : badMembers z r a = badMembers s.sys r a := by
  simp only [badMembers, badMemberBits, readNat_congr (meets_mem h) (meets_smap h), ownNumber_met h, meets_stp h]

theorem badPeers_met (h : Meets op layout bad pk s z c) (r : Route) : badPeers z r = badPeers s.sys r := by
  simp only [badPeers, badPeer, portAt, meets_lnk h]

theorem routeAt_met (h : Meets op layout bad pk s z c) (k : Nat) : routeAt z k = routeAt s.sys k := by
  unfold routeAt
  rw [meets_coll h]

theorem bucketsRunning_met (h : Meets op layout bad pk s z c) : bucketsRunning z = bucketsRunning s.sys := by
  unfold bucketsRunning
  rw [meets_coll h]

theorem strandDown_met (h : Meets op layout bad pk s z c) (r : Route) : strandDown z r = strandDown s.sys r := by
  simp only [strandDown, portUp_congr (meets_lnk h)]

theorem usedTags_met (h : Meets op layout bad pk s z c) (shadow : Bool) : usedTags z shadow = usedTags s.sys shadow := by
  unfold usedTags
  rw [meets_coll h]

theorem badReduceAddr_met (h : Meets op layout bad pk s z c) (b : Bucket) : badReduceAddr z b = badReduceAddr s.sys b := by
  simp only [badReduceAddr, routeAt_met h, mapHit_congr (meets_smap h)]

theorem fwdEntries_taken (h : Meets op layout bad pk s z c) (a : Nat) : fwdEntries (taken c z) a = fwdEntries s.sys a := by
  unfold fwdEntries
  rw [readBytes_taken h]

theorem routeOf_taken (h : Meets op layout bad pk s z c) : routeOf pk (taken c z) = routeOf pk s.sys := by
  simp only [routeOf, readNat_taken h]

theorem routeAt_taken (h : Meets op layout bad pk s z c) (k : Nat) : routeAt (taken c z) k = routeAt s.sys k := by
  unfold routeAt
  rw [taken_coll h]

theorem pickNow_taken (h : Meets op layout bad pk s z c) : pickNow (taken c z) = pickNow s.sys := by
  unfold pickNow
  rw [taken_t h]

end

/-! ### Forwarding, routes, link resets and bucket records (R324 to R328, R357, R362, R363, R367, R368) -/

section
variable {y : Sys}

/-- A forwarding table passes whose entries name ports that are UP, the twin link or no route, and which has no entry for the device
itself (R324, R362). -/
theorem fwdChecks_pass {es : List Nat} (hentries : ∀ e ∈ es, e < 0x40 ∧ portUp y e = true ∨ 0xFE ≤ e)
    (hown : ownEntryUsed y es = false) :
    firstFail [(es.any (fun e => decide (0x40 ≤ e ∧ e ≤ 0xFD)), .encodingReserved),
      (ownEntryUsed y es || es.any (fun e => decide (e < 0x40) && !portUp y e), .paramRange)] = none := by
  refine firstFail_cons ?_ (firstFail_cons ?_ rfl)
  · rw [List.any_eq_false]
    intro e he hreserved
    have hrange := of_decide_eq_true hreserved
    rcases hentries e he with ⟨hport, -⟩ | hspecial <;> omega
  · rw [hown, Bool.false_or, List.any_eq_false]
    intro e he hdown
    simp only [Bool.and_eq_true, decide_eq_true_eq, Bool.not_eq_true'] at hdown
    rcases hentries e he with ⟨-, hup⟩ | hspecial
    · rw [hup] at hdown
      exact Bool.noConfusion hdown.2
    · omega

/-- A LOAD passes whose fields, list, members and peers are as R325, R327 and R363 ask. -/
theorem routeLoadCheck_pass {p : Perm} {pk : Packet} (hfields : badRouteFields pk y = false)
    (hclosed : fileClosed p [(pw pk 1, 4 * pf pk 0 48 10)] = false) (haligned : aligned64 (pw pk 1) = true)
    (hdram : inDram (pw pk 1) (4 * pf pk 0 48 10) = true) (hfree : (routeAt y (pf pk 0 0 4)).loaded = false)
    (hclean : consume 8 (pw pk 1) (4 * pf pk 0 48 10) y = none) (hmembers : badMembers y (routeOf pk y) (pw pk 1) = false)
    (hpeers : badPeers y (routeOf pk y) = false) : routeLoadCheck p pk y = none := by
  have hfirst : firstFail [(badRouteFields pk y, .paramRange), (fileClosed p [(pw pk 1, 4 * pf pk 0 48 10)], .debugClosed),
      (!aligned64 (pw pk 1) || !inDram (pw pk 1) (4 * pf pk 0 48 10), .addrRange), ((routeAt y (pf pk 0 0 4)).loaded, .routeBusy)] =
      none :=
    firstFail_cons hfields (firstFail_cons hclosed (firstFail_cons (by rw [haligned, hdram]; rfl) (firstFail_cons hfree rfl)))
  unfold routeLoadCheck
  dsimp only
  rw [hfirst, hclean]
  exact firstFail_cons hmembers (firstFail_cons hpeers rfl)

/-- A LOAD whose member list holds no poison loads its route and answers with the CRC of the list and its neighbours (R328,
R363). -/
theorem routeLoad_clean {c : Cmd} (hclean : consume 8 (pw c.pkt 1) (4 * pf c.pkt 0 48 10) y = none) :
    routeLoad c y =
      let r := routeOf c.pkt y
      let w1 := memberAt r (nextPos r r.selfPos) + memberAt r (prevPos r r.selfPos) * 2 ^ 16
      finish c.id .ok [BitVec.ofNat 64 (crc32c (readBytes y (pw c.pkt 1) (4 * pf c.pkt 0 48 10))), BitVec.ofNat 64 w1]
        { y with coll := { y.coll with routes := mapSet {} y.coll.routes (pf c.pkt 0 0 4) r } } := by
  unfold routeLoad
  dsimp only
  rw [hclean]

/-- Records are written where their range is free of face ranges, and answered with their number and the digest of all (R357, R367). -/
theorem writeRecords_writes {c : Cmd} {l : List BucketRec} {dst max : Nat}
    (hfree : protectedHit y (backIsFace c) dst (32 * ((byTag l).take max).length) = false) :
    writeRecords c l dst max y =
      let out := (byTag l).take max
      finish c.id .ok [BitVec.ofNat 64 out.length, collectiveDigest y l] (writeBytes (some c.id) dst (out.flatMap recordBytes) y) := by
  unfold writeRecords
  dsimp only
  rw [hfree, if_neg Bool.false_ne_true]

/-- The collective digest depends on the digest key and the records alone (R357). -/
theorem collectiveDigest_congr {z : Sys} (hc : y.coll = z.coll) (l : List BucketRec) : collectiveDigest y l = collectiveDigest z l := by
  unfold collectiveDigest
  rw [digestKey_congr hc]

end

/-- Settles O9: the checks of each command pass, so it is taken up; the tables, links and records that it changes stand as before the
packet met its unit. -/
theorem routeCommandsComplete : Obligations.RouteCommandsComplete := by
  unfold Obligations.RouteCommandsComplete
  refine ⟨?forward, ?route, ?reset, ?records⟩
  case forward =>
    intro pk s z c hmet
    dsimp only
    intro hclosed haligned hdram hheld hcleanMet hclean hentries hown
    change execWarpFwdSet pk s = _
    unfold execWarpFwdSet
    refine onSys_eq ((execCommand_go hmet ?_ ?_).trans ?_)
    · rw [rangeHeld_met hmet, hheld]
      rfl
    · simp only [hclosed, haligned, hdram, hcleanMet, fwdEntries_met hmet, Bool.not_true, Bool.or_self, Option.isSome_none,
        Bool.false_eq_true, if_false]
      refine fwdChecks_pass (fun e he => ?_) ((ownEntryUsed_met hmet _).trans hown)
      rw [portUp_congr (meets_lnk hmet)]
      exact hentries e he
    · rw [hclean]
      dsimp only
      rw [fwdEntries_taken hmet, taken_coll hmet]
  case route =>
    intro pk s z c hmet
    dsimp only
    constructor
    · intro haction hfields hunused
      change execRouteSet pk s = _
      unfold execRouteSet
      rw [haction]
      refine onSys_eq ((execCommand_go hmet rfl ?_).trans ?_)
      · refine firstFail_cons hfields (firstFail_cons ?_ rfl)
        unfold routeInUse
        rw [bucketsRunning_met hmet]
        exact hunused
      · rw [taken_coll hmet]
        rfl
    · intro haction hfields hclosed hheld haligned hdram hfree hcleanMet hclean hmembers hpeers
      have hload : (pf pk 0 8 2 == 1) = false := by simpa using haction
      obtain ⟨-, hpk⟩ := meets_packet hmet
      change execRouteSet pk s = _
      unfold execRouteSet
      rw [hload]
      refine onSys_eq ((execCommand_go hmet ?_ ?_).trans ?_)
      · rw [rangeHeld_met hmet, hheld]
        rfl
      · refine routeLoadCheck_pass ?_ hclosed haligned hdram ?_ hcleanMet ?_ ?_
        · unfold badRouteFields
          rw [meets_stp hmet]
          exact hfields
        · rw [routeAt_met hmet, hfree]
        · rw [routeOf_met hmet, badMembers_met hmet, hmembers]
        · rw [routeOf_met hmet, badPeers_met hmet, hpeers]
      · refine (routeLoad_clean (by rw [hpk]; exact hclean)).trans ?_
        dsimp only
        rw [hpk, routeOf_taken hmet, readBytes_taken hmet, taken_coll hmet]
  case reset =>
    intro pk s z c hmet
    dsimp only
    intro hidle hreset
    change execLinkReset pk s = _
    unfold execLinkReset
    refine onAll_eq ?_
    rw [meetUnit_go hmet ?_ ?_]
    · rw [meets_lnk hmet, hreset]
      rfl
    · exact firstFail_cons hidle rfl
  case records =>
    intro pk s z c hmet
    dsimp only
    intro haligned hdram hheld hfree
    change execBktDigestRead pk s = _
    unfold execBktDigestRead
    refine onSys_eq ((execCommand_go hmet ?_ ?_).trans ?_)
    · dsimp only
      rw [meets_coll hmet, rangeHeld_met hmet, hheld]
      rfl
    · refine firstFail_cons ?_ rfl
      dsimp only
      rw [meets_coll hmet, haligned, hdram]
      rfl
    · dsimp only
      rw [taken_coll hmet, writeRecords_writes ((protectedHit_taken hmet _ _ _).trans hfree), collectiveDigest_congr (taken_coll hmet)]

/-! ### The start of a bucket (R329, R330, R347, R353, R354, R361) -/

section
variable {c : Cmd} {b : Bucket} {y : Sys}

/-- The state checks of a bucket command pass on a loaded route whose strands are up, for a count that fills them and a tag that is
new (R329, R330, R358, R368). -/
theorem bucketStateChecks_pass {route count tag : Nat} {shadow : Bool} (hloaded : (routeAt y route).loaded = true)
    (hcount : (routeAt y route).p * (routeAt y route).strands.length ≤ count) (hup : strandDown y (routeAt y route) = false)
    (htag : tag ∉ usedTags y shadow) (hroom : (usedTags y shadow).length < 16384) :
    firstFail (bucketStateChecks y route count tag shadow) = none := by
  refine firstFail_cons ?_ (firstFail_cons ?_ (firstFail_cons hup (firstFail_cons ?_ (firstFail_cons ?_ rfl))))
  · rw [hloaded]
    rfl
  · exact decide_eq_false (Nat.not_lt.mpr hcount)
  · simpa using htag
  · exact decide_eq_false (Nat.not_le.mpr hroom)

/-- The source of a reduction is FP32 or BF16 (R364). -/
theorem reduceFormat_pass {fmt : Nat} (h : fmt ∈ [0x22, 0x20]) : (fmt != 0x22 && fmt != 0x20) = false := by
  obtain rfl | rfl : fmt = 0x22 ∨ fmt = 0x20 := by simpa using h
  · rfl
  · rfl

/-- On a loaded route the own shard is the one of its position (R330). -/
theorem ownShardLen_loaded {r : Route} {count : Nat} (hloaded : r.loaded = true) :
    ownShardLen r count = shardLen count r.p r.selfPos :=
  if_pos hloaded

@[simp] theorem startBucket_smap (c : Cmd) (b : Bucket) (y : Sys) : (startBucket c b y).smap = y.smap := by
  unfold startBucket useTag
  split <;> rfl

@[simp] theorem startBucket_t (c : Cmd) (b : Bucket) (y : Sys) : (startBucket c b y).t = y.t := by
  unfold startBucket useTag
  split <;> rfl

@[simp] theorem routeAt_startBucket (c : Cmd) (b : Bucket) (y : Sys) (k : Nat) : routeAt (startBucket c b y) k = routeAt y k := by
  unfold startBucket useTag
  split <;> rfl

/-- A command that had no bucket finds the one that it has started. -/
theorem startBucket_find (hnew : ∀ x ∈ y.coll.buckets, x.cmd ≠ c.id) :
    ∃ x, (startBucket c b y).coll.buckets.find? (fun x => x.cmd == c.id) = some x ∧ x.tag = b.tag ∧ x.gather = b.gather := by
  have hnone : y.coll.buckets.find? (fun x => x.cmd == c.id) = none := by simpa using hnew
  unfold startBucket useTag
  split <;> simp [List.find?_append, hnone]

/-- A gather whose destination is free of face ranges and whose shard holds no poison sends its shard and copies it into DST
(R353, R354). -/
theorem startGather_sends {x : Bucket} {r : Route} (hr : r = routeAt y b.route)
    (hfind : (startBucket c b y).coll.buckets.find? (fun x => x.cmd == c.id) = some x)
    (hfree : protectedHit y false b.dst (b.esize * b.count) = false)
    (hclean : consume 5 b.src (b.esize * shardLen b.count r.p r.selfPos) (startBucket c b y) = none) :
    startGather c b y = writeBytes (some c.id) (b.dst + b.esize * shardFirst b.count r.p r.selfPos)
      (readBytes y b.src (b.esize * shardLen b.count r.p r.selfPos))
      (sendShard (openWindow x (pickNow y)) r 0 r.selfPos b.src (shardFirst b.count r.p r.selfPos)
        (putBucket (openWindow x (pickNow y)) (startBucket c b y))) := by
  have hpick : pickNow (startBucket c b y) = pickNow y := by
    unfold pickNow
    rw [startBucket_t]
  unfold startGather
  dsimp only
  rw [routeAt_startBucket, ← hr, hfind]
  dsimp only
  rw [protectedHit_congr (startBucket_smap c b y), hfree, hclean, readBytes_congr (startBucket_mem c b y) (startBucket_smap c b y),
    hpick]
  rfl

end

/-- Settles O10: the checks of each command pass, so it is taken up; its bucket starts, and the gather's own shard goes out. -/
theorem bucketCommandsStart : Obligations.BucketCommandsStart := by
  unfold Obligations.BucketCommandsStart
  refine ⟨?reduce, ?gather⟩
  case reduce =>
    intro pk s z c hmet
    dsimp only
    intro hdie hfmt hexpLo hexpHi hcountLo hcountHi hslot hclosed haddr hloaded hstrands hup htag hroom hrunning hface
    have hroute := routeAt_met hmet (reduceOf pk).route
    change execBktReduce pk s = _
    unfold execBktReduce
    refine onSys_eq ((execCommand_go hmet ?_ ?_).trans ?_)
    · unfold bucketRoom
      rw [bucketsRunning_met hmet]
      exact decide_eq_true hrunning
    · refine firstFail_append (firstFail_cons (decide_eq_false (Nat.not_lt.mpr hdie)) (firstFail_cons (reduceFormat_pass hfmt)
        (firstFail_cons ?_ (firstFail_cons hclosed (firstFail_cons ((badReduceAddr_met hmet _).trans haddr) rfl)))))
        (bucketStateChecks_pass ?_ ?_ ?_ ?_ ?_)
      · rw [decide_eq_false (Int.not_lt.mpr hexpLo), decide_eq_false (Int.not_lt.mpr hexpHi), decide_eq_false (Nat.not_lt.mpr hcountLo),
          decide_eq_false (Nat.not_lt.mpr hcountHi), decide_eq_false (Nat.not_lt.mpr hslot)]
        rfl
      · rwa [hroute]
      · rwa [hroute]
      · rwa [hroute, strandDown_met hmet]
      · rwa [usedTags_met hmet]
      · rwa [usedTags_met hmet]
    · dsimp only
      have hfree : (!c.shadow && protectedHit (startBucket c (reduceOf pk) (taken c z)) false (reduceOf pk).dst
          (8 * ownShardLen (routeAt (startBucket c (reduceOf pk) (taken c z)) (reduceOf pk).route) (reduceOf pk).count)) = false := by
        rw [routeAt_startBucket, routeAt_taken hmet, ownShardLen_loaded hloaded, protectedHit_congr (startBucket_smap _ _ _),
          protectedHit_taken hmet]
        rcases hface with hshadow | hfree
        · rw [hshadow]
          rfl
        · rw [hfree, Bool.and_false]
      rw [hfree, if_neg Bool.false_ne_true]
  case gather =>
    intro pk s z c hmet
    dsimp only
    intro hcountLo hcountHi hsrc hdst hsrcRange hdstRange hclosed hheld hdevice hloaded hstrands hup htag hroom hrunning hnew hfree hclean
    have hroute := routeAt_met hmet (gatherOf pk).route
    obtain ⟨x, hfind, hxtag, hxgather⟩ := startBucket_find (b := gatherOf pk) (y := taken c z) (by rw [taken_coll hmet]; exact hnew)
    refine ⟨x, List.mem_of_find?_eq_some hfind, by simpa using List.find?_some hfind, hxtag, hxgather, ?_⟩
    change execBktGather pk s = _
    unfold execBktGather
    refine onSys_eq ((execCommand_go hmet ?_ ?_).trans ?_)
    · unfold bucketRoom
      dsimp only
      rw [bucketsRunning_met hmet, anyHeld_met hmet, hroute, ownShardLen_loaded hloaded, hheld, decide_eq_true hrunning]
      rfl
    · refine firstFail_append (firstFail_cons ?_ (firstFail_cons ?_ (firstFail_cons ?_ (firstFail_cons hdevice rfl))))
        (bucketStateChecks_pass ?_ ?_ ?_ ?_ ?_)
      · rw [decide_eq_false (Nat.not_lt.mpr hcountLo), decide_eq_false (Nat.not_lt.mpr hcountHi)]
        rfl
      · dsimp only
        rwa [hroute, ownShardLen_loaded hloaded]
      · dsimp only
        rw [hroute, ownShardLen_loaded hloaded, hsrc, hdst, hsrcRange, hdstRange]
        rfl
      · rwa [hroute]
      · rwa [hroute]
      · rwa [hroute, strandDown_met hmet]
      · rwa [usedTags_met hmet, hdevice]
      · rwa [usedTags_met hmet, hdevice]
    · rw [startGather_sends (routeAt_taken hmet _).symm hfind ((protectedHit_taken hmet _ _ _).trans hfree) hclean, readBytes_taken hmet,
        pickNow_taken hmet]

end Sys2Proof.Laws
end

section
/-! BUCKET EVENTS. How the device deals with a bucket's conversion, with the packets that arrive for it, with its final shard and with
its twin. -/

namespace Sys2Proof.Laws

open Sys2Proof Sys2Proof.Machine Sys2Proof.Safety

/-! ### Buckets and what the events read -/

/-- A bucket that a tag names carries the tag, is in progress, and satisfies the test. -/
theorem bucketIs_spec {y : Sys} {tag : Nat} {test : Bucket → Bool} {b : Bucket} (h : bucketIs y tag test = some b) :
    b.tag = tag ∧ b.finished = false ∧ test b = true := by
  simpa [and_assoc] using List.find?_some h

/-- An event on a bucket in progress is done where no channel that it accesses retrains; a gather's waits for none (R254). -/
theorem onBucket_found {y : Sys} {tag : Nat} {test : Bucket → Bool} {b : Bucket} (f : Bucket → Route → Sys → Sys)
    (hup : isUp y = true) (hfind : bucketIs y tag test = some b)
    (hheld : b.gather = false → anyHeld y (bucketRanges b (routeAt y b.route)) = false) :
    onBucket tag test f y = bucketsMoved (f b (routeAt y b.route) y) := by
  unfold onBucket
  rw [if_pos hup, hfind]
  refine if_neg ?_
  cases hgather : b.gather with
  | false => simp [hheld hgather]
  | true => simp

/-- Digests of elements depend on memory, the state map and the digest key alone (R356). -/
theorem elemDigest_congr {y z : Sys} (hm : y.mem = z.mem) (hs : y.smap = z.smap) (hc : y.coll = z.coll) (tag w a first n : Nat) :
    elemDigest y tag w a first n = elemDigest z tag w a first n := by
  simp only [elemDigest, digestKey_congr hc, readNat_congr hm hs]

@[simp] theorem bucketTrace_smap (b : Bucket) (ev shard port : Nat) (y : Sys) : (bucketTrace b ev shard port y).smap = y.smap := by
  unfold bucketTrace
  rw [traceRec_units]

@[simp] theorem bucketTrace_coll (b : Bucket) (ev shard port : Nat) (y : Sys) : (bucketTrace b ev shard port y).coll = y.coll := by
  unfold bucketTrace
  rw [traceRec_units]

/-- A trace record enters no digest (R356, R556). -/
theorem elemDigest_bucketTrace (b : Bucket) (ev shard port : Nat) (y : Sys) (tag w a first n : Nat) :
    elemDigest (bucketTrace b ev shard port y) tag w a first n = elemDigest y tag w a first n :=
  elemDigest_congr (bucketTrace_mem _ _ _ _ y) (bucketTrace_smap _ _ _ _ y) (bucketTrace_coll _ _ _ _ y) tag w a first n

/-! ### Windows (R347) -/

section
variable (b : Bucket) (r : Route) (pick : Nat)

@[simp] theorem openWindow_gather : (openWindow b pick).gather = b.gather := by
  unfold openWindow; split <;> rfl

@[simp] theorem openWindow_converted : (openWindow b pick).converted = b.converted := by
  unfold openWindow; split <;> rfl

@[simp] theorem openWindow_used : (openWindow b pick).used = b.used := by
  unfold openWindow; split <;> rfl

@[simp] theorem openWindow_handled : (openWindow b pick).handled = b.handled := by
  unfold openWindow; split <;> rfl

@[simp] theorem openWindow_asked : (openWindow b pick).asked = b.asked := by
  unfold openWindow; split <;> rfl

@[simp] theorem expireWindow_used (windowEnd : Nat) (y : Sys) : (expireWindow b r windowEnd y).1.used = b.used := by
  unfold expireWindow; dsimp only; split <;> rfl

@[simp] theorem expireWindow_handled (windowEnd : Nat) (y : Sys) : (expireWindow b r windowEnd y).1.handled = b.handled := by
  unfold expireWindow; dsimp only; split <;> rfl

end

section
variable {b : Bucket} {r : Route} {pick : Nat} {y : Sys}

/-- Before the end of its window a bucket asks for nothing. -/
theorem checkWindow_onTime (htime : ∀ e, lateFrom b r = some e → pick < e) : checkWindow b r pick y = (b, y) := by
  unfold checkWindow
  split
  · rfl
  · next e hlate => exact if_neg (Nat.not_le.mpr (htime e hlate))

/-- From the end of its window on a bucket asks for what is late. -/
theorem checkWindow_late {e : Nat} (hlate : lateFrom b r = some e) (hpast : e ≤ pick) :
    checkWindow b r pick y = expireWindow b r e y := by
  unfold checkWindow
  rw [hlate]
  exact if_pos hpast

end

/-! ### Conversion (R335) -/

/-- A conversion marks the bucket as converted, and leaves it a shadow's or not. -/
theorem convertBucket_converts {b b' : Bucket} {y z : Sys} (h : convertBucket b y = .inr (b', z)) :
    b'.converted = true ∧ b'.shadow = b.shadow := by
  unfold convertBucket at h
  dsimp only at h
  split at h
  · cases h
  · split at h
    · cases h
    · cases h
      exact ⟨rfl, rfl⟩

/-- The conversion of a bucket in progress ends in its sending, or, for a shadow's, in the end of its command (R335, R408). -/
theorem execBucketConversionDone_converts {s : State} {tag : Nat} {b b' : Bucket} {z : Sys} (hup : isUp s.sys = true)
    (hfind : bucketIs s.sys tag (fun b => !b.gather && !b.converted) = some b)
    (hheld : anyHeld s.sys (bucketRanges b (routeAt s.sys b.route)) = false) (hconvert : convertBucket b s.sys = .inr (b', z)) :
    execBucketConversionDone tag s =
      onward s (bucketsMoved (if b'.shadow then shadowDone b' (routeAt s.sys b.route) z else startSending b' z)) := by
  refine onSys_eq ((onBucket_found _ hup hfind fun _ => hheld).trans ?_)
  rw [hconvert]

/-! ### What an adder does with a packet (R336, R337, R340, R349, R353) -/

section
variable {port pick : Nat} {b : Bucket} {r : Route} {h : BucketHdr} {payload : List Byte} {y : Sys}

/-- A packet that has been neither dealt with nor asked for is added, or, of a gather, written and sent on (R336, R353). -/
theorem takePacket_fresh (hwhole : hdrFlag h 3 = false) (hused : b.used.elem (h.shard, h.first) = false)
    (hhandled : b.handled.any (fun q => q.1 == h.shard && q.2.1 == h.first) = false) (hasked : b.asked.elem (h.shard, h.first) = false) :
    takePacket port pick b r h payload y = if b.gather then gatherIn b r h payload y else addPartial b r h payload y := by
  simp only [takePacket, hwhole, hused, hhandled, hasked, Bool.false_and, Bool.false_eq_true, if_false]

/-- A packet for which the twin has been asked is held until the twin answers (R349, R350). -/
theorem takePacket_asked (hwhole : hdrFlag h 3 = false) (hused : b.used.elem (h.shard, h.first) = false)
    (hhandled : b.handled.any (fun q => q.1 == h.shard && q.2.1 == h.first) = false) (hasked : b.asked.elem (h.shard, h.first) = true)
    (hrefused : b.refusedCopy.elem (h.shard, h.first) = false) :
    takePacket port pick b r h payload y = holdPacket port pick h payload y := by
  simp only [takePacket, hwhole, hused, hhandled, hasked, hrefused, Bool.not_false, Bool.and_self, Bool.false_eq_true, if_false, if_true]

/-- A half-sum goes to the own half of its packet (R340). -/
theorem takePacket_half (hhalf : hdrFlag h 3 = true) :
    takePacket port pick b r h payload y = twinHalfIn b r h (elems64 h.elems payload) y :=
  if_pos hhalf

/-- The own piece of a packet is memory's, whatever becomes of the bucket. -/
theorem ownPiece_putBucket (c : Bucket) (first n : Nat) : ownPiece (putBucket c y) b first n = ownPiece y b first n :=
  congrArg (elems64 n) (readBytes_congr (y := putBucket c y) (z := y) rfl rfl _ _)

/-- The owner's sum of a packet is its result where the route is not in mode SPLIT (R336, R337). -/
theorem addPartial_own (hclean : consume 5 (b.stage + 8 * h.first) (8 * h.elems) y = none) (hown : h.shard = r.selfPos)
    (hsplit : r.split = false) :
    addPartial b r h payload y =
      let fl := (h.flags &&& 3) ||| b.ownFlags
      putBucket { b with handled := b.handled ++ [(h.shard, h.first, fl)], shardFlags := b.shardFlags ||| fl }
        (writeBytes (some b.cmd) (resultAddr b r h.shard h.first)
          (bytes64 (sum64 (elems64 h.elems payload) (ownPiece y b h.first h.elems))) y) := by
  unfold addPartial
  rw [hclean]
  dsimp only
  rw [if_pos hown, hsplit]
  rfl

/-- The sum of a packet for another owner goes to the relay buffer and on along the ring (R336). -/
theorem addPartial_relay (hclean : consume 5 (b.stage + 8 * h.first) (8 * h.elems) y = none) (hother : h.shard ≠ r.selfPos) :
    addPartial b r h payload y =
      let fl := (h.flags &&& 3) ||| b.ownFlags
      let sum := bytes64 (sum64 (elems64 h.elems payload) (ownPiece y b h.first h.elems))
      let b' := { b with handled := b.handled ++ [(h.shard, h.first, fl)] }
      sendOn b' r fl h.strand h.shard h.first h.elems sum
        (putBucket b' (writeBytes (some b.cmd) (resultAddr b r h.shard h.first) sum y)) := by
  unfold addPartial
  rw [hclean]
  exact if_neg hother

/-- The twin's half joins the own half of its packet (R340). -/
theorem twinHalfIn_joins {half : List Nat} {o : Nat × List Nat × BitVec 8} (hjoined : b.joined.elem h.first = false)
    (htwin : b.twinHalf.any (fun p => p.1 == h.first) = false) (hfind : b.ownHalf.find? (fun p => p.1 == h.first) = some o) :
    twinHalfIn b r h half y = joinHalves b r h.first (o.2.1, o.2.2) (half, h.flags &&& 3) y := by
  simp only [twinHalfIn, hjoined, htwin, hfind, Bool.or_self, Bool.false_eq_true, if_false]

/-- The twin's half waits where the own half of its packet is still to come (R340). -/
theorem twinHalfIn_waits {half : List Nat} (hjoined : b.joined.elem h.first = false)
    (htwin : b.twinHalf.any (fun p => p.1 == h.first) = false) (hfind : b.ownHalf.find? (fun p => p.1 == h.first) = none) :
    twinHalfIn b r h half y = putBucket { b with twinHalf := b.twinHalf ++ [(h.first, half, h.flags &&& 3)] } y := by
  simp only [twinHalfIn, hjoined, htwin, hfind, Bool.or_self, Bool.false_eq_true, if_false]

end

/-! ### Packets that arrive (R332, R333, R347) -/

section
variable {s : State} {port : Nat} {bytes : List Byte} {h : BucketHdr} {b : Bucket} {r : Route}

/-- A packet that agrees with its bucket's command names the command's route (R333). -/
theorem route_of_not_mismatched (hmatch : mismatched b r h = false) : h.route = b.route := by
  simp only [mismatched, Bool.or_eq_false_iff, bne_eq_false_iff_eq] at hmatch
  exact hmatch.1.1.1.1

/-- A half-sum that agrees with its bucket's command belongs to a route in mode SPLIT (R333, R340). -/
theorem split_of_not_mismatched (hmatch : mismatched b r h = false) (hhalf : hdrFlag h 3 = true) : r.split = true := by
  simp only [mismatched, hhalf, if_true, Bool.or_eq_false_iff, Bool.not_eq_false'] at hmatch
  exact hmatch.2.1

/-- The route that the header of such a packet names is the bucket's. -/
theorem packetMeets_route (hmet : PacketMeets port bytes s h b r) : routeAt s.sys h.route = r := by
  obtain ⟨-, -, -, -, -, -, -, -, rfl, -, -, -, hmatch, -⟩ := hmet
  rw [route_of_not_mismatched hmatch]

/-- The bucket's adder takes the packet, after the window has opened, and has ended where its time has come. -/
theorem arrive_meets (hmet : PacketMeets port bytes s h b r) :
    arrive port (pickNow s.sys) h (bytes.drop 32) s.sys =
      let o := openWindow b (pickNow s.sys)
      let q := if hdrFlag h 3 then (o, putBucket o s.sys) else checkWindow o r (pickNow s.sys) (putBucket o s.sys)
      stopSpoiled o.cmd (takePacket port (pickNow s.sys) q.1 r h (bytes.drop 32) q.2) := by
  have hroute := packetMeets_route hmet
  obtain ⟨-, -, -, -, hfind, hlength, hinside, -, hr, hfailed, hconverted, hgen, hmatch, -⟩ := hmet
  unfold arrive
  rw [hfind]
  dsimp only
  rw [← hr, hroute, if_neg (by simp [hlength, hinside]), if_neg (by simp [hfailed]), if_neg (by simp [hgen]), if_neg (by simp [hmatch]),
    if_pos hgen, openWindow_converted, if_pos hconverted]

/-- A packet of the kind asked for is taken. -/
theorem bucketMsg_meets {kind : Route → BucketHdr → Bool} (hmet : PacketMeets port bytes s h b r) (hkind : kind r h = true) :
    bucketMsg port (.bucket bytes) kind s.sys = bucketsMoved (arrive port (pickNow s.sys) h (bytes.drop 32) s.sys) := by
  have hroute := packetMeets_route hmet
  obtain ⟨hup, htakes, hformed, rfl, -, -, -, hheld, -⟩ := hmet
  unfold bucketMsg
  dsimp only
  rw [if_pos (by simp [hup, htakes]), if_neg (by simp [hformed]), hroute, if_pos (by simp [hkind, hheld])]

/-- A packet that arrives in time is added, or, of a gather, written and sent on. -/
theorem bucketMsg_onTime {kind : Route → BucketHdr → Bool} (hmet : PacketMeets port bytes s h b r) (hkind : kind r h = true)
    (hwhole : hdrFlag h 3 = false) (htime : onTime s b r) :
    bucketMsg port (.bucket bytes) kind s.sys = bucketsMoved (stopSpoiled (openWindow b (pickNow s.sys)).cmd
      (if b.gather then
        gatherIn (openWindow b (pickNow s.sys)) r h (bytes.drop 32) (putBucket (openWindow b (pickNow s.sys)) s.sys)
      else addPartial (openWindow b (pickNow s.sys)) r h (bytes.drop 32) (putBucket (openWindow b (pickNow s.sys)) s.sys))) := by
  rw [bucketMsg_meets hmet hkind, arrive_meets hmet]
  obtain ⟨-, -, -, -, -, -, -, -, -, -, -, -, -, hfresh⟩ := hmet
  obtain ⟨hused, hhandled, hasked⟩ := hfresh hwhole
  dsimp only
  rw [if_neg (by simp [hwhole]), checkWindow_onTime htime,
    takePacket_fresh hwhole (by simpa using hused) (by simpa using hhandled) (by simpa using hasked), openWindow_gather]

/-- A packet that comes after the end of its window is held, once the twin has been asked for it (R347 to R349). -/
theorem bucketMsg_late {kind : Route → BucketHdr → Bool} {e : Nat} (hmet : PacketMeets port bytes s h b r) (hkind : kind r h = true)
    (hwhole : hdrFlag h 3 = false) (hlate : lateFrom (openWindow b (pickNow s.sys)) r = some e) (hpast : e ≤ pickNow s.sys) :
    let o := openWindow b (pickNow s.sys)
    let x := expireWindow o r e (putBucket o s.sys)
    x.1.asked.elem (h.shard, h.first) = true → x.1.refusedCopy.elem (h.shard, h.first) = false →
    bucketMsg port (.bucket bytes) kind s.sys =
      bucketsMoved (stopSpoiled o.cmd (holdPacket port (pickNow s.sys) h (bytes.drop 32) x.2)) := by
  dsimp only
  intro hasked hrefused
  rw [bucketMsg_meets hmet hkind, arrive_meets hmet]
  obtain ⟨-, -, -, -, -, -, -, -, -, -, -, -, -, hfresh⟩ := hmet
  obtain ⟨hused, hhandled, -⟩ := hfresh hwhole
  dsimp only
  rw [if_neg (by simp [hwhole]), checkWindow_late hlate hpast,
    takePacket_asked hwhole (by simpa using hused) (by simpa using hhandled) hasked hrefused]

/-- The twin's half of a packet reaches the own half (R340). -/
theorem bucketMsg_half {kind : Route → BucketHdr → Bool} (hmet : PacketMeets port bytes s h b r) (hkind : kind r h = true)
    (hhalf : hdrFlag h 3 = true) :
    bucketMsg port (.bucket bytes) kind s.sys = bucketsMoved (stopSpoiled (openWindow b (pickNow s.sys)).cmd
      (twinHalfIn (openWindow b (pickNow s.sys)) r h (elems64 h.elems (bytes.drop 32))
        (putBucket (openWindow b (pickNow s.sys)) s.sys))) := by
  rw [bucketMsg_meets hmet hkind, arrive_meets hmet]
  dsimp only
  rw [if_pos hhalf, takePacket_half hhalf]

end

/-! ### Final shards (R343 to R345, R356, R365) -/

section
variable {s : State} {tag : Nat} {b : Bucket}

/-- A bucket whose own shard is final, whose relays are done and whose sends are acknowledged gives its command the status of the
shard (R343, R344, R356, R365). -/
theorem execShardFinal_finishes {st : Status} (hup : isUp s.sys = true)
    (hfind : bucketIs s.sys tag (fun b => !b.gather && !b.shadow && b.converted) = some b)
    (hheld : anyHeld s.sys (bucketRanges b (routeAt s.sys b.route)) = false) (hfinal : shardFinal b (routeAt s.sys b.route) = true)
    (hrelays : relaysDone b (routeAt s.sys b.route) = true) (hsends : sendsDone s.sys b = true) (hstatus : shardStatus b = some st)
    (hst : st ≠ .bucketOverflow) :
    execShardFinal tag s =
      let r := routeAt s.sys b.route
      let dS := elemDigest s.sys b.tag 8 b.stage 0 b.count
      let dR := elemDigest s.sys b.tag 8 b.dst (shardFirst b.count r.p r.selfPos) (shardLen b.count r.p r.selfPos)
      onward s (bucketsMoved (finish b.cmd st (reduceResults b r b.shardFlags dS dR) (putBucket { b with finished := true }
        (modCmd b.cmd (fun c => { c with record := some (recordOf b false (flag b.shardFlags 1) dS dR) })
          (bucketTrace b 2 r.selfPos (bucketPort r) s.sys))))) := by
  refine onSys_eq ((onBucket_found _ hup hfind fun _ => hheld).trans (congrArg bucketsMoved ?_))
  rw [if_pos (by simp [hfinal, hrelays, hsends]), hstatus, if_pos (show (some st).isSome = true from rfl)]
  dsimp only
  split
  · next hnone => cases hnone
  · next hover => exact absurd (Option.some.inj hover) hst
  · next hsome =>
    cases hsome
    simp only [elemDigest_bucketTrace]

/-- A final shard with an overflow that a higher exponent may hold is converted again at the next generation (R343, R345). -/
theorem execBucketResend_resends {b' : Bucket} {z : Sys} (hup : isUp s.sys = true)
    (hfind : bucketIs s.sys tag (fun b => !b.gather && !b.shadow && b.converted) = some b)
    (hheld : anyHeld s.sys (bucketRanges b (routeAt s.sys b.route)) = false) (hfinal : shardFinal b (routeAt s.sys b.route) = true)
    (hrelays : relaysDone b (routeAt s.sys b.route) = true) (hovf : flag b.shardFlags 0 = true) (hfinite : flag b.shardFlags 1 = false)
    (hexp : b.exp + 8 ≤ 255) :
    let r := routeAt s.sys b.route
    let y := bucketTrace b 2 r.selfPos (bucketPort r) s.sys
    let n := { nextGen b with window := heldSince y b.tag b.step (b.gen + 1) false }
    let y := bucketTrace n 3 r.selfPos (bucketPort r) { y with coll := { y.coll with resends := satAt (umax 16) (y.coll.resends + 1) } }
    convertBucket n (putBucket n y) = .inr (b', z) →
    execBucketResend tag s = onward s (bucketsMoved (startSending b' z)) := by
  intro r y n y' hconvert
  refine onSys_eq ((onBucket_found _ hup hfind fun _ => hheld).trans (congrArg bucketsMoved ?_))
  rw [if_pos (by simp [hfinal, hrelays, hovf, hfinite, hexp])]
  dsimp only
  split
  · next hfail => cases hfail.symm.trans hconvert
  · next hdone =>
    cases hdone.symm.trans hconvert
    rfl

/-- The held packets of a bucket that its adder can take are taken in the order of their arrival (R338, R350). -/
theorem execHeldPartialRelease_takes (hup : isUp s.sys = true)
    (hfind : s.sys.coll.buckets.find? (fun b => b.tag == tag && b.converted && !b.shadow && s.sys.coll.holding.any (releasable b)) =
      some b)
    (hheld : ∀ p ∈ s.sys.coll.holding, releasable b p = true → packetHeld s.sys p.hdr = false) :
    execHeldPartialRelease tag s = onward s (bucketsMoved (takeHeld (s.sys.coll.holding.filter (releasable b)) { s.sys with
      coll := { s.sys.coll with holding := s.sys.coll.holding.filter (fun p => !releasable b p) } })) := by
  refine onSys_eq ?_
  rw [if_pos hup, hfind]
  refine if_neg ?_
  simpa using hheld

end

/-- Settles O34: each event finds its bucket, whose conversion, adder, half-sums, held packets or final shard then do what the rules
say. -/
theorem bucketEventsComplete : Obligations.BucketEventsComplete := by
  unfold Obligations.BucketEventsComplete
  refine ⟨?convert, ?add, ?late, ?gather, ?half, ?held, ?final, ?resend⟩
  case convert =>
    intro s tag b b' z hup hfind hheld hconvert
    obtain ⟨hconverted, hshadow⟩ := convertBucket_converts hconvert
    have hexec := execBucketConversionDone_converts hup hfind hheld hconvert
    rw [hshadow] at hexec
    exact ⟨hconverted, fun hdevice => hexec.trans (by rw [hdevice]; rfl), fun htwin => hexec.trans (by rw [htwin]; rfl)⟩
  case add =>
    intro s port bytes h b r hmet hwhole hreduce hin htime hkind
    dsimp only
    intro hclean
    have hexec : execBucketPacket port (.bucket bytes) s = _ :=
      onSys_eq (bucketMsg_onTime hmet (by simp [hin, hwhole, hreduce]) hwhole htime)
    rw [hkind] at hexec
    refine ⟨fun hown hsplit => hexec.trans ?_, fun hother => hexec.trans ?_⟩
    · rw [if_neg Bool.false_ne_true, addPartial_own hclean hown hsplit, ownPiece_putBucket]
    · rw [if_neg Bool.false_ne_true, addPartial_relay hclean hother, ownPiece_putBucket]
  case late =>
    intro s port e bytes h b r hmet hwhole hreduce hin
    dsimp only
    intro hlate hpast _ hasked hrefused
    change execBucketPacket port (.bucket bytes) s = _
    exact onSys_eq (bucketMsg_late hmet (by simp [hin, hwhole, hreduce]) hwhole hlate hpast hasked hrefused)
  case gather =>
    intro s port bytes h b r hmet hwhole hgather hin htime hkind
    have hexec : execGatherPacket port (.bucket bytes) s = _ :=
      onSys_eq (bucketMsg_onTime hmet (by simp [hin, hgather]) hwhole htime)
    rw [hkind] at hexec
    exact hexec
  case half =>
    intro s port bytes h b r hmet hhalf hreduce htwin
    dsimp only
    intro hjoined hnew
    have hsplit : r.split = true := by
      obtain ⟨-, -, -, -, -, -, -, -, -, -, -, -, hmatch, -⟩ := hmet
      exact split_of_not_mismatched hmatch hhalf
    have hexec : execTwinHalfSum port (.bucket bytes) s = _ :=
      onSys_eq (bucketMsg_half hmet (by simp only [htwin, hsplit, hhalf, hreduce]; rfl) hhalf)
    refine ⟨fun o hfind => hexec.trans ?_, fun hfind => hexec.trans ?_⟩
    · rw [twinHalfIn_joins hjoined hnew hfind]
    · rw [twinHalfIn_waits hjoined hnew hfind]
  case held =>
    intro s tag b hup hfind hheld
    exact execHeldPartialRelease_takes hup hfind hheld
  case final =>
    intro s tag b st hup hfind
    dsimp only
    intro hheld hfinal hrelays hsends hstatus hst
    exact execShardFinal_finishes hup hfind hheld hfinal hrelays hsends hstatus hst
  case resend =>
    intro s tag b hup hfind
    dsimp only
    intro hheld hfinal hrelays hovf hfinite hexp b' z hconvert
    exact ⟨rfl, rfl, execBucketResend_resends hup hfind hheld hfinal hrelays hovf hfinite hexp hconvert⟩

/-! ### Late buckets and their twin (R347 to R351) -/

section
variable {s : State} {port : Nat} {b : Bucket} {bytes : List Byte}

/-- The window that a bucket of this device waits in ends LATE_PICKS picks after it opened (R347, R351). -/
theorem lateFrom_waiting {r : Route} {a : Nat} (hshadow : b.shadow = false) (hlate : b.latePicks ≠ 0) (hwhole : r.split = false)
    (hrunning : b.finished = false) (hwindow : b.window = some a) : lateFrom b r = some (a + b.latePicks) := by
  simp [lateFrom, hshadow, hlate, hwhole, hrunning, hwindow]

/-- Where the twin link carries copies a bucket asks for what is late (R348). -/
theorem expireWindow_asks {r : Route} {e : Nat} {y : Sys} (hcopies : twinCopies y = true) :
    (expireWindow b r e y).2 =
      let late := (expected b r).filter (isLate y b e)
      let b' := { b with asked := b.asked ++ late.map (fun q => (q.2.1, q.2.2.1)) }
      putBucket b' (late.foldl (fun z q => askTwin b' r q z) y) := by
  unfold expireWindow
  dsimp only
  rw [if_pos hcopies]

/-- Where it carries none the bucket waits for the originals (R350, R351). -/
theorem expireWindow_waits {r : Route} {e : Nat} {y : Sys} (hcopies : twinCopies y = false) :
    (expireWindow b r e y).2 =
      let keys := ((expected b r).filter (isLate y b e)).map (fun q => (q.2.1, q.2.2.1))
      putBucket { b with asked := b.asked ++ keys, refusedCopy := b.refusedCopy ++ keys } y := by
  unfold expireWindow
  dsimp only
  rw [if_neg (by simp [hcopies])]

/-- A request of the twin is looked at as it arrives (R348, R406). -/
theorem execTwinCopyRequest_serves (hup : isUp s.sys = true) (htakes : portTakes s.sys port = true)
    (htwin : twinPorts.elem port = true) (hon : twinOn s.sys = true) :
    execTwinCopyRequest port (.copyRequest bytes) s = onward s (serveRequest (hdrOf bytes) s.sys) := by
  refine onSys_eq (if_pos ?_)
  rw [hup, htakes, htwin, hon]
  rfl

end

section
variable {h : BucketHdr} {b : Bucket} {y : Sys}

/-- A request for a bucket that has not started is kept, unless its step has passed (R350). -/
theorem serveRequest_unknown (hfind : bucketFor y h = none) :
    serveRequest h y = if stepAhead y h.step then { y with coll := { y.coll with requests := y.coll.requests ++ [h] } }
      else answerCopy h 0 none y := by
  unfold serveRequest
  rw [hfind]

/-- A bucket that has failed, or has gone on to a later generation, cannot supply its result (R350). -/
theorem serveRequest_gone (hfind : bucketFor y h = some b) (hgone : b.failed = true ∨ h.gen < b.gen) :
    serveRequest h y = answerCopy h 0 none y := by
  unfold serveRequest
  rw [hfind]
  exact if_pos (by simpa using hgone)

/-- A request for a result that the bucket does not hold yet is kept while the result can still come (R348, R350). -/
theorem serveRequest_pending (hfind : bucketFor y h = some b) (hworks : b.failed = false) (hgen : b.gen ≤ h.gen)
    (hpending : h.gen = b.gen → ∀ q ∈ b.handled, (q.1, q.2.1) ≠ (h.shard, h.first)) :
    serveRequest h y = if portUp y (inPort (routeAt y b.route) h.strand) then
        { y with coll := { y.coll with requests := y.coll.requests ++ [h] } }
      else answerCopy h 0 none y := by
  have hnone : b.handled.find? (fun q => h.gen == b.gen && q.1 == h.shard && q.2.1 == h.first) = none := by
    rw [List.find?_eq_none]
    intro q hq hmatch
    simp only [Bool.and_eq_true, beq_iff_eq] at hmatch
    obtain ⟨⟨hsame, hshard⟩, hfirst⟩ := hmatch
    exact hpending hsame q hq (Prod.ext hshard hfirst)
  unfold serveRequest
  rw [hfind]
  dsimp only
  rw [if_neg (by simp [hworks, hgen]), hnone]

/-- A result that the bucket holds is read and sent (R348). -/
theorem serveRequest_answers {q : Nat × Nat × BitVec 8} (hfind : bucketFor y h = some b) (hworks : b.failed = false)
    (hgen : h.gen = b.gen) (hhandled : b.handled.find? (fun q => q.1 == h.shard && q.2.1 == h.first) = some q) :
    let a := resultAddr b (routeAt y b.route) h.shard h.first
    let n := bktElemBytes b * h.elems
    rangeHeld y a n = false → consume 5 a n y = none → serveRequest h y = answerCopy h q.2.2 (some (readBytes y a n)) y := by
  dsimp only
  intro hheld hclean
  unfold serveRequest
  rw [hfind]
  dsimp only
  rw [if_neg (by simp [hworks, hgen])]
  simp only [hgen, BEq.rfl, Bool.true_and, hhandled]
  rw [hheld, if_neg Bool.false_ne_true, hclean]

end

/-- What the bucket that asked makes of the twin's answer: none marks the packet as refused, a copy of its length is used
(R348 to R350). -/
def takeAnswer (b : Bucket) (h : BucketHdr) (y : Sys) : Option (List Byte) → Sys
  | none => bucketsMoved (putBucket { b with refusedCopy := b.refusedCopy ++ [(h.shard, h.first)] } y)
  | some payload =>
    if payload.length = bktElemBytes b * h.elems then bucketsMoved (useCopy b (routeAt y b.route) h payload y) else y

/-- The answer to a request that still stands is taken by the bucket that asked (R348 to R350). -/
theorem execTwinCopyAnswer_takes {s : State} {port : Nat} {bytes : List Byte} {b : Bucket} {elems : Option (List Byte)}
    (hup : isUp s.sys = true) (htakes : portTakes s.sys port = true) (htwin : twinPorts.elem port = true) (hon : twinOn s.sys = true)
    (hheld : packetHeld s.sys (hdrOf bytes) = false) (hfind : bucketFor s.sys (hdrOf bytes) = some b) (hrunning : b.finished = false)
    (hgen : (hdrOf bytes).gen = b.gen) (hasked : b.asked.elem ((hdrOf bytes).shard, (hdrOf bytes).first) = true)
    (hused : b.used.elem ((hdrOf bytes).shard, (hdrOf bytes).first) = false)
    (hrefused : b.refusedCopy.elem ((hdrOf bytes).shard, (hdrOf bytes).first) = false)
    (hhandled : b.handled.any (fun q => q.1 == (hdrOf bytes).shard && q.2.1 == (hdrOf bytes).first) = false) :
    execTwinCopyAnswer port (.copyAnswer bytes elems) s = onward s (takeAnswer b (hdrOf bytes) s.sys elems) := by
  refine onSys_eq ?_
  dsimp only
  rw [if_pos (by simp only [hup, htakes, htwin, hon, hheld]; rfl), hfind]
  dsimp only
  rw [if_neg (by simp only [hrunning, hgen, hasked, hused, hrefused, hhandled, bne_self_eq_false]; exact Bool.false_ne_true)]
  cases elems <;> rfl

/-- Settles O35: the end of a window asks the twin or waits, a request is kept, refused or answered as its bucket stands, and an
answer is taken by the bucket that asked. -/
theorem bucketTwinEventsComplete : Obligations.BucketTwinEventsComplete := by
  unfold Obligations.BucketTwinEventsComplete
  refine ⟨?expiry, ?request, ?answer⟩
  case expiry =>
    intro s tag a b hup hfind
    dsimp only
    intro hheld hshadow hlate hwindow hwhole hpast
    obtain ⟨-, hrunning, -⟩ := bucketIs_spec hfind
    have hexec : execLatenessExpiry tag s = onward s (bucketsMoved (expireWindow b (routeAt s.sys b.route) (a + b.latePicks) s.sys).2) := by
      refine onSys_eq ((onBucket_found _ hup hfind hheld).trans ?_)
      rw [checkWindow_late (lateFrom_waiting hshadow hlate hwhole hrunning hwindow) hpast]
    refine ⟨fun hcopies => hexec.trans ?_, fun hcopies => hexec.trans ?_⟩
    · rw [expireWindow_asks hcopies]
    · rw [expireWindow_waits hcopies]
  case request =>
    intro s port bytes hup htakes htwin hon
    have hexec := execTwinCopyRequest_serves (bytes := bytes) hup htakes htwin hon
    refine ⟨fun hfind hahead => hexec.trans ?_, fun hfind hpast => hexec.trans ?_, fun b hfind =>
      ⟨fun hgone => hexec.trans ?_, fun hworks hgen hpending => ⟨fun hcomes => hexec.trans ?_, fun hcut => hexec.trans ?_⟩,
        fun q hworks hgen hhandled hheld hclean => hexec.trans ?_⟩⟩
    · rw [serveRequest_unknown hfind, if_pos hahead]
    · rw [serveRequest_unknown hfind, if_neg (by simp [hpast])]
    · rw [serveRequest_gone hfind hgone]
    · rw [serveRequest_pending hfind hworks hgen hpending, if_pos hcomes]
    · rw [serveRequest_pending hfind hworks hgen hpending, if_neg (by simp [hcut])]
    · rw [serveRequest_answers hfind hworks hgen hhandled hheld hclean]
  case answer =>
    intro s port bytes b hup htakes htwin hon
    dsimp only
    intro hheld hfind hrunning hgen hasked hused hrefused hhandled
    have hexec (elems : Option (List Byte)) := execTwinCopyAnswer_takes (elems := elems) hup htakes htwin hon hheld hfind hrunning hgen
      hasked hused hrefused hhandled
    exact ⟨hexec none, fun payload hlength => (hexec (some payload)).trans (congrArg (onward s) (if_pos hlength))⟩

end Sys2Proof.Laws
end

section
/-! PORTS. How a warp port trains, comes up, faults and goes down, and what its link packets do. -/

namespace Sys2Proof.Laws

open Sys2Proof Sys2Proof.Machine Sys2Proof.Safety

section
variable {s : State} {w : Nat}

/-- A port that is DOWN begins to train (R320, R323, R370, R580). -/
theorem execPortTraining_begins {lanes : BitVec 8} (hruns : portRuns s.sys w = true) (hdown : (portAt s.sys w).state = 0) :
    execPortTraining ⟨w, lanes⟩ s =
      let y := if (portAt s.sys w).wasUp then onLife (fun l => { l with retrains := mapMod 0 l.retrains w inc32 }) s.sys else s.sys
      onward s (sendIdentity w (onPort w (fun p => { p with state := 1, wasUp := false, lanesOk := lanes }) y)) := by
  unfold execPortTraining
  refine onSys_eq (if_pos ?_)
  rw [hruns, hdown]
  rfl

/-- A port in TRAINING shows the further lanes that have locked (R320, R370). -/
theorem execPortTraining_locks {lanes : BitVec 8} (hruns : portRuns s.sys w = true) (htraining : (portAt s.sys w).state = 1) :
    execPortTraining ⟨w, lanes⟩ s = onward s (onPort w (fun p => { p with lanesOk := p.lanesOk ||| lanes }) s.sys) := by
  unfold execPortTraining
  refine onSys_eq ((if_neg ?_).trans (if_pos ?_))
  · simp [htraining]
  · simp [hruns, htraining]

/-- A port that trains or is UP takes the identity of its peer (R323, R370, R406). -/
theorem execIdentityFrame_takes {dev pp : Nat} {valid : Bool} {twin : Option (Nat × Nat)} (hruns : portRuns s.sys w = true)
    (hon : (portAt s.sys w).state = 1 ∨ (portAt s.sys w).state = 2) :
    execIdentityFrame w (.identity dev valid pp twin) s = onward s (setAgreed (takeIdentity w dev valid pp twin s.sys)) := by
  refine onSys_eq (if_pos ?_)
  simpa [hruns] using hon

/-- A port in TRAINING comes up with the first exchange of identities: sequence numbers from 0 and an empty retry buffer are the
model's choice (log 8) (R320, R323, R368, R370). -/
theorem execPortUp_comes {dev pp : Nat} {valid : Bool} {twin : Option (Nat × Nat)} (hruns : portRuns s.sys w = true)
    (htraining : (portAt s.sys w).state = 1) :
    execPortUp w (.identity dev valid pp twin) s = onward s (linkResetUp (setAgreed (takeIdentity w dev valid pp twin
      (onPort w (fun p => { p with state := 2, wasUp := true, lanesOk := 0xFF, txSeq := 0, rxSeq := 0, retry := [],
                                   lastEq := s.sys.t.timeBase }) s.sys)))) := by
  refine onSys_eq (if_pos ?_)
  simp [hruns, htraining]

/-- A cause that is due faults a port that runs (R320, R321). -/
theorem execPortFault_faults {cause : FaultCause} (hruns : portRuns s.sys w = true)
    (hdue : if cause = .retries then (portAt s.sys w).state = 2 ∧ ∃ q ∈ (portAt s.sys w).retry, 17 ≤ q.refused
      else (portAt s.sys w).state = 1 ∨ (portAt s.sys w).state = 2) :
    execPortFault w cause s = onward s (faultPort w s.sys) := by
  refine onSys_eq (if_pos ?_)
  cases cause with
  | retries => simpa [hruns, retriesFailed] using hdue
  | lockLost => simpa [hruns] using hdue
  | indication => simpa [hruns] using hdue

/-- A port that trains or is UP goes DOWN when it loses its peer (R320, R370). -/
theorem execPortDown_goes (hruns : portRuns s.sys w = true) (hon : (portAt s.sys w).state = 1 ∨ (portAt s.sys w).state = 2) :
    execPortDown w s = onward s (downPort w s.sys) := by
  refine onSys_eq (if_pos ?_)
  simpa [hruns] using hon

/-- A link event moves the port at which it happens (R319, R371, R526). -/
theorem execLinkPacket_moves {e : LinkEvent} (hruns : portRuns s.sys w = true) (hup : portUp s.sys w = true) :
    execLinkPacket w e s = onward s (outDone w (onPort w (linkEvent e) s.sys)) := by
  refine onSys_eq (if_pos ?_)
  rw [hruns, hup]
  rfl

/-- The next lane of a port that is UP equalizes 10 s after the last (R604). -/
theorem execLaneEqualization_next (hruns : portRuns s.sys w = true) (hup : (portAt s.sys w).state = 2)
    (hdue : (portAt s.sys w).lastEq + 10000000000 ≤ s.sys.t.timeBase) :
    execLaneEqualization w s =
      onward s (onPort w (fun p => { p with nextLane := (p.nextLane + 1) % 8, lastEq := s.sys.t.timeBase }) s.sys) := by
  refine onSys_eq (if_pos ?_)
  simp [hruns, hup, hdue]

/-- 200 ms after its start a LINK_RESET ends with the ports that are UP (R368). -/
theorem execLinkResetTimeout_ends {r : LinkResetSt} (hreset : s.sys.lnk.reset = some r)
    (hdue : r.start + 200000000 ≤ s.sys.t.timeBase) :
    execLinkResetTimeout s = onward s
      (finish r.cmd .ok [BitVec.ofNat 64 (upBitmap s.sys r.die)] { s.sys with lnk := { s.sys.lnk with reset := none } }) := by
  refine onSys_eq ?_
  rw [hreset]
  dsimp only
  rw [if_pos hdue, endLinkReset, hreset]

end

/-- Settles O36: the guard of each event of a port holds, so the event takes its effect. What a port starts with when it comes up
(log 8) and the lanes that have trained (log 55) are the model's choices. -/
theorem portEventsComplete : Obligations.PortEventsComplete := by
  unfold Obligations.PortEventsComplete
  refine ⟨?train, ?lanes, ?peer, ?fault, ?down, ?packet, ?equalize, ?timeout⟩
  case train =>
    intro s w lanes hruns hdown
    exact execPortTraining_begins hruns hdown
  case lanes =>
    intro s w lanes hruns htraining
    exact execPortTraining_locks hruns htraining
  case peer =>
    intro s w dev pp valid twin hruns
    exact ⟨fun hon => execIdentityFrame_takes hruns hon, fun htraining => execPortUp_comes hruns htraining⟩
  case fault =>
    intro s w cause hruns hdue
    exact execPortFault_faults hruns hdue
  case down =>
    intro s w hruns hon
    exact execPortDown_goes hruns hon
  case packet =>
    intro s w e hruns hup
    exact execLinkPacket_moves hruns hup
  case equalize =>
    intro s w hruns hup hdue
    exact execLaneEqualization_next hruns hup hdue
  case timeout =>
    intro s r hreset hdue
    exact execLinkResetTimeout_ends hreset hdue

end Sys2Proof.Laws
end

section
/-! STEPS. Steps, twins, shadows and weaves: the checks of each command pass, and what it does then; how the events of a prepare, a
commit and a weave proceed. -/

namespace Sys2Proof.Laws

open Sys2Proof Sys2Proof.Machine Sys2Proof.Safety

/-! ### What the commands read of the step state, the map and the links -/

section
variable {y z : Sys}

theorem weaveSender_of_none (h : y.stp.weave = none) : weaveSender y = false := by
  rw [weaveSender, h]

theorem weaving_of_none (h : y.stp.weave = none) : weaving y = false := by
  rw [weaving, h]
  rfl

theorem stepOpen_of_idle (h : y.stp.state = .idle) : stepOpen y = false := by
  rw [stepOpen, h]
  rfl

theorem stepOpen_of_not_idle (h : y.stp.state ≠ .idle) : stepOpen y = true := bne_iff_ne.mpr h

theorem weaveSender_congr (h : y.stp = z.stp) : weaveSender y = weaveSender z := by
  unfold weaveSender
  rw [h]

theorem twinOn_congr (h : y.stp = z.stp) : twinOn y = twinOn z := by
  unfold twinOn
  rw [h]

theorem portAt_congr (h : y.lnk = z.lnk) (w : Nat) : portAt y w = portAt z w := by
  unfold portAt
  rw [h]

theorem upTwin_congr (h : y.lnk = z.lnk) : upTwin y = upTwin z := by
  unfold upTwin
  rw [funext (portUp_congr h)]

theorem faceRanges_congr (h : y.smap = z.smap) : faceRanges y = faceRanges z := by
  unfold faceRanges
  rw [activeEntries_congr h]

/-- The header of a step command names the open step, or the step to open next (R377). -/
theorem openStep_named {n : Nat} (h : n = y.stp.lastCommit + 1) : (n != openStep y) = false := by
  rw [h]
  exact bne_self_eq_false _

end

/-! ### STEP_BEGIN, STEP_PREPARE, STEP_COMMIT, STEP_ABORT and STEP_UNDO (R383 to R399) -/

/-- What STEP_BEGIN makes of the step state (R383, R384, R388, R396). -/
theorem openTheStep_eq (n : Nat) (origin : Bool) (y : Sys) :
    openTheStep n origin y = { y with stp :=
      { y.stp with lastCommit := if origin then n - 1 else y.stp.lastCommit, undoValid := !origin && y.stp.undoValid,
                   state := .opened, abortPending := false, dirty := 0,
                   twinMsgs := y.stp.twinMsgs.filter (fun m => decide (n ≤ m.step)) } } := by
  cases origin <;> rfl

/-- The command that opens, commits or undoes a step answers with LAST_COMMIT (R384, R393). -/
theorem commitWord_new (y : Sys) : commitWord y false = BitVec.ofNat 64 y.stp.lastCommit := by
  simp [commitWord, b2n]

section
variable {pk : Packet} {s : State} {z : Sys} {c : Cmd}

/-- STEP_BEGIN of the next step, or of any with ORIGIN, opens it and answers with LAST_COMMIT (R383, R384). -/
theorem execStepBegin_opens (hmet : Meets 0x0600 [bits [(0, 1)]] false pk s z c) (hweave : s.sys.stp.weave = none)
    (hidle : s.sys.stp.state = .idle) (hnext : (pf pk 0 0 1 == 1) = false → pk.step.toNat = s.sys.stp.lastCommit + 1)
    (hagreed : s.sys.stp.agreed = true) (hturn : stepTurn c z = true) :
    execStepBegin pk s =
      let y := openTheStep pk.step.toNat (pf pk 0 0 1 == 1) (taken c z)
      onward s (finish c.id .ok [commitWord y false] y) := by
  rw [← meets_stp hmet] at hweave hidle hnext hagreed
  unfold execStepBegin
  refine onSys_eq (execCommand_go hmet hturn ?_)
  refine firstFail_cons (weaveSender_of_none hweave) (firstFail_cons (stepOpen_of_idle hidle) (firstFail_cons ?_
    (firstFail_cons (by rw [hagreed]; rfl) (firstFail_cons (weaving_of_none hweave) rfl))))
  cases horigin : (pf pk 0 0 1 == 1) with
  | true => rfl
  | false => exact openStep_named (hnext horigin)

/-- STEP_PREPARE of the open step seals it and covers its commands (R379, R383, R386). -/
theorem execStepPrepare_seals (hmet : Meets 0x0601 [] false pk s z c) (hweave : weaveSender s.sys = false)
    (hopened : s.sys.stp.state = .opened) (hstep : pk.step.toNat = s.sys.stp.lastCommit + 1) (hturn : stepTurn c z = true) :
    execStepPrepare pk s = onward s (onStep
      (fun t => { t with state := .sealed, sealLanes := standingCounts (taken c z), prep := some { cmd := c.id } })
      (coverStep (taken c z))) := by
  rw [← meets_stp hmet] at hopened hstep
  unfold execStepPrepare
  refine onSys_eq (execCommand_go hmet hturn ?_)
  exact firstFail_cons ((weaveSender_congr (meets_stp hmet)).trans hweave)
    (firstFail_cons (by rw [hopened]; rfl) (firstFail_cons (openStep_named hstep) rfl))

/-- STEP_COMMIT of the prepared step takes the creels (R383, R392). -/
theorem execStepCommit_holds (hmet : Meets 0x0602 [] false pk s z c) (hweave : weaveSender s.sys = false) (hturn : stepTurn c z = true)
    (hprepared : s.sys.stp.state = .prepared) (hshadow : s.sys.stp.shadow = false)
    (hstep : pk.step.toNat = s.sys.stp.lastCommit + 1) :
    execStepCommit pk s = onward s { taken c z with cm := { (taken c z).cm with commitWait := some c.id } } := by
  rw [← meets_stp hmet] at hprepared hshadow hstep
  unfold execStepCommit
  refine onSys_eq (execCommand_go hmet hturn ?_)
  rw [weaveSender_congr (meets_stp hmet), hweave, if_neg Bool.false_ne_true, if_neg (by simp [hprepared])]
  exact firstFail_cons (by rw [hprepared, hshadow]; rfl) (firstFail_cons (openStep_named hstep) rfl)

/-- STEP_COMMIT of the step that was committed last is answered at once (R385, R393). -/
theorem execStepCommit_already (hmet : Meets 0x0602 [] false pk s z c) (hweave : weaveSender s.sys = false)
    (hturn : stepTurn c z = true) (hidle : s.sys.stp.state = .idle) (hlast : pk.step.toNat = s.sys.stp.lastCommit) :
    execStepCommit pk s = onward s (finish c.id .ok [commitWord z true, 0] z) := by
  rw [← meets_stp hmet] at hidle hlast
  unfold execStepCommit
  refine onSys_eq (execCommand_refuse hmet hturn ?_)
  rw [weaveSender_congr (meets_stp hmet), hweave, if_neg Bool.false_ne_true, if_pos ⟨hidle, hlast⟩]

/-- STEP_ABORT of the open step discards it and counts the commands that it ends (R398, R399). -/
theorem execStepAbort_discards (hmet : Meets 0x0603 [] false pk s z c) (hweave : weaveSender s.sys = false)
    (hopen : s.sys.stp.state ≠ .idle) (hstep : pk.step.toNat = s.sys.stp.lastCommit + 1) :
    execStepAbort pk s =
      let n := pk.step.toNat
      onward s (finish c.id .ok [BitVec.ofNat 64 (((taken c z).cm.cmds.filter (abortHits n (taken c z))).length % 2 ^ 32)]
        (abortNow n (taken c z))) := by
  rw [← meets_stp hmet] at hopen hstep
  unfold execStepAbort
  refine onSys_eq (execCommand_go hmet rfl ?_)
  rw [weaveSender_congr (meets_stp hmet), hweave, if_neg Bool.false_ne_true, if_neg (fun hidle => hopen hidle.1)]
  exact firstFail_cons (by rw [stepOpen_of_not_idle hopen]; rfl) (firstFail_cons (openStep_named hstep) rfl)

/-- STEP_UNDO of the last commit takes the creels, and takes effect at once where it is alone (R383, R396, R397; log 90). -/
theorem execStepUndo_holds (hmet : Meets 0x0604 [] false pk s z c) (hweave : s.sys.stp.weave = none)
    (hidle : s.sys.stp.state = .idle) (hlast : pk.step.toNat = s.sys.stp.lastCommit) (hvalid : s.sys.stp.undoValid = true)
    (hturn : stepTurn c z = true) :
    execStepUndo pk s = onward s (commitWhenAlone { taken c z with cm := { (taken c z).cm with commitWait := some c.id } }) := by
  rw [← meets_stp hmet] at hweave hidle hlast hvalid
  unfold execStepUndo
  refine onSys_eq (execCommand_go hmet hturn ?_)
  exact firstFail_cons (weaveSender_of_none hweave) (firstFail_cons (stepOpen_of_idle hidle)
    (firstFail_cons (by rw [hlast]; exact bne_self_eq_false _) (firstFail_cons (by rw [hvalid]; rfl)
      (firstFail_cons (weaving_of_none hweave) rfl))))

end

/-- Settles O14: the checks of each command pass, so it is taken up; the step state that it changes stands as before the packet met
its unit. That an undo takes the creels, and may take effect in the same step, is the model's choice (log 90). -/
theorem stepCommandsComplete : Obligations.StepCommandsComplete := by
  unfold Obligations.StepCommandsComplete
  refine ⟨?begins, ?prepares, ?commits, ?aborts, ?undoes⟩
  case begins =>
    intro pk s z c hmet
    dsimp only
    intro hweave hidle hnext hagreed hturn
    refine (execStepBegin_opens hmet hweave hidle hnext hagreed hturn).trans ?_
    dsimp only
    rw [commitWord_new, openTheStep_eq, taken_stp hmet]
  case prepares =>
    intro pk s z c hmet
    dsimp only
    intro hweave hopened hstep hturn
    refine (execStepPrepare_seals hmet hweave hopened hstep hturn).trans ?_
    have hstp : (coverStep (taken c z)).stp = s.sys.stp := taken_stp hmet
    rw [onStep, hstp]
  case commits =>
    intro pk s z c hmet hweave hturn
    refine ⟨fun hprepared hshadow hstep => execStepCommit_holds hmet hweave hturn hprepared hshadow hstep, fun hidle hlast => ?_⟩
    refine (execStepCommit_already hmet hweave hturn hidle hlast).trans ?_
    rw [commitWord, meets_stp hmet, b2n, if_pos rfl, Nat.one_mul]
  case aborts =>
    intro pk s z c hmet
    dsimp only
    intro hweave hopen hstep
    exact execStepAbort_discards hmet hweave hopen hstep
  case undoes =>
    intro pk s z c hmet hweave hidle hlast hvalid hturn
    exact execStepUndo_holds hmet hweave hidle hlast hvalid hturn

/-! ### TWIN_SET, SHADOW_BEGIN and SHADOW_END (R405 to R409) -/

section
variable {pk : Packet} {s : State} {z : Sys} {c : Cmd}

/-- A bound twin is another device, and NONE names device 0 (R405). -/
theorem twinNumber_good {y : Sys} {mode : TwinMode} {dev : Nat} (hself : y.coll.selfValid = true) (hnone : mode = .none → dev = 0)
    (hother : mode ≠ .none → dev ≠ y.coll.selfDev.toNat) :
    (!y.coll.selfValid || (mode != .none && dev == y.coll.selfDev.toNat) || (mode == .none && dev != 0)) = false := by
  rw [hself]
  by_cases hmode : mode = .none
  · simp [hmode, hnone hmode]
  · simp [hmode, hother hmode]

/-- Every twin-link port that is UP faces a twin-link port of the device named (R405, R406). -/
theorem twinLink_good {y : Sys} {mode : TwinMode} {dev : Nat}
    (hpeers : mode ≠ .none → ∀ w ∈ upTwin y, (portAt y w).peerDevice = dev ∧ (portAt y w).peerPort ∈ twinPorts) :
    (mode != .none && (upTwin y).any (fun w => (portAt y w).peerDevice != dev || !twinPorts.elem (portAt y w).peerPort)) = false := by
  by_cases hmode : mode = .none
  · simp [hmode]
  · rw [Bool.and_eq_false_imp]
    intro _
    rw [List.any_eq_false]
    intro w hw
    obtain ⟨hdevice, hport⟩ := hpeers hmode w hw
    simp [hdevice, hport]

/-- A SHADOW_END whose shadow commands have completed writes their records and ends the shadow (R357, R367, R409). -/
theorem execShadowEnd_ends (hmet : Meets 0x0612 [allBits, bits [(0, 32)]] false pk s z c) (hweave : weaveSender s.sys = false)
    (hstep : pk.step.toNat = s.sys.stp.lastCommit + 1) (hshadow : s.sys.stp.shadow = true) (haligned : aligned64 (pw pk 0) = true)
    (hdram : inDram (pw pk 0) (32 * (s.sys.coll.recsShadow.take (pf pk 1 0 32)).length) = true)
    (hheld : rangeHeld s.sys (pw pk 0) (32 * (s.sys.coll.recsShadow.take (pf pk 1 0 32)).length) = false)
    (hturn : stepTurn c z = true) (hleft : shadowLeft z = false) :
    execShadowEnd pk s = onward s (endShadow (writeRecords c s.sys.coll.recsShadow (pw pk 0) (pf pk 1 0 32) (taken c z))) := by
  rw [← meets_stp hmet] at hstep hshadow
  unfold execShadowEnd
  refine onSys_eq ((execCommand_go hmet ?_ ?_).trans ?_)
  · dsimp only
    rw [hturn, hleft, meets_coll hmet, rangeHeld_met hmet, hheld]
    exact Bool.or_true _
  · refine firstFail_cons ((weaveSender_congr (meets_stp hmet)).trans hweave) (firstFail_cons (openStep_named hstep)
      (firstFail_cons (by rw [hshadow]; rfl) (firstFail_cons ?_ rfl)))
    rw [meets_coll hmet, haligned, hdram]
    rfl
  · rw [taken_coll hmet]

end

/-! ### Weaves (R410 to R412) -/

/-- The announcement of a weave: LAST_COMMIT and the ACTIVE entries (R411). -/
def weaveAnnouncement (y : Sys) : WarpMsg := .weaveStart y.stp.lastCommit ((activeEntries y).map (fun p =>
  { entry := p.1, kind := p.2.kind, face := p.2.face, back := p.2.back, length := p.2.length }))

/-- What the sender of a weave keeps of it (R411, R412). -/
def weaveBegun (id : Nat) (y : Sys) : Weave :=
  { cmd := id, sender := true, last := y.stp.lastCommit, entries := (activeEntries y).map (fun p => p.1),
    digests := (activeEntries y).map (fun p => (p.1, contentDigest y p.1 p.2.face 0 p.2.length)),
    moved := (activeEntries y).foldl (fun n p => n + p.2.length) 0 }

section
variable {y z : Sys}

theorem weaveAnnouncement_congr (ht : y.stp = z.stp) (hs : y.smap = z.smap) : weaveAnnouncement y = weaveAnnouncement z := by
  unfold weaveAnnouncement
  rw [ht, activeEntries_congr hs]

theorem weaveBegun_congr (ht : y.stp = z.stp) (hm : y.mem = z.mem) (hs : y.smap = z.smap) (hc : y.coll = z.coll) (id : Nat) :
    weaveBegun id y = weaveBegun id z := by
  simp only [weaveBegun, ht, activeEntries_congr hs, contentDigest_congr hm hs hc]

/-- A sender with a twin-link port that is UP and face ranges without poison announces the entries and then sends each (R411). -/
theorem weaveOut_sends {c : Cmd} (hup : upTwin y ≠ []) (hclean : consumeAll 5 y (faceRanges y) = none) :
    weaveOut c y = (activeEntries y).foldl sendEntry (sendWeave (weaveAnnouncement y) (setWeave (weaveBegun c.id y) y)) := by
  unfold weaveOut
  dsimp only
  rw [if_neg hup, hclean]
  rfl

/-- The checks that both weave commands share pass between steps, with an agreeing twin and no other weave (R410). -/
theorem weaveChecks_pass (hidle : y.stp.state = .idle) (htwin : twinOn y = true) (hweave : y.stp.weave = none) :
    firstFail (weaveChecks y) = none :=
  firstFail_cons (stepOpen_of_idle hidle) (firstFail_cons (by rw [htwin]; rfl) (firstFail_cons (weaving_of_none hweave) rfl))

end

/-- Settles O15: the checks of each command pass, so it is taken up; what it changes or sends stands as before the packet met its
unit. The identity frames that TWIN_SET sends are the model's choice (log 54). -/
theorem twinCommandsComplete : Obligations.TwinCommandsComplete := by
  unfold Obligations.TwinCommandsComplete
  refine ⟨?twin, ?shadowBegin, ?shadowEnd, ?send, ?receive⟩
  case twin =>
    intro pk s z c hmet
    dsimp only
    intro hidle hroutes hweave hself hnone hother hturn
    change execTwinSet pk s = _
    rw [← meets_stp hmet] at hidle hweave
    unfold execTwinSet
    refine onSys_eq ((execCommand_go hmet hturn ?_).trans ?_)
    · dsimp only
      simp only [meets_coll hmet, upTwin_congr (meets_lnk hmet), portAt_congr (meets_lnk hmet)]
      refine firstFail_cons (weaveSender_of_none hweave) (firstFail_cons (stepOpen_of_idle hidle) (firstFail_cons ?_
        (firstFail_cons (weaving_of_none hweave) (firstFail_cons (twinNumber_good hself hnone fun hmode => (hother hmode).1)
          (firstFail_cons (twinLink_good fun hmode => (hother hmode).2) rfl)))))
      rw [List.any_eq_false]
      intro r hr
      rw [hroutes r hr]
      exact Bool.false_ne_true
    · dsimp only
      rw [onStep, taken_stp hmet, taken_coll hmet]
  case shadowBegin =>
    intro pk s z c hmet
    dsimp only
    intro hweave hsealed hshadow hstep hturn
    change execShadowBegin pk s = _
    rw [← meets_stp hmet] at hsealed hshadow hstep
    unfold execShadowBegin
    refine onSys_eq ((execCommand_go hmet hturn ?_).trans ?_)
    · refine firstFail_cons ((weaveSender_congr (meets_stp hmet)).trans hweave) (firstFail_cons ?_
        (firstFail_cons (openStep_named hstep) rfl))
      rcases hsealed with hstate | hstate <;> rw [hstate, hshadow] <;> rfl
    · dsimp only
      rw [taken_stp hmet, taken_coll hmet]
  case shadowEnd =>
    intro pk s z c hmet
    dsimp only
    intro hweave hstep hshadow haligned hdram hheld hturn hleft hfree
    refine (execShadowEnd_ends hmet hweave hstep hshadow haligned hdram hheld hturn hleft).trans ?_
    rw [writeRecords_writes ((protectedHit_taken hmet _ _ _).trans hfree), collectiveDigest_congr (taken_coll hmet)]
  case send =>
    intro pk s z c hmet
    dsimp only
    intro hidle htwin hweave hturn hup hheld hclean
    change execWeaveSend pk s = _
    rw [← meets_stp hmet] at hidle hweave
    unfold execWeaveSend
    refine onSys_eq ((execCommand_go hmet ?_ ?_).trans ?_)
    · rw [faceRanges_congr (meets_smap hmet), anyHeld_met hmet, hheld, hturn]
      rfl
    · exact weaveChecks_pass hidle ((twinOn_congr (meets_stp hmet)).trans htwin) hweave
    · rw [← upTwin_congr (taken_lnk hmet)] at hup
      rw [← faceRanges_congr (taken_smap hmet)] at hclean
      rw [weaveOut_sends hup hclean, activeEntries_congr (taken_smap hmet), weaveAnnouncement_congr (taken_stp hmet) (taken_smap hmet),
        weaveBegun_congr (taken_stp hmet) (taken_mem hmet) (taken_smap hmet) (taken_coll hmet), setWeave, onStep, taken_stp hmet]
      rfl
  case receive =>
    intro pk s z c hmet hidle htwin hweave hfree hturn hup
    change execWeaveRecv pk s = _
    rw [← meets_stp hmet] at hidle hweave
    unfold execWeaveRecv
    refine onSys_eq ((execCommand_go hmet hturn ?_).trans ?_)
    · refine firstFail_append (weaveChecks_pass hidle ((twinOn_congr (meets_stp hmet)).trans htwin) hweave) (firstFail_cons ?_ rfl)
      rw [meets_smap hmet, List.any_eq_false]
      intro p hp
      rw [hfree p hp]
      exact Bool.false_ne_true
    · have hlinked : upTwin (onStep (fun t => { t with undoValid := false }) (taken c z)) ≠ [] := by
        rwa [upTwin_congr (onStep_lnk _ _), upTwin_congr (taken_lnk hmet)]
      dsimp only
      rw [if_neg hlinked, onStep, onStep, taken_stp hmet]

/-! ### The events of prepares, commits and weaves (R386, R388, R392, R397, R406, R411) -/

section
variable {s : State} {port : Nat}

/-- The prepare takes its digests once the step's commands have completed (R386). -/
theorem execPrepareDigest_takes {p : Prep} (hprep : s.sys.stp.prep = some p) (hup : isUp s.sys = true) (hnew : p.digested = false)
    (hcovered : coveredLeft s.sys = false) (hsealed : sealedLeft s.sys = false) :
    execPrepareDigest s = onward s (digestPrepare p s.sys) := by
  refine onSys_eq ?_
  rw [hprep]
  exact if_neg (by simp [hup, hnew, hcovered, hsealed])

/-- The state in which the twin's message for a step is held, in the place of an earlier one for that step (R388). -/
def heldMsg (q : PrepareMsg) (y : Sys) : Sys :=
  onStep (fun t => { forgetMsgs q.step t with twinMsgs := (forgetMsgs q.step t).twinMsgs ++ [q] }) y

/-- The twin's message is held, and ends the prepare of its step that waits for it (R388, R406). -/
theorem execPrepareMessage_takes {q : PrepareMsg} (hup : isUp s.sys = true) (htakes : portTakes s.sys port = true)
    (hport : twinPorts.elem port = true) (htwin : twinOn s.sys = true) (hstep : openStep s.sys ≤ q.step)
    (hnews : q.aborted = true → q.step = openStep s.sys → s.sys.stp.abortPending = false) :
    execPrepareMessage port (.prepare q) s = onward s
      (if s.sys.stp.prep.any (fun p => p.digested && q.step == openStep s.sys) then endPrepare (some q) (heldMsg q s.sys)
       else heldMsg q s.sys) := by
  have hunknown : (q.aborted && q.step == openStep s.sys && s.sys.stp.abortPending) = false := by
    rw [Bool.and_eq_false_imp, Bool.and_eq_true, beq_iff_eq]
    exact fun h => hnews h.1 h.2
  refine onSys_eq ((if_pos ?_).trans ?_)
  · simp only [hup, htakes, hport, htwin, hstep, hunknown, decide_true, Bool.not_false, Bool.and_self]
  · dsimp only [onStep_stp, forgetMsgs]
    cases s.sys.stp.prep with
    | none => rfl
    | some p => rfl

/-- The command that holds the creels takes effect once it is alone (R392, R397). -/
theorem execCommitStart_flips {id : Nat} {c : Cmd} (hup : isUp s.sys = true) (hwait : s.sys.cm.commitWait = some id)
    (hcmd : findCmd s.sys id = some c) (hrunning : c.phase = .running) (halone : commitAlone id s.sys = true) :
    execCommitStart s = onward s (if c.op = 0x0602 then commitNow id s.sys else undoNow id s.sys) := by
  refine onSys_eq ((if_pos hup).trans ?_)
  unfold commitWhenAlone
  rw [hwait]
  dsimp only
  rw [hcmd]
  exact if_pos ⟨hrunning, halone⟩

section
variable {w : Weave} (hweave : s.sys.stp.weave = some w) (hup : isUp s.sys = true) (htakes : portTakes s.sys port = true)
  (hport : twinPorts.elem port = true) (htwin : twinOn s.sys = true)
include hweave hup htakes hport htwin

/-- The receiver of a weave takes its packets (R254, R406, R411). -/
theorem execWeavePacket_receives {m : WarpMsg} (hside : w.sender = false) (hheld : weaveHeld s.sys m = false) :
    execWeavePacket port m s = onward s (weaveIn w m s.sys) := by
  refine onSys_eq ?_
  rw [hweave]
  dsimp only
  rw [hup, htakes, hport, htwin, hheld, hside]
  rfl

/-- The outcome of a weave ends the sender's command (R411). -/
theorem execWeavePacket_ends {ok : Bool} (hside : w.sender = true) :
    execWeavePacket port (.weaveResult ok) s = onward s (endWeave w (if ok then .ok else .weaveFailed) s.sys) := by
  refine onSys_eq ?_
  rw [hweave]
  dsimp only
  rw [hup, htakes, hport, htwin, hside]
  rfl

end

end

/-- Settles O38: the guard of each event holds, so the event takes its effect. -/
theorem stepEventsComplete : Obligations.StepEventsComplete := by
  unfold Obligations.StepEventsComplete
  refine ⟨?digest, ?message, ?commit, ?weave⟩
  case digest =>
    intro s p hprep hup hnew hcovered hsealed
    exact execPrepareDigest_takes hprep hup hnew hcovered hsealed
  case message =>
    intro s port q hup htakes hport htwin hstep hnews
    have hexec := execPrepareMessage_takes hup htakes hport htwin hstep hnews
    refine ⟨fun hwaits => hexec.trans ?_, fun p hprep hdigested hnow => hexec.trans ?_⟩
    · cases hprep : s.sys.stp.prep with
      | none => rfl
      | some p =>
        have hkept : (p.digested && q.step == openStep s.sys) = false := by
          rcases hwaits p hprep with hnew | hlater
          · simp [hnew]
          · simp [hlater]
        rw [Option.any_some, hkept]
        rfl
    · have hends : (p.digested && q.step == openStep s.sys) = true := by simp [hdigested, hnow]
      rw [hprep, Option.any_some, hends]
      rfl
  case commit =>
    intro s id c hup hwait hcmd hrunning halone
    have hexec := execCommitStart_flips hup hwait hcmd hrunning halone
    exact ⟨fun hcommit => hexec.trans (by rw [if_pos hcommit]), fun hundo => hexec.trans (by rw [if_neg hundo])⟩
  case weave =>
    intro s port w hweave hup htakes hport htwin
    exact ⟨fun m hside hheld => execWeavePacket_receives hweave hup htakes hport htwin hside hheld,
      fun ok hside => execWeavePacket_ends hweave hup htakes hport htwin hside⟩

end Sys2Proof.Laws
end

section
/-! COMMAND INTERFACE. The general commands and the lock commands: their checks pass or fail, and what each does then. -/

namespace Sys2Proof.Laws

open Sys2Proof Sys2Proof.Machine Sys2Proof.Safety

/-! ### NOP, TIME_READ, PICK_SET and FENCE (R456, R491 to R493, R502, R503) -/

/-- A list of checks whose first fails answers with its status. -/
theorem firstFail_fails {b : Bool} {st : Status} (l : List (Bool × Status)) (hb : b = true) :
    firstFail ((b, st) :: l) = some (st, []) := by
  rw [hb]
  rfl

section
variable {op : Nat} {layout : List Nat} {bad : Bool} {pk : Packet} {s : State} {z : Sys} {c : Cmd}

theorem stampNow_taken (h : Meets op layout bad pk s z c) : stampNow (taken c z) = stampNow s.sys := by
  unfold stampNow
  rw [taken_t h]

end

section
variable {pk : Packet} {s : State} {z : Sys} {c : Cmd}

theorem execTimeRead_answers (hmet : Meets 0x0011 [] false pk s z c) :
    execTimeRead pk s = onward s (finish c.id .ok
      [BitVec.ofNat 64 ((stampNow s.sys).pick + b2n (stampNow s.sys).sat * 2 ^ 63), BitVec.ofNat 64 (stampNow s.sys).sub,
        BitVec.ofNat 64 s.sys.t.timeBase] (taken c z)) := by
  unfold execTimeRead
  refine onSys_eq ((execCommand_go hmet rfl rfl).trans ?_)
  rw [stampNow_taken hmet, taken_t hmet]

/-- The settings that a PICK_SET makes (R491). -/
def pickSettings (pk : Packet) (t : TimeSt) : TimeSt :=
  { t with source := BitVec.ofNat 2 (pf pk 1 56 2), applyDelay := BitVec.ofNat 12 (pf pk 1 32 12),
           echoEvery := BitVec.ofNat 32 (pf pk 1 0 32) }

/-- A PICK_SET without LOAD makes its settings, and the target pick follows the advances that are scheduled (R491). -/
theorem execPickSet_sets
    (hmet : Meets 0x0010 [bits [(63, 1), (0, 48)], bits [(56, 2), (32, 12), (0, 32)]] (badCode pk 1 56 2 [0, 1]) pk s z c)
    (hdelay : 200 ≤ pf pk 1 32 12) (hload : pf pk 0 63 1 = 0) (hpick : pf pk 0 0 48 = 0) :
    execPickSet pk s = onward s (finish c.id .ok [BitVec.ofNat 64 (pickNow s.sys), 0]
      { taken c z with t := { pickSettings pk s.sys.t with pinTarget := countAhead s.sys.t + 1 } }) := by
  have hno : (pf pk 0 63 1 == 1) = false := by rw [hload]; rfl
  unfold execPickSet
  refine onSys_eq ((execCommand_go hmet rfl ?_).trans ?_)
  · rw [hno]
    exact firstFail_cons (decide_eq_false (Nat.not_lt.mpr hdelay)) (firstFail_cons (by rw [hpick]; rfl) rfl)
  · rw [hno, pickNow_taken hmet, taken_t hmet]
    rfl

/-- A PICK_SET with LOAD that does not lower the count, or lowers it where no step is open and no lock held, makes its settings and
schedules an advance (R480, R491, R492). -/
theorem execPickSet_loads
    (hmet : Meets 0x0010 [bits [(63, 1), (0, 48)], bits [(56, 2), (32, 12), (0, 32)]] (badCode pk 1 56 2 [0, 1]) pk s z c)
    (hdelay : 200 ≤ pf pk 1 32 12) (hload : pf pk 0 63 1 = 1)
    (hquiet : countAhead s.sys.t ≤ pf pk 0 0 48 ∨ (s.sys.stp.state = .idle ∧ ∀ l ∈ (expireLocks z).lck, l.2.state ≠ .held)) :
    execPickSet pk s =
      let t := schedule (pf pk 0 0 48) s.sys.t.timeBase false true (pickSettings pk s.sys.t)
      onward s (finish c.id .ok [BitVec.ofNat 64 (pickNow s.sys), BitVec.ofNat 64 (t.lastApply.getD 0)] { taken c z with t := t }) := by
  have hyes : (pf pk 0 63 1 == 1) = true := by rw [hload]; rfl
  rw [← meets_t hmet, ← meets_stp hmet] at hquiet
  unfold execPickSet
  refine onSys_eq ((execCommand_go hmet rfl ?_).trans ?_)
  · rw [hyes]
    refine firstFail_cons (decide_eq_false (Nat.not_lt.mpr hdelay)) (firstFail_cons rfl ?_)
    rcases hquiet with hraises | ⟨hidle, hfree⟩
    · have hlowers : (true && decide (pf pk 0 0 48 < countAhead z.t)) = false := by simpa using hraises
      exact firstFail_cons (by rw [hlowers]; rfl) (firstFail_cons (by rw [hlowers]; rfl) rfl)
    · have hlocks : (expireLocks z).lck.any (fun l => l.2.state == .held) = false := by simpa using hfree
      exact firstFail_cons (by rw [stepOpen_of_idle hidle, Bool.and_false])
        (firstFail_cons (by rw [hlocks, Bool.and_false]) rfl)
  · rw [hyes, pickNow_taken hmet, taken_t hmet]
    rfl

theorem execFence_settles (hmet : Meets 0x0001 [bits [(16, 2), (8, 8), (0, 8)]] (badCode pk 0 16 2 [0, 1, 2]) pk s z c)
    (hgood : badFence pk = false) : execFence pk s = onward s (settleFences (taken c z)) := by
  unfold execFence
  exact onSys_eq (execCommand_go hmet rfl (firstFail_cons hgood rfl))

end

/-- Settles O2: the checks of each command pass, so it is taken up; the time and the step state that it reads stand as before the
packet met its unit. -/
theorem generalCommandsComplete : Obligations.GeneralCommandsComplete := by
  unfold Obligations.GeneralCommandsComplete
  refine ⟨?nop, ?time, ?settings, ?load, ?fence⟩
  case nop =>
    intro pk s z c hmet
    exact (onSys_eq (execCommand_go hmet rfl rfl) : execNop pk s = _)
  case time =>
    intro pk s z c hmet
    exact execTimeRead_answers hmet
  case settings =>
    intro pk s z c hmet hdelay hload hpick
    exact execPickSet_sets hmet hdelay hload hpick
  case load =>
    intro pk s z c hmet hdelay hload hquiet
    exact execPickSet_loads hmet hdelay hload hquiet
  case fence =>
    intro pk s z c hmet hgood
    exact execFence_settles hmet hgood

/-! ### Locks (R463 to R466) -/

@[simp] theorem notice_t (kind source tag arg step : Nat) (y : Sys) : (notice kind source tag arg step y).t = y.t := by
  unfold notice
  dsimp only
  split <;> rw [traceRec_units]

@[simp] theorem recordEvent_t (severity code source data : Nat) (y : Sys) : (recordEvent severity code source data y).t = y.t := by
  rw [recordEvent_nv]

@[simp] theorem expireOne_t (k : Nat) (y : Sys) : (expireOne k y).t = y.t := by
  unfold expireOne
  dsimp only
  split <;> simp

/-- The end of leases moves no time. -/
@[simp] theorem expireLocks_t (y : Sys) : (expireLocks y).t = y.t := foldl_keeps Sys.t _ (fun z k => expireOne_t k z) _ y

theorem afterLeases_sys (s : State) : (afterLeases s).sys = expireLocks s.sys := by rw [afterLeases]

theorem pickNow_afterLeases (s : State) : pickNow (afterLeases s).sys = pickNow s.sys := by
  unfold pickNow
  rw [afterLeases_sys, expireLocks_t]

/-- The issuing creel holds a lock whose state and owner say so. -/
theorem holds_iff {c : Cmd} {l : Lock} : holds c l = true ↔ l.state = .held ∧ l.owner = c.creel := by
  simp [holds]

theorem holds_eq_false {c : Cmd} {l : Lock} (hother : ¬ (l.state = .held ∧ l.owner = c.creel)) : holds c l = false :=
  Bool.eq_false_iff.mpr (fun h => hother (holds_iff.mp h))

section
variable {op : Nat} {pk : Packet} {s : State} {z : Sys} {c : Cmd} {check : Cmd → Sys → Option (Status × List Word64)}
  {effect : Cmd → Sys → Sys}

theorem pickNow_lockTaken (hmet : Meets op lockLayout false pk (afterLeases s) z c) : pickNow (taken c z) = pickNow s.sys :=
  (pickNow_taken hmet).trans (pickNow_afterLeases s)

theorem lck_lockTaken (hmet : Meets op lockLayout false pk (afterLeases s) z c) : (taken c z).lck = z.lck :=
  (taken_lck hmet).trans (meets_lck hmet).symm

variable (hsome : (atUnit op pk s.sys).isSome = true) (hmet : Meets op lockLayout false pk (afterLeases s) z c)
include hsome hmet

/-- A lock command whose checks pass takes effect in the state with the leases applied (R466). -/
theorem lockCommand_go (hpass : check c z = none) :
    onSys s (fun _ y => afterExpiries op pk (execCommand op lockLayout (fun _ => false) always check effect pk) y) =
      onward s (effect c (taken c z)) := by
  refine onSys_eq ?_
  rw [afterExpiries, if_pos hsome, ← afterLeases_sys]
  exact execCommand_go hmet rfl hpass

/-- A lock command that fails a check finishes with the status of the check (R466). -/
theorem lockCommand_refuse {st : Status} {res : List Word64} (hfail : check c z = some (st, res)) :
    onSys s (fun _ y => afterExpiries op pk (execCommand op lockLayout (fun _ => false) always check effect pk) y) =
      onward s (finish c.id st res z) := by
  refine onSys_eq ?_
  rw [afterExpiries, if_pos hsome, ← afterLeases_sys]
  exact execCommand_refuse hmet rfl hfail

end

section
variable {pk : Packet} {s : State} {z : Sys} {c : Cmd} {l : Lock}

section
variable (hsome : (atUnit 0x0710 pk s.sys).isSome = true) (hmet : Meets 0x0710 lockLayout false pk (afterLeases s) z c)
include hsome hmet

theorem execLockAcquire_noLease (hlease : pf pk 0 32 32 = 0) :
    execLockAcquire pk s = onward s (finish c.id .paramRange [] z) := by
  unfold execLockAcquire
  exact lockCommand_refuse hsome hmet (if_pos hlease)

/-- A lock that a creel holds, the issuing one or another, is not taken (R464). -/
theorem execLockAcquire_held (hlease : pf pk 0 32 32 ≠ 0) (hl : mapGet {} z.lck (pf pk 0 0 6) = l) (hheld : l.state = .held) :
    execLockAcquire pk s = onward s (finish c.id .lockHeld [expiryWord l.expires, lockWord l] z) := by
  subst hl
  unfold execLockAcquire
  exact lockCommand_refuse hsome hmet ((if_neg hlease).trans (if_pos hheld))

/-- A lock that no creel holds is the issuing creel's until PICK plus the lease; one that was BROKEN is said to have been (R464). -/
theorem execLockAcquire_takes (hlease : pf pk 0 32 32 ≠ 0) (hl : mapGet {} z.lck (pf pk 0 0 6) = l) (hfree : l.state ≠ .held) :
    execLockAcquire pk s =
      let e := pickNow s.sys + pf pk 0 32 32
      onward s (finish c.id (if l.state == .broken then .lockBroken else .ok)
        (expiryWord e :: if l.state == .broken then [lockWord l] else [])
        { taken c z with lck := mapSet {} z.lck (pf pk 0 0 6) { state := .held, owner := c.creel, cause := 0, expires := e } }) := by
  subst hl
  unfold execLockAcquire
  refine (lockCommand_go hsome hmet ((if_neg hlease).trans (if_neg hfree))).trans ?_
  dsimp only [lockName, setLock]
  rw [lck_lockTaken hmet, pickNow_lockTaken hmet]

end

section
variable (hsome : (atUnit 0x0711 pk s.sys).isSome = true) (hmet : Meets 0x0711 lockLayout false pk (afterLeases s) z c)
include hsome hmet

theorem execLockRenew_noLease (hlease : pf pk 0 32 32 = 0) :
    execLockRenew pk s = onward s (finish c.id .paramRange [] z) := by
  unfold execLockRenew
  exact lockCommand_refuse hsome hmet (firstFail_fails _ (beq_iff_eq.mpr hlease))

theorem execLockRenew_notOwner (hlease : pf pk 0 32 32 ≠ 0) (hother : holds c (mapGet {} z.lck (pf pk 0 0 6)) = false) :
    execLockRenew pk s = onward s (finish c.id .lockNotOwner [] z) := by
  have hfail : firstFail [(pf pk 0 32 32 == 0, .paramRange), (!holds c (mapGet {} z.lck (pf pk 0 0 6)), .lockNotOwner)] =
      some (.lockNotOwner, []) := by
    rw [beq_false_of_ne hlease, hother]
    rfl
  unfold execLockRenew
  exact lockCommand_refuse hsome hmet hfail

/-- The lease of a lock that the issuing creel holds runs from the present pick (R464). -/
theorem execLockRenew_extends (hlease : pf pk 0 32 32 ≠ 0) (hl : mapGet {} z.lck (pf pk 0 0 6) = l) (howns : holds c l = true) :
    execLockRenew pk s =
      let e := pickNow s.sys + pf pk 0 32 32
      onward s (finish c.id .ok [expiryWord e] { taken c z with lck := mapSet {} z.lck (pf pk 0 0 6) { l with expires := e } }) := by
  subst hl
  unfold execLockRenew
  refine (lockCommand_go hsome hmet (firstFail_cons (beq_false_of_ne hlease) (firstFail_cons ?_ rfl))).trans ?_
  · exact congrArg Bool.not howns
  · dsimp only [lockName, setLock]
    rw [lck_lockTaken hmet, pickNow_lockTaken hmet]

end

section
variable (hsome : (atUnit 0x0712 pk s.sys).isSome = true) (hmet : Meets 0x0712 lockLayout false pk (afterLeases s) z c)
include hsome hmet

theorem execLockRelease_lease (hlease : pf pk 0 32 32 ≠ 0) :
    execLockRelease pk s = onward s (finish c.id .paramRange [] z) := by
  unfold execLockRelease
  exact lockCommand_refuse hsome hmet (firstFail_fails _ (bne_iff_ne.mpr hlease))

theorem execLockRelease_notOwner (hlease : pf pk 0 32 32 = 0) (hother : holds c (mapGet {} z.lck (pf pk 0 0 6)) = false) :
    execLockRelease pk s = onward s (finish c.id .lockNotOwner [] z) := by
  have hfail : firstFail [(pf pk 0 32 32 != 0, .paramRange), (!holds c (mapGet {} z.lck (pf pk 0 0 6)), .lockNotOwner)] =
      some (.lockNotOwner, []) := by
    rw [hlease, hother]
    rfl
  unfold execLockRelease
  exact lockCommand_refuse hsome hmet hfail

theorem execLockRelease_frees (hlease : pf pk 0 32 32 = 0) (hl : mapGet {} z.lck (pf pk 0 0 6) = l) (howns : holds c l = true) :
    execLockRelease pk s = onward s (finish c.id .ok [] { taken c z with lck := mapSet {} z.lck (pf pk 0 0 6) { l with state := .free } }) := by
  subst hl
  unfold execLockRelease
  refine (lockCommand_go hsome hmet (firstFail_cons (bne_eq_false_iff_eq.mpr hlease) (firstFail_cons ?_ rfl))).trans ?_
  · exact congrArg Bool.not howns
  · dsimp only [lockName, setLock]
    rw [lck_lockTaken hmet]

end

end

/-- Settles O18: each command's checks are made on the locks with the leases applied that have ended (R466; log 77). One that passes
them takes, extends or frees its lock, the pick being that of the packet's arrival. A lease of 0, or a release with one, is out of
range (R655), and a lock that is taken has no CAUSE. -/
theorem lockCommandsComplete : Obligations.LockCommandsComplete := by
  unfold Obligations.LockCommandsComplete
  refine ⟨?acquire, ?renew, ?release⟩
  case acquire =>
    intro pk s z c hsome hmet
    refine ⟨fun hlease => execLockAcquire_noLease hsome hmet hlease, fun hlease => ⟨?free, ?broken, ?held⟩⟩
    case free =>
      intro hfree
      refine (execLockAcquire_takes hsome hmet hlease rfl (by simp [hfree])).trans ?_
      rw [hfree]
      rfl
    case broken =>
      intro hbroken
      refine (execLockAcquire_takes hsome hmet hlease rfl (by simp [hbroken])).trans ?_
      rw [hbroken]
      rfl
    case held => exact fun hheld => execLockAcquire_held hsome hmet hlease rfl hheld
  case renew =>
    intro pk s z c hsome hmet
    refine ⟨fun hlease => execLockRenew_noLease hsome hmet hlease, fun hlease hheld howner => ?_, fun hlease hother => ?_⟩
    · exact execLockRenew_extends hsome hmet hlease rfl (holds_iff.mpr ⟨hheld, howner⟩)
    · exact execLockRenew_notOwner hsome hmet hlease (holds_eq_false hother)
  case release =>
    intro pk s z c hsome hmet
    refine ⟨fun hlease => execLockRelease_lease hsome hmet hlease, fun hlease hheld howner => ?_, fun hlease hother => ?_⟩
    · exact execLockRelease_frees hsome hmet hlease rfl (holds_iff.mpr ⟨hheld, howner⟩)
    · exact execLockRelease_notOwner hsome hmet hlease (holds_eq_false hother)

end Sys2Proof.Laws
end

section
/-! FRAMES AND SESSIONS. What a frame that nothing drops does, what the device sends, and how a session opens, goes on and ends. -/

namespace Sys2Proof.Laws

open Sys2Proof Sys2Proof.Machine Sys2Proof.Safety

/-! ### Frames (R420, R423, R424) -/

section
variable {s : State} {f : RxFrame} {typ : Nat}

/-- A frame that nothing drops takes effect (R420, R423). -/
theorem onFrame_taken (htaken : FrameTaken typ f s) (effect : Sys → Sys) :
    onFrame [typ] f effect s.sys = effect (takeFrame f s.sys) := by
  obtain ⟨hanswers, rfl, hdrop⟩ := htaken
  unfold onFrame
  rw [hanswers, hdrop]
  exact if_pos (by simp)

/-- What a session takes from a frame besides its words: it neither ends nor begins to end (R420, R430). -/
theorem sessOf_takeFrame (f : RxFrame) (y : Sys) :
    (sessOf (takeFrame f y) (onService f)).forced = (sessOf y (onService f)).forced ∧
      (sessOf (takeFrame f y) (onService f)).closing = (sessOf y (onService f)).closing := by
  simp [takeFrame, ackFrames]

@[simp] theorem takeFrame_t (f : RxFrame) (y : Sys) : (takeFrame f y).t = y.t := by simp [takeFrame]

@[simp] theorem takeFrame_cr (f : RxFrame) (y : Sys) : (takeFrame f y).cr = y.cr := by simp [takeFrame]

@[simp] theorem laneAt_takeFrame (f : RxFrame) (y : Sys) (k : Nat) : laneAt (takeFrame f y) k = laneAt y k := by simp [laneAt]

theorem execDroppedFrame_counts {k : DropKind} (hanswers : answers s.sys = true) (hdrop : dropOf s.sys f = some k) :
    execDroppedFrame f s = onward s (countDrop k s.sys) := by
  refine onSys_eq ((if_pos hanswers).trans ?_)
  rw [hdrop]

theorem execKeepaliveSend_sends {p : Port} (hanswers : answers s.sys = true) (hdue : lastTx s.sys p + 100000 ≤ s.sys.t.timeBase) :
    execKeepaliveSend ⟨p, true⟩ s = onward s (sendPlain (p == .service) p 0x30 [] s.sys) :=
  onSys_eq (if_pos (by simp [hanswers, hdue]))

theorem execFrameResend_sends {svc : Bool} {seq : Nat} {t : TxFrame} (hanswers : answers s.sys = true)
    (hopen : (sessOf s.sys svc).state = .open) (hfind : (sessOf s.sys svc).unacked.find? (fun f => f.seq == seq) = some t) :
    execFrameResend svc seq s =
      let ss := sessOf s.sys svc
      onward s (noteTx ss.port (setSess s.sys svc { ss with wire := ss.wire ++ [{ t with port := ss.port, ack := ss.rxSeq }] })) := by
  refine onSys_eq ?_
  dsimp only
  rw [hfind]
  exact if_pos (by simp [hanswers, hopen])

/-! ### Creel writes (R427, R429, R439 to R441) -/

/-- Words that arrive for a session that is not being ended go to their lane. -/
theorem execCreelWrite_writes (htaken : FrameTaken 0x10 f s) (hforced : (sessOf s.sys (onService f)).forced = none)
    (hclosing : (sessOf s.sys (onService f)).closing = false) :
    execCreelWrite f s = onward s
      (writeLane (if onService f then 64 else at8 f.payload 0 1) (at8 f.payload 1 1) (writtenWords f) (takeFrame f s.sys)) := by
  unfold execCreelWrite
  refine onSys_eq ((onFrame_taken htaken _).trans (if_neg ?_))
  obtain ⟨hf, hc⟩ := sessOf_takeFrame f s.sys
  simp [sessionEnding, hf, hc, hforced, hclosing]

section
variable {creel lane : Nat} {ws : List (BitVec 512 × Bool)} {y : Sys}

/-- A lane in OVERRUN takes no words. -/
theorem writeLane_overrun (hover : (laneAt y (laneKey creel lane)).overrun = true) : writeLane creel lane ws y = y :=
  if_pos hover

/-- Words for which the lane has no room are left out, with OVERRUN and its notice. -/
theorem writeLane_full (hnot : (laneAt y (laneKey creel lane)).overrun = false)
    (hfull : freeWords (laneAt y (laneKey creel lane)) < ws.length) :
    writeLane creel lane ws y =
      let z := setLane (laneKey creel lane) { laneAt y (laneKey creel lane) with overrun := true } y
      notice 2 (creelEnc creel + lane * 2 ^ 8) 0 ws.length 0 { z with cr := { z.cr with statusDue := true } } :=
  (if_neg (Bool.eq_false_iff.mp hnot)).trans (if_pos hfull)

/-- Words for which the lane has room join it. -/
theorem writeLane_fits (hnot : (laneAt y (laneKey creel lane)).overrun = false)
    (hfits : ws.length ≤ freeWords (laneAt y (laneKey creel lane))) :
    writeLane creel lane ws y =
      let k := laneKey creel lane
      let l := laneAt y k
      let after : Lane := { l with queue := l.queue ++ ws, timerStart := if l.queue = [] then y.t.timeBase else l.timerStart }
      let due := decide (64 ≤ freeWords l) && decide (freeWords after < 64)
      { setLane k after y with cr := { (setLane k after y).cr with statusDue := y.cr.statusDue || due } } :=
  (if_neg (Bool.eq_false_iff.mp hnot)).trans (if_neg (Nat.not_lt.mpr hfits))

end

/-! ### CREEL_STATUS and held items (R440, R450) -/

@[simp] theorem noteTx_t (p : Port) (y : Sys) : (noteTx p y).t = y.t := by cases p <;> rfl

@[simp] theorem noteTx_svc (p : Port) (y : Sys) : (noteTx p y).svc = y.svc := by cases p <;> rfl

@[simp] theorem sendSeq_t (svc : Bool) (typ : Nat) (payload : List Byte) (y : Sys) : (sendSeq svc typ payload y).t = y.t := by
  simp [sendSeq]

theorem sendSeq_if_t (q : Prop) [Decidable q] (svc : Bool) (typ : Nat) (payload : List Byte) (y : Sys) :
    (if q then sendSeq svc typ payload y else y).t = y.t := by
  split
  · exact sendSeq_t svc typ payload y
  · rfl

/-- A frame of the treadle session leaves the service session as it was. -/
@[simp] theorem sendSeq_treadle_svc (typ : Nat) (payload : List Byte) (y : Sys) : (sendSeq false typ payload y).svc = y.svc :=
  noteTx_svc _ _

theorem execCreelStatus_sends (hanswers : answers s.sys = true) (hopen : s.sys.trd.state = .open ∨ s.sys.svc.state = .open)
    (hdue : s.sys.cr.statusDue = true ∨ s.sys.cr.lastStatus + 100000 ≤ s.sys.t.timeBase) :
    execCreelStatus s =
      let p := statusPayload s.sys
      let y := if s.sys.trd.state = .open then sendSeq false 0x13 p s.sys else s.sys
      let y := if s.sys.svc.state = .open then sendSeq true 0x13 p y else y
      onward s { y with cr := { y.cr with statusDue := false, lastStatus := s.sys.t.timeBase } } := by
  refine onSys_eq ((if_pos ?_).trans ?_)
  · rcases hopen with h | h <;> rcases hdue with h' | h' <;> simp [hanswers, h, h']
  · have hsvc : (if s.sys.trd.state = .open then sendSeq false 0x13 (statusPayload s.sys) s.sys else s.sys).svc = s.sys.svc := by
      split <;> simp
    dsimp only
    rw [hsvc, sendSeq_if_t, sendSeq_if_t]

theorem execReplyFlush_flushes {svc : Bool} (hanswers : answers s.sys = true) (hopen : (sessOf s.sys svc).state = .open)
    (hdue : flushDue s.sys (sessOf s.sys svc) = true) : execReplyFlush svc s = onward s (flushHeld svc s.sys) :=
  onSys_eq (if_pos (by simp [hanswers, hopen, hdue]))

end

/-- Settles O30: each frame is taken, each send is due. A keepalive is due on a port whose link is up, which the row's operand says
(log 117). -/
theorem frameEventsComplete : Obligations.FrameEventsComplete := by
  unfold Obligations.FrameEventsComplete
  refine ⟨?keepalive, ?dropped, ?send, ?resend, ?write, ?status, ?flush⟩
  case keepalive =>
    intro s f htaken
    exact (onSys_eq (onFrame_taken htaken _) : execKeepalive f s = _)
  case dropped =>
    intro s f k hanswers hdrop
    exact execDroppedFrame_counts hanswers hdrop
  case send =>
    intro s p hanswers hdue
    exact execKeepaliveSend_sends hanswers hdue
  case resend =>
    intro s svc seq f hanswers
    dsimp only
    intro hopen hfind
    exact execFrameResend_sends hanswers hopen hfind
  case write =>
    intro s f htaken
    dsimp only
    intro hforced hclosing
    have hexec := execCreelWrite_writes htaken hforced hclosing
    refine ⟨fun hover => hexec.trans ?_, fun hnot hfits => hexec.trans ?_, fun hnot hfull => hexec.trans ?_⟩
    · rw [writeLane_overrun (by simpa using hover)]
    · rw [writeLane_fits (by simpa using hnot) (by simpa using hfits)]
      simp
    · rw [writeLane_full (by simpa using hnot) (by simpa using hfull)]
      simp
  case status =>
    intro s hanswers hopen hdue
    exact execCreelStatus_sends hanswers hopen hdue
  case flush =>
    intro s svc hanswers hopen hdue
    exact execReplyFlush_flushes hanswers hopen hdue

/-! ### Session frames (R423, R425 to R429) -/

section
variable {s : State} {z : Sys} {f : RxFrame} {typ : Nat}

/-- A session frame that nothing drops and no common reason rejects takes effect (R423, R425). -/
theorem onSessionFrame_taken (htaken : SessionTaken typ f s z) (effect : Sys → Sys) : onSessionFrame typ f effect s.sys = effect z := by
  obtain ⟨⟨hanswers, rfl, hdrop⟩, hreason, hz⟩ := htaken
  unfold onSessionFrame
  rw [if_pos (by simp [hanswers]), hdrop]
  dsimp only
  rw [← hz, hreason]

/-- FORCE of a SESSION_OPEN (R427). -/
theorem force_eq (n : Nat) : (nfld n 0 1 == 1) = n.testBit 0 := by
  rw [Bool.eq_iff_iff, beq_iff_eq, Nat.testBit_zero, decide_eq_true_iff, nfld, Nat.shiftRight_zero, Nat.pow_one]

section
variable (hversion : ¬(0x10 < at8 f.payload 8 1 ∨ at8 f.payload 9 1 < 0x10)) (hforced : (sessOf z (onService f)).forced = none)
include hversion hforced

theorem openFrame_none (hstate : (sessOf z (onService f)).state = .none) :
    openFrame f z = openSession (onService f) (sessionId f) f.port z := by
  simp only [openFrame, hforced, if_neg hversion, hstate]

theorem openFrame_lapsed (hstate : (sessOf z (onService f)).state = .lapsed) :
    openFrame f z = forceOut (onService f) (sessionId f) f.port z := by
  simp only [openFrame, hforced, if_neg hversion, hstate]

/-- The session that is open is accepted again. -/
theorem openFrame_same (hstate : (sessOf z (onService f)).state = .open) (hid : (sessOf z (onService f)).id = sessionId f) :
    openFrame f z = sendAccept (onService f) f.port z := by
  simp only [openFrame, hforced, if_neg hversion, hstate, if_pos hid]

/-- An open session makes way for another with FORCE, and only so. -/
theorem openFrame_other (hstate : (sessOf z (onService f)).state = .open) (hid : (sessOf z (onService f)).id ≠ sessionId f) :
    openFrame f z = if (at8 f.payload 10 1).testBit 0 = true then forceOut (onService f) (sessionId f) f.port z
      else sendReject f 0x02 z := by
  simp only [openFrame, hforced, if_neg hversion, hstate, if_neg hid, force_eq]

end

/-- A SESSION_CLOSE of the session that is open or lapsed discards what is not read (R429). -/
theorem execSessionClose_closes (htaken : SessionTaken 0x05 f s z) (hstate : (sessOf z (onService f)).state ≠ .none)
    (hid : (sessOf z (onService f)).id = sessionId f) (hforced : (sessOf z (onService f)).forced = none)
    (hclosing : (sessOf z (onService f)).closing = false) :
    execSessionClose f s =
      let svc := onService f
      let d := discardUnread svc z
      let ss := sessOf d.2 svc
      onward s (tryClose svc (setSess d.2 svc { ss with closing := true, discarded := ss.discarded + d.1 })) := by
  unfold execSessionClose
  refine onSys_eq ((onSessionFrame_taken htaken _).trans ?_)
  refine (if_neg (by simp [hstate, hid, hforced])).trans (if_neg (by simp [hclosing]))

/-- A SESSION_RESUME of the session that is open or lapsed resumes it, and sends again what is not acknowledged (R428, R430). -/
theorem execSessionResume_resumes (htaken : SessionTaken 0x04 f s z) (hstate : (sessOf z (onService f)).state ≠ .none)
    (hid : (sessOf z (onService f)).id = sessionId f) (hforced : (sessOf z (onService f)).forced = none) :
    execSessionResume f s =
      let svc := onService f
      let ss := sessOf z svc
      let back := ackFrames (at8 f.payload 8 4) { ss with state := .open, port := f.port, lastRx := z.t.timeBase }
      let y := sendAccept svc f.port (setSess z svc back)
      let resumed := sessOf y svc
      let again := resumed.unacked.map (fun t => { t with port := f.port, ack := resumed.rxSeq })
      let y := setSess y svc { resumed with wire := resumed.wire ++ again }
      onward s (if ss.state = .lapsed then flushHeld svc y else y) := by
  unfold execSessionResume
  refine onSys_eq ((onSessionFrame_taken htaken _).trans ((if_neg (by simp [hstate, hid, hforced])).trans ?_))
  simp only [beq_iff_eq]

end

/-! ### A forced end, and a lapse (R427, R430) -/

section
variable {s : State} {svc : Bool}

/-- None of a session's commands is left (R427, R429). -/
theorem sessionBusy_eq_false {y : Sys} (hnone : ∀ c ∈ y.cm.cmds, (c.creel = 64) = (svc = true) → False) : sessionBusy y svc = false := by
  refine List.any_eq_false.mpr (fun c hc hmine => hnone c hc ?_)
  rw [← beq_iff_eq.mp hmine]
  simp

@[simp] theorem sessOf_recordEvent (severity code source data : Nat) (y : Sys) :
    sessOf (recordEvent severity code source data y) svc = sessOf y svc := by
  rw [recordEvent_nv]
  rfl

@[simp] theorem sessOf_disarm (b : Bool) (y : Sys) : sessOf (disarm b y) svc = sessOf y svc := by
  unfold disarm
  split <;> rfl

@[simp] theorem sessOf_noteTx (p : Port) (y : Sys) : sessOf (noteTx p y) svc = sessOf y svc := by cases p <;> rfl

@[simp] theorem sessOf_breakLocks (b : Bool) (cause : Nat) (y : Sys) : sessOf (breakLocks b cause y) svc = sessOf y svc := by
  unfold breakLocks
  refine foldl_keeps (fun y => sessOf y svc) _ (fun z k => ?_) _ y
  dsimp only
  split
  · rw [sessOf_recordEvent]
    rfl
  · rfl

/-- A session that has ended keeps the opens that wait for its end (R427). -/
theorem deferred_sessionEnded (reason : Nat) (y : Sys) : (sessOf (sessionEnded svc reason y) svc).deferred = (sessOf y svc).deferred := by
  simp [sessionEnded, sendPlain]

/-- The session that a forced end makes way for opens; none waits behind it (R427). -/
theorem execSessionForceEnd_opens {q : Word64 × Port} (hanswers : answers s.sys = true) (hforced : (sessOf s.sys svc).forced = some q)
    (hdeferred : (sessOf s.sys svc).deferred = []) (hidle : sessionBusy s.sys svc = false) :
    execSessionForceEnd svc s = onward s (openSession svc q.1 q.2 (sessionEnded svc 0x01 (breakLocks svc 2 s.sys))) := by
  refine onSys_eq ?_
  rw [hforced]
  refine (if_neg (by simp [hanswers, hidle])).trans ?_
  dsimp only
  rw [deferred_sessionEnded, sessOf_breakLocks, hdeferred]
  rfl

/-- A session whose timer has run out lapses (R430). -/
theorem execSessionLapse_lapses (hanswers : answers s.sys = true) (hopen : (sessOf s.sys svc).state = .open)
    (hforced : (sessOf s.sys svc).forced = none) (hclosing : (sessOf s.sys svc).closing = false)
    (hdue : (sessOf s.sys svc).lastRx + s.sys.cr.timeoutMs.toNat * 1000000 ≤ s.sys.t.timeBase) :
    execSessionLapse svc s =
      let y := if svc then endTransfer 0x25 s.sys else s.sys
      onward s (breakLocks svc 4 (setSess y svc { sessOf y svc with state := .lapsed })) :=
  onSys_eq (if_pos (by simp [sessionEnding, hanswers, hopen, hforced, hclosing, hdue]))

end

/-- Settles O31: each frame is taken, so it has the effect that the state of its session gives it; a forced end and a lapse are
due. -/
theorem sessionEventsComplete : Obligations.SessionEventsComplete := by
  unfold Obligations.SessionEventsComplete
  refine ⟨?opens, ?ends, ?closes, ?resumes, ?lapses⟩
  case opens =>
    intro s f z htaken
    dsimp only
    intro hlow hhigh hforced
    have hversion : ¬(0x10 < at8 f.payload 8 1 ∨ at8 f.payload 9 1 < 0x10) := by omega
    have hexec : execSessionOpen f s = onward s (openFrame f z) := onSys_eq (onSessionFrame_taken htaken _)
    refine ⟨fun hnone => hexec.trans ?_, fun hopen hid => hexec.trans ?_, fun hout => hexec.trans ?_,
      fun hopen hid hforce => hexec.trans ?_⟩
    · rw [openFrame_none hversion hforced hnone]
    · rw [openFrame_same hversion hforced hopen hid]
    · rcases hout with hlapsed | ⟨hopen, hid, hforce⟩
      · rw [openFrame_lapsed hversion hforced hlapsed]
      · rw [openFrame_other hversion hforced hopen hid, if_pos hforce]
    · rw [openFrame_other hversion hforced hopen hid, if_neg (Bool.eq_false_iff.mp hforce)]
  case ends =>
    intro s svc q hanswers hforced hdeferred hnone
    exact execSessionForceEnd_opens hanswers hforced hdeferred (sessionBusy_eq_false hnone)
  case closes =>
    intro s f z htaken
    dsimp only
    intro hstate hid hforced hclosing
    exact execSessionClose_closes htaken hstate hid hforced hclosing
  case resumes =>
    intro s f z htaken
    dsimp only
    intro hstate hid hforced
    exact execSessionResume_resumes htaken hstate hid hforced
  case lapses =>
    intro s svc hanswers
    dsimp only
    intro hopen hforced hclosing hdue
    exact execSessionLapse_lapses hanswers hopen hforced hclosing hdue

end Sys2Proof.Laws
end

section
/-! READING AND COMPLETION. What a packet that is read becomes, what else it leaves as it was, and when stalls, completions and
expiries take place. -/

namespace Sys2Proof.Laws

open Sys2Proof Sys2Proof.Machine Sys2Proof.Safety

/-! ### What the end of a command's work, and of run-ahead, leave as they were -/

@[simp] theorem dropCopies_cr (n : Nat) (test : Copy → Bool) (killed : Bool) (y : Sys) : (dropCopies n test killed y).cr = y.cr := by
  unfold dropCopies
  dsimp only
  split <;> rfl

@[simp] theorem dropCopies_cm (n : Nat) (test : Copy → Bool) (killed : Bool) (y : Sys) : (dropCopies n test killed y).cm = y.cm := by
  unfold dropCopies
  dsimp only
  split <;> rfl

@[simp] theorem trimCopies_cr (n : Nat) (y : Sys) : (trimCopies n y).cr = y.cr := by
  unfold trimCopies
  split <;> simp

@[simp] theorem trimCopies_cm (n : Nat) (y : Sys) : (trimCopies n y).cm = y.cm := by
  unfold trimCopies
  split <;> simp

@[simp] theorem trimAll_cr (y : Sys) : (trimAll y).cr = y.cr := foldl_keeps Sys.cr _ (fun z n => trimCopies_cr n z) _ y

@[simp] theorem trimAll_cm (y : Sys) : (trimAll y).cm = y.cm := foldl_keeps Sys.cm _ (fun z n => trimCopies_cm n z) _ y

/-- Where a command came from and what it asks: the parts of a command that its work does not move. -/
def origin (c : Cmd) : Nat × Packet × Nat × Nat × Nat := (c.id, c.pkt, c.creel, c.lane, c.words)

/-- The origins of the commands that have not completed. -/
def origins (y : Sys) : List (Nat × Packet × Nat × Nat × Nat) := y.cm.cmds.map origin

theorem origins_modCmd {f : Cmd → Cmd} (hf : ∀ c, origin (f c) = origin c) (id : Nat) (y : Sys) : origins (modCmd id f y) = origins y := by
  unfold origins modCmd
  rw [List.map_map]
  refine List.map_congr_left (fun c _ => ?_)
  rw [Function.comp_apply]
  split
  · exact hf c
  · rfl

theorem modCmd_nextId (id : Nat) (f : Cmd → Cmd) (y : Sys) : (modCmd id f y).cm.nextId = y.cm.nextId := rfl

theorem origins_congr {y z : Sys} (h : y.cm = z.cm) : origins y = origins z := by
  unfold origins
  rw [h]

/-- What the digests take from a command whose work is finished moves neither creels nor commands (R278, R389). -/
theorem digested_keeps (q : Prop) [Decidable q] (w : SMap Byte) (y : Sys) :
    (if q then setDirty 2 (addDigests w y) else addDigests w y).cr = y.cr ∧
      (if q then setDirty 2 (addDigests w y) else addDigests w y).cm = y.cm := by
  split <;> exact ⟨rfl, rfl⟩

/-- A command whose work is finished stays in the list, and so do the others (R498). -/
theorem finish_keeps (id : Nat) (st : Status) (res : List Word64) (y : Sys) :
    (finish id st res y).cr = y.cr ∧ (finish id st res y).cm.nextId = y.cm.nextId ∧ origins (finish id st res y) = origins y := by
  unfold finish
  split
  · exact ⟨rfl, rfl, rfl⟩
  · refine ⟨(digested_keeps _ _ y).1, (modCmd_nextId id _ _).trans (congrArg CmdSt.nextId (digested_keeps _ _ y).2), ?_⟩
    exact (origins_modCmd (by exact fun _ => rfl) id _).trans (origins_congr (digested_keeps _ _ y).2)

/-! ### PACKET_READ (R435, R445) -/

section
variable {creel lane : Nat} {y : Sys}

theorem origins_coverRead (k id : Nat) (y : Sys) : origins (coverRead k id y) = origins y := by
  unfold origins coverRead
  rw [List.map_map]
  refine List.map_congr_left (fun c _ => ?_)
  rw [Function.comp_apply]
  dsimp only
  split <;> rfl

theorem coverRead_nextId (k id : Nat) (y : Sys) : (coverRead k id y).cm.nextId = y.cm.nextId := rfl

/-- A packet that is read becomes the newest command. -/
theorem origins_newCmd (op creel lane words : Nat) (sealed : Bool) (pk : Packet) (y : Sys) :
    origins (newCmd op creel lane words sealed pk y) = origins y ++ [(y.cm.nextId, pk, creel, lane, words)] := by
  unfold origins newCmd
  rw [List.map_append]
  split <;> rfl

@[simp] theorem laneAt_setLane (k : Nat) (l : Lane) (y : Sys) : laneAt (setLane k l y) k = l := by
  simp [laneAt]

/-- In z the head of a lane of y has been read: it has left the lane, and is the newest command. -/
def HeadRead (creel lane : Nat) (y z : Sys) : Prop :=
  let k := laneKey creel lane
  let l := laneAt y k
  let ws := headWords 32 l.queue
  laneAt z k = afterRead creel ws.length y.t.timeBase l ∧ z.cm.nextId = y.cm.nextId + 1 ∧
    origins z = origins y ++ [(y.cm.nextId, packetOf (wordsBytes ws), creel, lane, ws.length)]

/-- The head is read where it leaves its lane and then becomes a command. -/
theorem headRead_newCmd {w : Sys} (hlane : laneAt w (laneKey creel lane) =
      afterRead creel (headWords 32 (laneAt y (laneKey creel lane)).queue).length y.t.timeBase (laneAt y (laneKey creel lane)))
    (hcm : w.cm = y.cm) (op : Nat) (sealed : Bool) :
    let ws := headWords 32 (laneAt y (laneKey creel lane)).queue
    HeadRead creel lane y
      (newCmd op creel lane ws.length sealed (packetOf (wordsBytes ws)) (coverRead (laneKey creel lane) y.cm.nextId w)) := by
  have hid : (coverRead (laneKey creel lane) y.cm.nextId w).cm.nextId = y.cm.nextId :=
    (coverRead_nextId _ _ w).trans (congrArg CmdSt.nextId hcm)
  refine ⟨hlane, congrArg (· + 1) hid, (origins_newCmd _ _ _ _ _ _ _).trans ?_⟩
  rw [origins_coverRead, origins_congr hcm, hid]

/-- A refusal of the packet leaves it read. -/
theorem headRead_refused {z : Sys} (h : HeadRead creel lane y z) (id : Nat) (st : Status) :
    HeadRead creel lane y (trimAll (finish id st [] z)) := by
  obtain ⟨hlane, hnext, horigins⟩ := h
  obtain ⟨hcr, hid, hkept⟩ := finish_keeps id st [] z
  refine ⟨?_, ?_, ?_⟩
  · rw [laneAt, trimAll_cr, hcr]
    exact hlane
  · rw [trimAll_cm, hid]
    exact hnext
  · rw [origins_congr (trimAll_cm _), hkept]
    exact horigins

theorem readHead_reads (creel lane : Nat) (y : Sys) : HeadRead creel lane y (readHead creel lane y) := by
  unfold readHead
  dsimp only
  split
  · refine headRead_refused ?_ _ _
    refine headRead_newCmd ?_ ?_ _ _
    · exact laneAt_setLane _ _ y
    · rfl
  · refine headRead_newCmd ?_ ?_ _ _
    · exact laneAt_setLane _ _ y
    · rfl

end

theorem execPacketRead_reads {s : State} {creel lane : Nat} (hnext : nextHead s.sys = some (creel, lane)) :
    execPacketRead s = onward s (readHead creel lane s.sys) := by
  refine onSys_eq ?_
  rw [hnext]

/-! ### Stalls, completions and expiries (R447, R448, R465, R498) -/

theorem execStall_reports {s : State} {creel lane : Nat} (hup : isUp s.sys = true)
    (hlane : creel < 64 ∧ lane < 8 ∨ creel = 64 ∧ lane = 0) (hqueue : (laneAt s.sys (laneKey creel lane)).queue ≠ [])
    (hnew : (laneAt s.sys (laneKey creel lane)).stalled = false) (htimer : (laneAt s.sys (laneKey creel lane)).stallTime ≠ 0)
    (hdue : (laneAt s.sys (laneKey creel lane)).timerStart + (laneAt s.sys (laneKey creel lane)).stallTime.toNat * 1000 ≤
      s.sys.t.timeBase) :
    execStall creel lane s =
      let k := laneKey creel lane
      let l := laneAt s.sys k
      onward s (notice 1 (creelEnc creel + lane * 2 ^ 8) (at8 (wordsBytes (headWords 32 l.queue)) 4 4) (packetsIn l) 0
        (setLane k { l with stalled := true } s.sys)) := by
  have hnamed : decide (creel ≤ 64 ∧ lane ≤ 7) = true := decide_eq_true (by omega)
  have hservice : (creel != 64 || lane == 0) = true := by
    rcases hlane with ⟨hcreel, -⟩ | ⟨-, rfl⟩
    · simp [Nat.ne_of_lt hcreel]
    · simp
  have hset : ((laneAt s.sys (laneKey creel lane)).stallTime != 0) = true := bne_iff_ne.mpr htimer
  exact onSys_eq (if_pos (by simp only [hup, hnamed, hservice, hset]; simp [hqueue, hnew, hdue]))

theorem execCommandCompletion_completes {s : State} {creel lane : Nat} {c : Cmd} {st : Status} {res : List Word64}
    (hanswers : answers s.sys = true) (holdest : oldest s.sys creel lane = some c) (hdone : c.phase = .done st res) :
    execCommandCompletion creel lane s = onward s (complete c st res s.sys) := by
  refine onSys_eq ?_
  rw [holdest]
  dsimp only
  rw [hdone]
  exact if_pos hanswers

/-- A lock whose lease has ended is broken, with its notice and its event (R465). -/
theorem expireOne_due {k : Nat} {y : Sys} (hheld : (mapGet {} y.lck k).state = LockState.held)
    (hdue : (mapGet {} y.lck k).expires ≤ pickNow y) :
    expireOne k y =
      let l := mapGet {} y.lck k
      recordEvent 0 0x0061 k (1 + creelEnc l.owner * 256) (notice 8 k 0 (creelEnc l.owner) 0
        { y with lck := mapSet {} y.lck k { l with state := .broken, cause := 1 } }) := by
  refine (if_pos (by simp [lockDue, hheld, hdue])).trans ?_
  rw [expireLock, if_pos ⟨hheld, hdue⟩]

/-- Settles O32: the lane whose head is read loses it to the newest command; a stall, a completion and an expiry are due. -/
theorem readingAndCompletionComplete : Obligations.ReadingAndCompletionComplete := by
  unfold Obligations.ReadingAndCompletionComplete
  refine ⟨?reads, ?stalls, ?completes, ?expires⟩
  case reads =>
    intro s creel lane hnext
    obtain ⟨hlane, hid, horigins⟩ := readHead_reads creel lane s.sys
    obtain ⟨c, hc, horigin⟩ := List.mem_map.mp (horigins ▸ List.mem_append_right _ (List.mem_singleton_self _))
    simp only [origin, Prod.mk.injEq] at horigin
    exact ⟨_, execPacketRead_reads hnext, congrArg Lane.queue hlane, hid, ⟨c, hc, horigin⟩, rfl⟩
  case stalls =>
    intro s creel lane hup hlane
    dsimp only
    intro hqueue hnew htimer hdue
    exact execStall_reports hup hlane hqueue hnew htimer hdue
  case completes =>
    intro s creel lane c st res hanswers holdest hdone
    exact execCommandCompletion_completes hanswers holdest hdone
  case expires =>
    intro s k hanswers hk
    dsimp only
    intro hheld hdue
    refine (onSys_eq (if_pos (by simp [hanswers, hk])) : execLockExpired k s = _).trans ?_
    rw [expireOne_due hheld hdue]

end Sys2Proof.Laws
end

section
/-! INTEGRITY EVENTS. Checkpoint streams in, the burler's slices and tests, mends, and units that fail. -/

namespace Sys2Proof.Laws

open Sys2Proof Sys2Proof.Machine Sys2Proof.Safety

/-! ### Checkpoint streams in (R524 to R526) -/

section
variable {s : State} {port : Nat} {x : Ckpt} {b : List Byte}
variable (hup : isUp s.sys = true) (hport : portUp s.sys port = true)
  (hstream : s.sys.stp.ckpts.find? (fun c => c.port == port && c.inward) = some x) (hgood : badCkpt x b = false)
include hup hport hstream hgood

/-- A packet that R524 does not drop has the effect of its kind on the stream of its port. -/
theorem onCkpt_takes {cflags : Nat} (hkind : at8 b 1 1 = cflags) (effect : Ckpt → List Byte → Sys → Sys) :
    onCkpt cflags port (.ckpt b) effect s.sys = effect x b s.sys := by
  have hruns : (isUp s.sys && portUp s.sys port) = true := by rw [hup, hport]; rfl
  unfold onCkpt
  dsimp only
  rw [if_pos hruns, hstream]
  dsimp only
  rw [hgood, if_neg Bool.false_ne_true, if_pos hkind]

/-- The data of a stream is written through the face range of its entry, where the entry still loads and holds all of it (R525,
R526; log 36). -/
theorem execCkptData_writes (hkind : at8 b 1 1 = 1) (hloading : (entryAt s.sys x.entry).state = .loading)
    (hfree : rangeHeld s.sys ((entryAt s.sys x.entry).face + at8 b 16 5) (b.drop 32).length = false)
    (hfits : at8 b 16 5 + (b.drop 32).length ≤ (entryAt s.sys x.entry).length) :
    execCkptData port (.ckpt b) s =
      let x' := { x with moved := x.moved + (b.drop 32).length, digest := x.digest + bytesDigest s.sys x.entry (at8 b 16 5) (b.drop 32) }
      let y := writeBytes none ((entryAt s.sys x.entry).face + at8 b 16 5) (b.drop 32) s.sys
      onward s { y with stp := { y.stp with ckpts := y.stp.ckpts.map (fun d => if d.cmd = x.cmd then x' else d) } } := by
  refine onSys_eq ((onCkpt_takes hup hport hstream hgood hkind _).trans ?_)
  exact (if_neg (Bool.eq_false_iff.mp hfree)).trans (if_pos ⟨hloading, hfits⟩)

/-- The END packet of its peer ends a stream (R526, R533). -/
theorem execCkptEnd_ends (hkind : at8 b 1 1 = 2) :
    execCkptEnd port (.ckpt b) s = onward s (finish x.cmd .ok
      [BitVec.ofNat 64 x.moved, x.digest, BitVec.ofNat 64 (at8 b 6 6), BitVec.ofNat 64 (at8 b 40 8)] (dropCkpt x.cmd s.sys)) :=
  onSys_eq (onCkpt_takes hup hport hstream hgood hkind _)

end

/-! ### Slices of the burler (R513) -/

section
variable {s : State} {die n : Nat} (hruns : burlerRuns s.sys die = true) (hunder : (underTest s.sys die).bind (shuttleAt s.sys) = some n)
include hruns hunder

/-- A slice that needs no tile position holds none. -/
theorem execBurlerSlice_holdsNone :
    execBurlerSlice die false s = onward s (setBur die { burDie s.sys die with holds := none } s.sys) := by
  refine onSys_eq ((if_pos hruns).trans ?_)
  dsimp only
  rw [hunder]
  rfl

/-- A slice that needs a tile position takes a closed one. -/
theorem execBurlerSlice_takes {t : Nat} (hclosed : (List.range 8).find? (fun t => tileClosed (tileAt s.sys n t)) = some t) :
    execBurlerSlice die true s = onward s (setBur die { burDie s.sys die with holds := some (n, t) } s.sys) := by
  refine onSys_eq ((if_pos hruns).trans ?_)
  dsimp only
  rw [hunder]
  dsimp only
  rw [if_pos rfl, hclosed]

/-- A slice that finds none closed waits, counted. -/
theorem execBurlerSlice_waits (hopen : (List.range 8).find? (fun t => tileClosed (tileAt s.sys n t)) = none) :
    execBurlerSlice die true s = onward s
      (setBur die { burDie s.sys die with holds := none, delayed := satAt (umax 8) ((burDie s.sys die).delayed + 1) } s.sys) := by
  refine onSys_eq ((if_pos hruns).trans ?_)
  dsimp only
  rw [hunder]
  dsimp only
  rw [if_pos rfl, hopen]

end

/-! ### Tests and mends (R510, R511, R515, R518, R519) -/

section
variable {s : State} {die part pos : Nat} {digest expected : Word64}
variable (hunder : underTest s.sys die = some pos) (hruns : burlerRuns s.sys die = true) (hpart : 1 ≤ part ∧ part ≤ 5)
include hunder hruns hpart

/-- A test that matches is the position's last clean one. -/
theorem execBurlerTestDone_matches (hsame : digest = expected) :
    execBurlerTestDone die part digest expected s =
      let y := endTest die s.sys
      onward s { y with bur := { y.bur with cleanPicks := mapPut y.bur.cleanPicks pos (pickNow y + 1) } } := by
  refine (onAll_eq ?_ : _ = onwardAll s (s.perm, _))
  dsimp only
  rw [hunder]
  exact (if_pos (by simp [hruns, hpart])).trans (if_pos hsame)

/-- A test that does not match marks the position failed, for good, and starts the mend of its shuttle. -/
theorem execBurlerTestDone_fails {n : Nat} (hdiffer : digest ≠ expected) (hshuttle : shuttleAt s.sys pos = some n) :
    execBurlerTestDone die part digest expected s =
      let p := markFailed pos s.perm
      onwardAll s (p, startMend p n pos (failTiles n (reportFail (some n) pos part (endTest die s.sys)))) := by
  refine onAll_eq ?_
  dsimp only
  rw [hunder]
  refine (if_pos (by simp [hruns, hpart])).trans ((if_neg hdiffer).trans ?_)
  rw [hshuttle]

end

section
variable {s : State} {die : Nat} {m : Mend} (hmend : mendOf s.sys die = some m)
include hmend

/-- A mend whose spare passes its test ends with the slot there; that test is the spare's last clean one (log 70). -/
theorem execMendDone_moves :
    execMendDone die true s =
      let n := 128 * die + m.slot
      let y := setBur die { burDie s.sys die with mend := none } s.sys
      onward s (moveSlot n m.failed (some m.spare)
        { y with bur := { y.bur with cleanPicks := mapPut y.bur.cleanPicks (17 * (n / 16) + m.spare) (pickNow y + 1) } }) := by
  refine (onAll_eq ?_ : _ = onwardAll s (s.perm, _))
  dsimp only
  rw [hmend]
  rfl

/-- A mend whose spare fails ends with the slot lost, and the spare is marked failed. -/
theorem execMendDone_loses :
    execMendDone die false s =
      let n := 128 * die + m.slot
      let y := setBur die { burDie s.sys die with mend := none } s.sys
      let pos := 17 * (n / 16) + m.spare
      onwardAll s (markFailed pos s.perm, moveSlot n m.failed none
        (failTiles n (reportFail none pos ((freshWord y).1.toNat % 5 + 1) (freshWord y).2))) := by
  refine onAll_eq ?_
  dsimp only
  rw [hmend]
  rfl

end

/-! ### Unit failures (R403, R451, R508) -/

theorem execUnitFailure_stops {s : State} {cls inst : Nat} (hup : isUp s.sys = true) (hchecked : inst < checkedUnits cls) :
    execUnitFailure cls inst s =
      let cs := s.sys.cm.cmds.filter (onFailedUnit s.sys cls inst)
      let y := trimAll (abortEngines (cs.map (fun c => c.id)) (cs.foldl failCmd s.sys))
      onward s (recordEvent 4 0x0030 0 (inst + cls * 2 ^ 32) { y with pwr := { y.pwr with stopped := true } }) :=
  onSys_eq (if_pos (by simp [hup, hchecked]))

/-- Settles O39: each event finds its stream, its position under test, its mend or its unit, and acts. Where a stream's data is not
written, and how it ends, are logs 36 and 68; the commands that a failed unit ends, log 69; a slice's hold of a tile position and the
clean test of a spare, log 70. -/
theorem integrityEventsComplete : Obligations.IntegrityEventsComplete := by
  unfold Obligations.IntegrityEventsComplete
  refine ⟨?streams, ?slices, ?tests, ?mends, ?units⟩
  case streams =>
    intro s port x b hup hport hstream hgood
    refine ⟨fun hdata hloading hfree hfits => ?_, fun hend => ?_⟩
    · exact execCkptData_writes hup hport hstream hgood hdata hloading hfree hfits
    · exact execCkptEnd_ends hup hport hstream hgood hend
  case slices =>
    intro s die n hruns hunder
    exact ⟨execBurlerSlice_holdsNone hruns hunder, fun t hclosed => execBurlerSlice_takes hruns hunder hclosed,
      fun hopen => execBurlerSlice_waits hruns hunder hopen⟩
  case tests =>
    intro s die part pos digest expected hunder hruns hlow hhigh
    exact ⟨fun hsame => execBurlerTestDone_matches hunder hruns ⟨hlow, hhigh⟩ hsame,
      fun n hdiffer hshuttle => execBurlerTestDone_fails hunder hruns ⟨hlow, hhigh⟩ hdiffer hshuttle⟩
  case mends =>
    intro s die m hmend
    exact ⟨execMendDone_moves hmend, execMendDone_loses hmend⟩
  case units =>
    intro s cls inst hup hchecked
    exact execUnitFailure_stops hup hchecked

end Sys2Proof.Laws
end

section
/-! STEPS AND STAMPS. What a step does with the queue, and how stamps compare. -/

namespace Sys2Proof.Laws

open Sys2Proof Sys2Proof.Machine Sys2Proof.Safety

/-! ### The queue (R475) -/

theorem step_cons (c : Instr) (rest : List Instr) (s : State) :
    step { s with pending := c :: rest } = exec c { s with pending := rest } := rfl

/-- On an empty queue a nanosecond passes (log 2). -/
theorem step_nil {s : State} (hempty : s.pending = []) : step s = onward s (tickSys s.sys) := by
  unfold step
  rw [hempty]
  rfl

/-- Settles O1: the queue is either a command and the rest, or empty. -/
theorem stepRunsFrontCommand : Obligations.StepRunsFrontCommand :=
  ⟨step_cons, fun _ hempty => step_nil hempty⟩

/-! ### Stamps (R483, R487) -/

/-- Stamps are ordered by pick, and those of one pick by subpick (R487). -/
theorem stampLt_iff (a b : Stamp) : stampLt a b = true ↔ a.pick < b.pick ∨ a.pick = b.pick ∧ a.sub < b.sub := by
  simp [stampLt]

theorem stampLt_irrefl (a : Stamp) : stampLt a a = false := by
  simp [stampLt]

/-- A saturated stamp has the largest subpick (R483). -/
theorem stampNow_saturated {y : Sys} (hsat : (stampNow y).sat = true) : (stampNow y).sub = 2 ^ 24 - 1 := by
  unfold stampNow at hsat ⊢
  dsimp only at hsat ⊢
  split at hsat
  · cases hsat
  · next hfar => rw [if_neg hfar]

/-- Settles O57: the comparison is lexicographic, and only a stamp cut to the largest subpick is flagged saturated. -/
theorem stampsComparePickFirst : Obligations.StampsComparePickFirst :=
  ⟨stampLt_iff, fun _ hsat => stampNow_saturated hsat⟩

end Sys2Proof.Laws
end

section
/-! COMPLETION STAMPS. A completion moves of the lanes only the last completion stamp of its own, which does not fall. -/

namespace Sys2Proof.Laws

open Sys2Proof Sys2Proof.Machine Sys2Proof.Safety

/-! ### What keeps the lanes: frames, the trace and the ends of leases and transfers -/

section
variable (y : Sys)

@[simp] theorem noteTx_lanes (p : Port) : (noteTx p y).cr.lanes = y.cr.lanes := by cases p <;> rfl

@[simp] theorem sendPlain_lanes (svc : Bool) (p : Port) (typ : Nat) (payload : List Byte) :
    (sendPlain svc p typ payload y).cr.lanes = y.cr.lanes := by
  simp [sendPlain]

@[simp] theorem sendSeq_lanes (svc : Bool) (typ : Nat) (payload : List Byte) : (sendSeq svc typ payload y).cr.lanes = y.cr.lanes := by
  simp [sendSeq]

@[simp] theorem traceRec_cr (u typ : Nat) (s : Stamp) (code tag status creel lane arg : Nat) :
    (traceRec u typ s code tag status creel lane arg y).cr = y.cr := by
  rw [traceRec_units]

@[simp] theorem recordEvent_cr (severity code source data : Nat) : (recordEvent severity code source data y).cr = y.cr := by
  rw [recordEvent_nv]

@[simp] theorem notice_cr (kind source tag arg step : Nat) : (notice kind source tag arg step y).cr = y.cr := by
  unfold notice
  dsimp only
  split <;> simp

theorem writeTriggers_cr (s : Stamp) (cause user : Nat) (us : List Nat) : (writeTriggers s cause user us y).cr = y.cr := by
  induction us generalizing y with
  | nil => rfl
  | cons u us ih => rw [writeTriggers, ih, traceRec_cr]

@[simp] theorem traceFire_cr (cause user unit : Nat) (s : Stamp) : (traceFire cause user unit s y).cr = y.cr := by
  unfold traceFire
  dsimp only
  split
  · rw [notice_cr, writeTriggers_cr]
  · rfl

@[simp] theorem holdReply_cr (svc : Bool) (bytes : List Byte) : (holdReply svc bytes y).cr = y.cr := by
  unfold holdReply
  dsimp only
  split <;> simp

@[simp] theorem breakLocks_cr (svc : Bool) (cause : Nat) : (breakLocks svc cause y).cr = y.cr := by
  unfold breakLocks
  refine foldl_keeps Sys.cr _ (fun z k => ?_) _ y
  dsimp only
  split <;> simp

@[simp] theorem flushHeld_lanes (svc : Bool) : (flushHeld svc y).cr.lanes = y.cr.lanes := by
  unfold flushHeld
  refine (foldl_keeps (fun z : Sys => z.cr.lanes) _ (fun z f => ?_) _ _).trans ?_
  · exact sendSeq_lanes z svc _ _
  · rw [setSess_cr]

@[simp] theorem endTransfer_lanes (result : Nat) : (endTransfer result y).cr.lanes = y.cr.lanes := by
  unfold endTransfer imageStatus
  dsimp only
  (repeat' split) <;> simp

/-! ### What keeps the lanes: the parts of a completion (R498) -/

@[simp] theorem finish_cr (id : Nat) (st : Status) (res : List Word64) : (finish id st res y).cr = y.cr := (finish_keeps id st res y).1

@[simp] theorem closeEnded_cr (c : Cmd) : (closeEnded c y).cr = y.cr := by
  unfold closeEnded
  dsimp only
  (repeat' split) <;> simp

@[simp] theorem releaseBehind_cr (id : Nat) (st : Status) : (releaseBehind id st y).cr = y.cr := by
  unfold releaseBehind
  refine foldl_keeps Sys.cr _ (fun z d => ?_) _ y
  split <;> simp

@[simp] theorem traceCompletion_cr (c : Cmd) (st : Status) (s : Stamp) : (traceCompletion c st s y).cr = y.cr := by
  unfold traceCompletion
  split <;> simp

@[simp] theorem censusIn_cr (c : Cmd) (d : CensusDelta) : (censusIn c d y).cr = y.cr := by
  unfold censusIn
  dsimp only
  split
  · rw [notice_cr]; rfl
  · rfl

@[simp] theorem watchIn_cr (step : Nat) (d : WatchDelta) : (watchIn step d y).cr = y.cr := by
  unfold watchIn
  refine foldl_keeps Sys.cr _ (fun z k => ?_) _ y
  dsimp only
  split <;> rfl

@[simp] theorem keepRecord_cr (c : Cmd) (st : Status) : (keepRecord c st y).cr = y.cr := by
  unfold keepRecord
  dsimp only
  (repeat' split) <;> rfl

@[simp] theorem contribute_cr (c : Cmd) (st : Status) : (contribute c st y).cr = y.cr := by
  unfold contribute
  rw [keepRecord_cr]
  split
  · rw [foldl_keeps Sys.cr _ (fun z d => watchIn_cr z _ d), foldl_keeps Sys.cr _ (fun z d => censusIn_cr z c d)]
  · rfl

@[simp] theorem stepEffects_cr (c : Cmd) (st : Status) : (stepEffects c st y).cr = y.cr := by
  unfold stepEffects
  (repeat' split) <;> simp

@[simp] theorem fatalEffects_cr (st : Status) : (fatalEffects st y).cr = y.cr := by
  unfold fatalEffects
  (repeat' split) <;> simp

@[simp] theorem uncover_cr (id : Nat) : (uncover id y).cr = y.cr :=
  foldl_keeps Sys.cr _ (fun z _ => finish_cr z _ _ _) _ _

@[simp] theorem disarm_cr (svc : Bool) : (disarm svc y).cr = y.cr := by
  unfold disarm
  split <;> rfl

@[simp] theorem sessionEnded_lanes (svc : Bool) (reason : Nat) : (sessionEnded svc reason y).cr.lanes = y.cr.lanes := by
  simp [sessionEnded]

@[simp] theorem tryClose_lanes (svc : Bool) : (tryClose svc y).cr.lanes = y.cr.lanes := by
  unfold tryClose
  dsimp only
  (repeat' split) <;> simp

end

/-! ### Completion stamps (R485, R498) -/

/-- The stamp of a completion at stamp `now` on a lane whose last completion had stamp `last` (R498). -/
def completionStamp (last now : Stamp) : Stamp := if stampLt now last then last else now

theorem completionStamp_not_lt (last now : Stamp) : stampLt (completionStamp last now) last = false := by
  unfold completionStamp
  split
  · exact stampLt_irrefl last
  · next hnotBefore => exact Bool.eq_false_iff.mpr hnotBefore

/-- A completion moves nothing of the lanes but the last completion stamp of its own. -/
theorem complete_lanes (c : Cmd) (st : Status) (res : List Word64) (y : Sys) :
    let l := laneAt y (laneKey c.creel c.lane)
    (complete c st res y).cr.lanes =
      (setLane (laneKey c.creel c.lane) { l with last := completionStamp l.last (stampNow y) } y).cr.lanes := by
  unfold complete
  simp only [tryClose_lanes, uncover_cr, fatalEffects_cr, stepEffects_cr, contribute_cr, traceCompletion_cr, holdReply_cr,
    releaseBehind_cr, closeEnded_cr]
  rfl

theorem last_complete (c : Cmd) (st : Status) (res : List Word64) (y : Sys) :
    (laneAt (complete c st res y) (laneKey c.creel c.lane)).last =
      completionStamp (laneAt y (laneKey c.creel c.lane)).last (stampNow y) := by
  rw [laneAt, complete_lanes]
  exact congrArg Lane.last (laneAt_setLane _ _ y)

/-- Settles O58: the lane's last stamp becomes the later of itself and the stamp now. -/
theorem completionStampsNeverFall : Obligations.CompletionStampsNeverFall := by
  intro c st res y
  dsimp only
  rw [last_complete]
  exact completionStamp_not_lt _ _

end Sys2Proof.Laws
end

section
/-! PICKS. Pick markers and edges, advances and the samples due at them, echoes and sample records. -/

namespace Sys2Proof.Laws

open Sys2Proof Sys2Proof.Machine Sys2Proof.Safety

/-! ### Pick markers and edges (R478 to R481) -/

section
variable {s : State} {f : RxFrame}

/-- A good marker that nothing drops sets the time state by the rule of the pick source. -/
theorem execPick_marks (htaken : FrameTaken 0x20 f s) (hlength : f.payload.length = 8) (hzero : at8 f.payload 6 2 = 0)
    (hflags : f.fflags = 0) :
    execPick f s = onward s { takeFrame f s.sys with
      t := if s.sys.t.source = 1 then markerPin (at8 f.payload 0 6) s.sys.t
        else markerTreadle (at8 f.payload 0 6) s.sys.t.timeBase s.sys.t } := by
  refine onSys_eq ((onFrame_taken htaken _).trans ((if_neg (by simp [hlength, hzero, hflags])).trans ?_))
  rw [takeFrame_t]
  split <;> rw [Machine.onTime, takeFrame_t]

theorem execPickInEdge_schedules (hanswers : answers s.sys = true) (hpin : s.sys.t.source = 1)
    (hapart : ∀ e, s.sys.t.lastEdge = some e → e + 250 ≤ s.sys.t.timeBase) :
    execPickInEdge s = onward s { s.sys with
      t := { schedule s.sys.t.pinTarget s.sys.t.timeBase true false s.sys.t with lastEdge := some s.sys.t.timeBase } } := by
  refine onSys_eq (if_pos ?_)
  rw [hanswers, hpin]
  cases hedge : s.sys.t.lastEdge with
  | none => rfl
  | some e => simpa using hapart e hedge

end

theorem markerTreadle_ahead {p now : Nat} {t : TimeSt} (hahead : countAhead t < p) :
    markerTreadle p now t = addMissed (p - countAhead t - 1) (schedule p now false false t) := if_pos hahead

theorem markerTreadle_stale {p now : Nat} {t : TimeSt} (hstale : p ≤ countAhead t) :
    markerTreadle p now t = { t with stale := satAt (umax 16) (t.stale + 1), staleTotal := satAt (umax 32) (t.staleTotal + 1) } :=
  if_neg (Nat.not_lt.mpr hstale)

theorem markerPin_behind {p : Nat} {t : TimeSt} (hbehind : p < countAhead t) :
    markerPin p t = { t with pinMismatch := satAt (umax 8) (t.pinMismatch + 1) } := if_pos hbehind

theorem markerPin_agrees {p : Nat} {t : TimeSt} (hcount : countAhead t ≤ p) (htarget : p ≤ t.pinTarget) : markerPin p t = t :=
  (if_neg (Nat.not_lt.mpr hcount)).trans (if_neg (Nat.not_lt.mpr htarget))

theorem markerPin_ahead {p : Nat} {t : TimeSt} (hcount : countAhead t ≤ p) (htarget : t.pinTarget < p) :
    markerPin p t = { addMissed (p - t.pinTarget) t with pinTarget := p } :=
  (if_neg (Nat.not_lt.mpr hcount)).trans (if_pos htarget)

/-! ### Samples that fall due (R549, R550) -/

@[simp] theorem ctrSet_setCtrSet (j k : Nat) (x : CtrSet) (y : Sys) :
    ctrSet (setCtrSet j x y) k = if k = j then x else ctrSet y k := by
  simp [ctrSet, setCtrSet]

theorem ctrSet_congr {y z : Sys} (h : z.obs.sets = y.obs.sets) (k : Nat) : ctrSet z k = ctrSet y k := by
  rw [ctrSet, h, ctrSet]

/-- Reading counters moves neither the time nor a counter set (R549). -/
theorem passCycles_keeps (src : Nat × Nat) (y : Sys) : (passCycles src y).t = y.t ∧ (passCycles src y).obs.sets = y.obs.sets := by
  unfold passCycles
  dsimp only [onCtr, freshWord]
  exact ⟨rfl, rfl⟩

theorem sampleNow_keeps (sels : List Word64) (y : Sys) :
    (sampleNow sels y).2.t = y.t ∧ (sampleNow sels y).2.obs.sets = y.obs.sets :=
  ⟨foldl_keeps Sys.t _ (fun z src => (passCycles_keeps src z).1) _ y,
    foldl_keeps (fun z : Sys => z.obs.sets) _ (fun z src => (passCycles_keeps src z).2) _ y⟩

theorem sampleDue_t (q p tb k : Nat) (y : Sys) : (sampleDue q p tb k y).t = y.t := by
  unfold sampleDue
  dsimp only
  split
  · rfl
  · rw [setCtrSet_t, (sampleNow_keeps _ y).1]

/-- The sample of one set leaves the other sets as they were. -/
theorem ctrSet_sampleDue_ne {j k : Nat} (hne : k ≠ j) (q p tb : Nat) (y : Sys) : ctrSet (sampleDue q p tb j y) k = ctrSet y k := by
  unfold sampleDue
  dsimp only
  split
  · rfl
  · rw [ctrSet_setCtrSet, if_neg hne, ctrSet_congr (sampleNow_keeps _ y).2]

/-- The samples of other sets leave a set as it was. -/
theorem ctrSet_foldl_sampleDue_of_notMem {k : Nat} {l : List Nat} (hk : k ∉ l) (q p tb : Nat) (y : Sys) :
    ctrSet (l.foldl (fun z j => sampleDue q p tb j z) y) k = ctrSet y k :=
  List.foldlRecOn l _ (motive := fun z => ctrSet z k = ctrSet y k) rfl
    (fun z hz _ hj => (ctrSet_sampleDue_ne (ne_of_mem_of_not_mem hj hk).symm q p tb z).trans hz)

/-- The record that a running set leaves to be written when multiples of its interval lie in (q, p] (R549, R550). -/
def dueRecord (x : CtrSet) (q p tb : Nat) (vals : List Nat) : CtrDue :=
  { pick := p, tb := tb, skipped := multiples x.interval q p - 1, seq := (x.taken + 1) % 2 ^ 32,
    addr := x.ring + recBytes x.sels * (x.taken % 2 ^ x.ringLog2), size := recBytes x.sels, vals := vals }

/-- In z the set k holds a new record due, beside those that x held. -/
def FallsDue (x : CtrSet) (q p tb k : Nat) (z : Sys) : Prop :=
  ∃ vals, (ctrSet z k).due = x.due ++ [dueRecord x q p tb vals]

theorem FallsDue.congr {x : CtrSet} {q p tb k : Nat} {w z : Sys} (h : z.obs.sets = w.obs.sets) (hw : FallsDue x q p tb k w) :
    FallsDue x q p tb k z := by
  rwa [FallsDue, ctrSet_congr h]

section
variable {x : CtrSet} {q p k : Nat} (hrunning : x.running = true) (hdue : 0 < multiples x.interval q p)
include hrunning hdue

theorem sampleDue_fallsDue {y : Sys} (hset : ctrSet y k = x) (tb : Nat) : FallsDue x q p tb k (sampleDue q p tb k y) := by
  have hsamples : ¬(x.running = false ∨ multiples x.interval q p = 0) := by
    simp [hrunning, Nat.ne_of_gt hdue]
  refine ⟨(sampleNow x.sels y).1, ?_⟩
  unfold sampleDue
  dsimp only
  rw [hset, if_neg hsamples, ctrSet_setCtrSet, if_pos rfl]
  rfl

/-- An advance takes the sample of each set that is due at it, each set once (R549). -/
theorem foldl_sampleDue_fallsDue {l : List Nat} (hnodup : l.Nodup) (hk : k ∈ l) {y : Sys} (hset : ctrSet y k = x) (tb : Nat) :
    FallsDue x q p tb k (l.foldl (fun z j => sampleDue q p tb j z) y) := by
  induction l generalizing y with
  | nil => cases hk
  | cons j l ih =>
    obtain ⟨hj, hnodup⟩ := List.nodup_cons.mp hnodup
    rw [List.foldl_cons]
    by_cases hjk : k = j
    · subst hjk
      obtain ⟨vals, hvals⟩ := sampleDue_fallsDue hrunning hdue hset tb
      exact ⟨vals, (congrArg CtrSet.due (ctrSet_foldl_sampleDue_of_notMem hj q p tb _)).trans hvals⟩
    · exact ih hnodup ((List.mem_cons.mp hk).resolve_left hjk) ((ctrSet_sampleDue_ne hjk q p tb y).trans hset)

end

/-! ### Advances (R481, R549) -/

@[simp] theorem traceRec_sets (u typ : Nat) (s : Stamp) (code tag status creel lane arg : Nat) (y : Sys) :
    (traceRec u typ s code tag status creel lane arg y).obs.sets = y.obs.sets := by
  rw [traceRec_units]

@[simp] theorem traceRec_t (u typ : Nat) (s : Stamp) (code tag status creel lane arg : Nat) (y : Sys) :
    (traceRec u typ s code tag status creel lane arg y).t = y.t := by
  rw [traceRec_units]

@[simp] theorem expireOne_sets (k : Nat) (y : Sys) : (expireOne k y).obs.sets = y.obs.sets := by
  unfold expireOne
  dsimp only
  split
  · rw [recordEvent_nv]
    unfold notice
    dsimp only
    split <;> rw [traceRec_sets]
  · rfl

@[simp] theorem expireLocks_sets (y : Sys) : (expireLocks y).obs.sets = y.obs.sets := by
  unfold expireLocks
  exact foldl_keeps (fun z : Sys => z.obs.sets) _ (fun z k => expireOne_sets k z) _ y

/-- The time state after an advance: the pick and its time base have been taken, and the advance is no longer scheduled. -/
theorem applyAdvance_t (a : Advance) (rest : List Advance) (y : Sys) :
    (applyAdvance a rest y).t.pick = a.target ∧ (applyAdvance a rest y).t.pickTb = a.apply ∧
      (applyAdvance a rest y).t.sched = rest := by
  unfold applyAdvance
  dsimp only
  rw [traceRec_t, apply_ite Sys.t, expireLocks_t, ite_self, foldl_keeps Sys.t _ (fun z k => sampleDue_t _ _ _ k z), onTime_t]
  exact ⟨rfl, rfl, rfl⟩

theorem expireLocks_if_sets (q : Prop) [Decidable q] (y : Sys) : (if q then expireLocks y else y).obs.sets = y.obs.sets := by
  split
  · exact expireLocks_sets y
  · rfl

/-- An advance to a pick at which a running set is due takes its sample (R549). -/
theorem applyAdvance_fallsDue {a : Advance} {rest : List Advance} {k : Nat} {y : Sys} (hk : k < 8)
    (hrunning : (ctrSet y k).running = true) (hdue : 0 < multiples (ctrSet y k).interval y.t.pick a.target) :
    FallsDue (ctrSet y k) y.t.pick a.target a.apply k (applyAdvance a rest y) := by
  unfold applyAdvance
  dsimp only
  refine FallsDue.congr ((traceRec_sets ..).trans (expireLocks_if_sets _ _)) ?_
  refine foldl_sampleDue_fallsDue hrunning hdue List.nodup_range (List.mem_range.mpr hk) ?_ _
  exact ctrSet_congr (congrArg ObsSt.sets (onTime_obs _ _)) k

section
variable {s : State}

theorem execPickAdvance_applies {a : Advance} {rest : List Advance} (hsched : s.sys.t.sched = a :: rest)
    (hreached : a.apply ≤ s.sys.t.timeBase) : execPickAdvance s = onward s (applyAdvance a rest s.sys) := by
  refine onSys_eq ?_
  unfold nextAdvance
  rw [hsched]
  exact if_pos hreached

/-! ### Echoes and sample records (R494, R550) -/

theorem execPickEcho_sends {e : Echo} {rest : List Echo} (hechoes : s.sys.t.echoes = e :: rest) (hanswers : answers s.sys = true)
    (hopen : s.sys.trd.state = .open) :
    execPickEcho s = onward s (sendPlain false s.sys.trd.port 0x21 (echoBytes s.sys.t e)
      { s.sys with t := { s.sys.t with echoes := rest } }) := by
  have hgoes : (answers s.sys && s.sys.trd.state == .open) = true := by simp [hanswers, hopen]
  refine onSys_eq ?_
  rw [hechoes]
  exact if_pos hgoes

variable {set : Nat} {d : CtrDue} {rest : List CtrDue} (hup : isUp s.sys = true) (hdue : (ctrSet s.sys set).due = d :: rest)
  (hfree : rangeHeld s.sys d.addr d.size = false)
include hup hdue hfree

theorem execCtrSample_eq :
    execCtrSample set s = onward s
      (let x := ctrSet s.sys set
      if mapHit s.sys d.addr d.size then setCtrSet set { x with due := rest } s.sys
      else
        let b := sampleBytes set d.seq false d.pick d.skipped d.tb d.size d.vals s.sys
        setCtrSet set { x with seq := if d.fresh then d.seq else x.seq, due := rest } (writeBytes none d.addr b.1 b.2)) := by
  refine onSys_eq ?_
  dsimp only
  rw [hdue]
  exact if_pos (by simp [hup, hfree])

theorem execCtrSample_writes (hclear : mapHit s.sys d.addr d.size = false) :
    execCtrSample set s = onward s
      (let x := ctrSet s.sys set
      let b := sampleBytes set d.seq false d.pick d.skipped d.tb d.size d.vals s.sys
      setCtrSet set { x with seq := if d.fresh then d.seq else x.seq, due := rest } (writeBytes none d.addr b.1 b.2)) := by
  rw [execCtrSample_eq hup hdue hfree, hclear]
  rfl

/-- A record whose slot meets the state map now is left out (log 114). -/
theorem execCtrSample_leavesOut (hmeets : mapHit s.sys d.addr d.size = true) :
    execCtrSample set s = onward s (setCtrSet set { ctrSet s.sys set with due := rest } s.sys) := by
  rw [execCtrSample_eq hup hdue hfree, hmeets]
  rfl

end

/-- Settles O33: a marker sets the time state as its source and the count say; an edge, an advance, an echo and a record are due. The
slot that meets the state map is log 114. -/
theorem pickEventsComplete : Obligations.PickEventsComplete := by
  unfold Obligations.PickEventsComplete
  refine ⟨?marker, ?edge, ?advance, ?echo, ?record, ?sample⟩
  case marker =>
    intro s f htaken hlength hzero hflags
    have hmark : exec (.pick f) s = _ := execPick_marks htaken hlength hzero hflags
    refine ⟨fun htreadle hahead => ?_, fun htreadle hstale => ?_, fun hpin hbehind => ?_, fun hpin hcount htarget => ?_,
      fun hpin hcount htarget => ?_⟩
    · rw [hmark, if_neg htreadle, markerTreadle_ahead hahead]
    · rw [hmark, if_neg htreadle, markerTreadle_stale hstale]
    · rw [hmark, if_pos hpin, markerPin_behind hbehind]
    · rw [hmark, if_pos hpin, markerPin_agrees hcount htarget, ← takeFrame_t f s.sys]
    · rw [hmark, if_pos hpin, markerPin_ahead hcount htarget]
  case edge =>
    intro s hanswers hpin hapart
    exact execPickInEdge_schedules hanswers hpin hapart
  case advance =>
    intro s a rest hsched hreached
    obtain ⟨hpick, hbase, hrest⟩ := applyAdvance_t a rest s.sys
    exact ⟨_, execPickAdvance_applies hsched hreached, hpick, hbase, hrest, rfl⟩
  case echo =>
    intro s e rest hechoes hanswers hopen
    exact execPickEcho_sends hechoes hanswers hopen
  case record =>
    intro s set d rest hup
    dsimp only
    intro hdue hfree
    exact ⟨execCtrSample_writes hup hdue hfree, execCtrSample_leavesOut hup hdue hfree⟩
  case sample =>
    intro s a rest k hk hsched hreached
    dsimp only
    intro hrunning hdue
    obtain ⟨vals, hvals⟩ := applyAdvance_fallsDue (rest := rest) hk hrunning hdue
    exact ⟨_, vals, execPickAdvance_applies hsched hreached, hvals⟩

end Sys2Proof.Laws
end

section
/-! ONE-WAY STATE. Which commands move it, and that each of them moves it forward. -/

namespace Sys2Proof.Laws

open Sys2Proof Sys2Proof.Machine Sys2Proof.Safety

/-! ### What a command leaves as it was -/

/-- A command that cannot stop, and may not move the one-way state, changes neither that nor the queue. -/
theorem exec_onward {i : Instr} (hgoesOn : mayStop i = false) (hkeeps : movesOneWay i = false) (s : State) :
    ∃ y, exec i s = onward s y := by
  cases i with
  | dramRead g source wrong | dramWrite g mask data | testAccessPort ti => cases hgoesOn
  | linkReset pk | fuseDebugOff pk | memRetrainDone ok pause | burlerTestDone die part digest expected | mendDone die pass
  | unitReportsReady standby die | standbyReady bad | bootStage1 failing badA badB => cases hkeeps
  | _ => exact ⟨_, rfl⟩

/-- A command that may move the one-way state does not move the queue. -/
theorem exec_onwardAll {i : Instr} (hmoves : movesOneWay i = true) (s : State) : ∃ p y, exec i s = onwardAll s (p, y) := by
  cases i with
  | linkReset pk | fuseDebugOff pk | memRetrainDone ok pause | burlerTestDone die part digest expected | mendDone die pass
  | unitReportsReady standby die | standbyReady bad | bootStage1 failing badA badB => exact ⟨_, _, rfl⟩
  | _ => cases hmoves

section
variable {s t : State}

theorem onSys_stays {f : Perm → Sys → Sys} (h : onSys s f = .next t) : t.pending = s.pending ∧ t.perm = s.perm := by
  rw [onSys_next] at h
  rw [h]
  exact ⟨rfl, rfl⟩

theorem granule_stays {g : Nat} {f : Perm → Sys → Sys}
    (h : (if dramEnd ≤ g * 64 then .fault .noSuchAddress else onSys s f) = (.next t : Host.Outcome State Fault Refusal)) :
    t.pending = s.pending ∧ t.perm = s.perm := by
  split at h
  · cases h
  · exact onSys_stays h

theorem testAccessPort_stays {ti : TapInstr} (h : execTestAccessPort ti s = .next t) :
    t.pending = s.pending ∧ t.perm = s.perm := by
  unfold execTestAccessPort at h
  dsimp only at h
  split at h
  · exact onSys_stays h
  · cases ti with
    | boundaryScan => exact onSys_stays h
    | readAccumulator a => exact onSys_stays h
    | debug k => cases h

/-- A command that may not move the one-way state leaves it and the queue. -/
theorem exec_stays {i : Instr} (hkeeps : movesOneWay i = false) (h : exec i s = .next t) :
    t.pending = s.pending ∧ t.perm = s.perm := by
  cases hstop : mayStop i with
  | false =>
    obtain ⟨y, hy⟩ := exec_onward hstop hkeeps s
    cases hy.symm.trans h
    exact ⟨rfl, rfl⟩
  | true =>
    cases i with
    | dramRead g source wrong | dramWrite g mask data => exact granule_stays h
    | testAccessPort ti => exact testAccessPort_stays h
    | _ => cases hstop

theorem exec_pending {i : Instr} (h : exec i s = .next t) : t.pending = s.pending := by
  cases hmoves : movesOneWay i with
  | false => exact (exec_stays hmoves h).1
  | true =>
    obtain ⟨p, y, hy⟩ := exec_onwardAll hmoves s
    cases hy.symm.trans h
    rfl

end

/-- Settles O48: a meaning of the one sort leaves the one-way state, those of the eight commands leave the queue. -/
theorem queueAndOneWayStateStay : Obligations.QueueAndOneWayStateStay := by
  unfold Obligations.QueueAndOneWayStateStay
  intro i s t h
  exact ⟨exec_pending h, fun hkeeps => (exec_stays hkeeps h).2⟩

/-! ### What moves the one-way state (R520, R584, R612) -/

theorem onlyForward_trans {p q r : Perm} (hpq : onlyForward p q) (hqr : onlyForward q r) : onlyForward p r := by
  obtain ⟨helements, hkeys, hfloors, hfailed, hfactory⟩ := hpq
  obtain ⟨helements', hkeys', hfloors', hfailed', hfactory'⟩ := hqr
  refine ⟨helements.trans helements', ?_, fun t => (hfloors t).trans (hfloors' t), fun x hx => hfailed' x (hfailed x hx),
    hfactory.trans hfactory'⟩
  calc p.keyRevoked &&& r.keyRevoked
      _ = p.keyRevoked &&& (q.keyRevoked &&& r.keyRevoked) := by rw [← BitVec.and_assoc, hkeys]
      _ = p.keyRevoked := by rw [hkeys', hkeys]

/-- A floor that is raised is at least what it was (R584). -/
theorem onlyForward_raiseFloor (t svn : Nat) (p : Perm) : onlyForward p (raiseFloor t svn p) := by
  refine ⟨Nat.le_refl _, BitVec.and_self, fun u => ?_, fun _ hx => hx, rfl⟩
  rw [raiseFloor, mapGet_mod]
  split
  · next hu => exact hu ▸ Nat.le_max_left _ _
  · exact Nat.le_refl _

theorem mem_setAdd_of_mem {x k : Nat} {l : List Nat} (hx : x ∈ l) : x ∈ setAdd l k := by
  induction l with
  | nil => cases hx
  | cons a l ih =>
    unfold setAdd
    split
    · exact List.mem_cons_of_mem _ hx
    · split
      · exact hx
      · exact (List.mem_cons.mp hx).elim (fun ha => ha ▸ List.mem_cons_self) fun hl => List.mem_cons_of_mem _ (ih hl)

/-- A position that is marked failed joins those that have failed (R518, R520). -/
theorem onlyForward_markFailed (pos : Nat) (p : Perm) : onlyForward p (markFailed pos p) :=
  ⟨Nat.le_refl _, BitVec.and_self, fun _ => Nat.le_refl _, fun _ hx => mem_setAdd_of_mem hx, rfl⟩

/-- No element of the fuse is restored when it is blown (R612). -/
theorem onlyForward_blowFuse (c : Cmd) (p : Perm) (y : Sys) : onlyForward p (blowFuse c p y).1 :=
  ⟨Nat.le_max_left _ _, BitVec.and_self, fun _ => Nat.le_refl _, fun _ hx => hx, rfl⟩

/-- An operation on the one-way state and the rest that only moves the former forward. -/
def GoesForward (f : Perm × Sys → Perm × Sys) : Prop := ∀ x, onlyForward x.1 (f x).1

/-- Operations that go forward, done for each element of a list, go forward. -/
theorem goesForward_foldl {α : Type} {f : Perm × Sys → α → Perm × Sys} (hf : ∀ a, GoesForward (f · a)) (l : List α) :
    GoesForward (l.foldl f ·) := fun x =>
  List.foldlRecOn l f (motive := fun y => onlyForward x.1 y.1) (onlyForward_refl x.1)
    fun y hy a _ => onlyForward_trans hy (hf a y)

theorem goesForward_activateUnit (t u : Nat) (afterBoot : Bool) : GoesForward (activateUnit t u afterBoot) := by
  intro x
  unfold activateUnit
  dsimp only
  split
  · exact onlyForward_refl x.1
  · exact onlyForward_raiseFloor t _ x.1

/-- The same with the one-way state named. -/
theorem activateUnit_forward (t u : Nat) (afterBoot : Bool) (p : Perm) (y : Sys) :
    onlyForward p (activateUnit t u afterBoot (p, y)).1 := goesForward_activateUnit t u afterBoot (p, y)

/-! ### The commands that may move it -/

section
variable {s t : State}

theorem execLinkReset_forward {pk : Packet} (h : execLinkReset pk s = .next t) : onlyForward s.perm t.perm := by
  rw [execLinkReset, onAll_next] at h
  subst h
  dsimp only
  split
  · exact onlyForward_refl _
  · exact activateUnit_forward 4 _ true s.perm _

theorem execFuseDebugOff_forward {pk : Packet} (h : execFuseDebugOff pk s = .next t) : onlyForward s.perm t.perm := by
  rw [execFuseDebugOff, onAll_next] at h
  subst h
  dsimp only
  split
  · exact onlyForward_refl _
  · split
    · exact onlyForward_refl _
    · split
      · exact onlyForward_blowFuse _ _ _
      · exact onlyForward_refl _
    · exact onlyForward_refl _

theorem execMemRetrainDone_forward {ok : Bool} {pause : Nat} (h : execMemRetrainDone ok pause s = .next t) :
    onlyForward s.perm t.perm := by
  rw [execMemRetrainDone, onAll_next] at h
  subst h
  dsimp only
  split
  · exact onlyForward_refl _
  · split
    · exact onlyForward_refl _
    · cases ok with
      | false => exact onlyForward_refl _
      | true => exact activateUnit_forward 5 _ true s.perm _

theorem execBurlerTestDone_forward {die part : Nat} {digest expected : Word64}
    (h : execBurlerTestDone die part digest expected s = .next t) : onlyForward s.perm t.perm := by
  rw [execBurlerTestDone, onAll_next] at h
  subst h
  dsimp only
  split
  · exact onlyForward_refl _
  · next pos hunder =>
    split
    · split
      · exact onlyForward_refl _
      · split <;> exact onlyForward_markFailed pos s.perm
    · exact onlyForward_refl _

theorem execMendDone_forward {die : Nat} {pass : Bool} (h : execMendDone die pass s = .next t) : onlyForward s.perm t.perm := by
  rw [execMendDone, onAll_next] at h
  subst h
  dsimp only
  split
  · exact onlyForward_refl _
  · cases pass with
    | true => exact onlyForward_refl _
    | false => exact onlyForward_markFailed _ s.perm

theorem execUnitReportsReady_forward {standby : Bool} {die : Nat} (h : execUnitReportsReady standby die s = .next t) :
    onlyForward s.perm t.perm := by
  rw [execUnitReportsReady, onAll_next] at h
  subst h
  dsimp only
  split
  · exact onlyForward_refl _
  · split
    · exact onlyForward_refl _
    · split
      · exact onlyForward_refl _
      · exact onlyForward_trans (goesForward_activateUnit 2 die true (s.perm, _)) (goesForward_activateUnit 3 die true _)

end

/-- The boot ROM of a standby moves the one-way state only by activating the pending image (R592). -/
theorem standbyBoots_forward {bad : List Nat} {x z : Perm × Sys} (h : standbyBoots bad x = some z) : onlyForward x.1 z.1 := by
  unfold standbyBoots at h
  dsimp only at h
  split at h
  · split at h
    · cases h
      exact onlyForward_refl _
    · cases h
  · obtain ⟨y, _, rfl⟩ := Option.map_eq_some_iff.mp h
    split
    · exact activateUnit_forward 1 _ true x.1 _
    · exact onlyForward_refl _

theorem execStandbyReady_forward {bad : List Nat} {s t : State} (h : execStandbyReady bad s = .next t) :
    onlyForward s.perm t.perm := by
  rw [execStandbyReady, onAll_next] at h
  subst h
  dsimp only
  split
  · split
    · split
      · next x hboots => exact standbyBoots_forward hboots
      · exact onlyForward_refl _
    · exact onlyForward_refl _
  · exact onlyForward_refl _

/-! ### Boot (R514, R592) -/

theorem goesForward_activateHeads : GoesForward activateHeads := by
  intro x
  unfold activateHeads
  exact goesForward_foldl (fun h y => onlyForward_raiseFloor 1 _ y.1) _ x

theorem goesForward_activateAll (t : Nat) : GoesForward (activateAll t) :=
  goesForward_foldl (fun u => goesForward_activateUnit t u false) _

theorem goesForward_bootType (bad : List Nat) (t : Nat) : GoesForward (bootType bad · t) := by
  intro x
  unfold bootType
  dsimp only
  split
  · split
    · exact goesForward_activateAll t x
    · exact onlyForward_refl _
  · split
    · exact onlyForward_refl _
    · split <;> exact onlyForward_refl _

theorem goesForward_failAtBoot (pos : Nat) : GoesForward (failAtBoot pos) := by
  intro x
  unfold failAtBoot
  split
  · exact onlyForward_refl _
  · exact onlyForward_markFailed pos x.1

/-- The activations of boot: the headstocks' images, then those of each other type (R592). -/
theorem activations_forward (bad : List Nat) (p : Perm) (y : Sys) :
    onlyForward p ([2, 3, 4, 5].foldl (bootType bad) (activateHeads (p, y))).1 :=
  onlyForward_trans (goesForward_activateHeads (p, y)) (goesForward_foldl (goesForward_bootType bad) [2, 3, 4, 5] _)

theorem failures_forward (failing : List Nat) (p : Perm) (y : Sys) :
    onlyForward p (failing.foldl (fun x pos => failAtBoot pos x) (p, y)).1 :=
  goesForward_foldl goesForward_failAtBoot failing (p, y)

/-- Boot moves the one-way state by the activations, and then by the tests that fail (R586). -/
theorem stageOne_perm (failing bad : List Nat) (x : Perm × Sys) :
    let booted := [2, 3, 4, 5].foldl (bootType bad) (activateHeads (x.1, migrate (bootCounts x.2)))
    ∃ y, (stageOne failing bad x).1 = (failing.foldl (fun x pos => failAtBoot pos x) (booted.1, y)).1 := ⟨_, rfl⟩

theorem goesForward_stageOne (failing bad : List Nat) : GoesForward (stageOne failing bad) := by
  intro x
  obtain ⟨y, hperm⟩ := stageOne_perm failing bad x
  rw [hperm]
  exact onlyForward_trans (activations_forward bad x.1 _) (failures_forward failing _ y)

theorem execBootStage1_forward {failing badA badB : List Nat} {s t : State} (h : execBootStage1 failing badA badB s = .next t) :
    onlyForward s.perm t.perm := by
  rw [execBootStage1, onAll_next] at h
  subst h
  dsimp only
  split
  · exact goesForward_stageOne failing _ (s.perm, s.sys)
  · exact onlyForward_refl _

/-! ### Every step -/

theorem exec_forward {i : Instr} {s t : State} (h : exec i s = .next t) : onlyForward s.perm t.perm := by
  cases hmoves : movesOneWay i with
  | false => exact (exec_stays hmoves h).2 ▸ onlyForward_refl s.perm
  | true =>
    cases i with
    | linkReset pk => exact execLinkReset_forward h
    | fuseDebugOff pk => exact execFuseDebugOff_forward h
    | memRetrainDone ok pause => exact execMemRetrainDone_forward h
    | burlerTestDone die part digest expected => exact execBurlerTestDone_forward h
    | mendDone die pass => exact execMendDone_forward h
    | unitReportsReady standby die => exact execUnitReportsReady_forward h
    | standbyReady bad => exact execStandbyReady_forward h
    | bootStage1 failing badA badB => exact execBootStage1_forward h
    | _ => cases hmoves

theorem step_forward {s t : State} (h : step s = .next t) : onlyForward s.perm t.perm := by
  unfold step at h
  split at h
  · exact (onSys_stays h).2 ▸ onlyForward_refl s.perm
  · next i rest _ => exact exec_forward (s := { s with pending := rest }) h

/-- Settles O49: each of the eight commands moves the one-way state forward, and nothing else moves it; following is transitive. -/
theorem oneWayStateIsKept : Obligations.OneWayStateIsKept := by
  unfold Obligations.OneWayStateIsKept
  intro p s t hp h
  exact onlyForward_trans hp (step_forward h)

end Sys2Proof.Laws
end

section
/-! INTEGRITY COMMANDS. The burler's fraction, mending records, the step log and checkpoint streams: the checks of each command
pass, and what it does then. -/

namespace Sys2Proof.Laws

open Sys2Proof Sys2Proof.Machine Sys2Proof.Safety

/-! ### Records that a command writes (R177, R178) -/

/-- An aligned range of bonded DRAM is no bad address. -/
theorem dramRange_good {a n : Nat} (haligned : aligned64 a = true) (hdram : inDram a n = true) :
    (!aligned64 a || !inDram a n) = false := by
  rw [haligned, hdram]
  rfl

theorem writeOut_writes {c : Cmd} {a : Nat} {bs : List Byte} {res : List Word64} {y : Sys}
    (hclear : protectedHit y true a bs.length = false) :
    writeOut c a bs res y = finish c.id .ok res (writeBytes (some c.id) a bs y) := if_neg (Bool.eq_false_iff.mp hclear)

section
variable {op : Nat} {layout : List Nat} {bad : Bool} {pk : Packet} {s : State} {z : Sys} {c : Cmd}

theorem writeReady_met (h : Meets op layout bad pk s z c) {a : Nat} {n : Sys → Nat} (hfree : rangeHeld s.sys a (n z) = false) :
    writeReady a n c z = true := by
  rw [writeReady, rangeHeld_met h, hfree]
  rfl

/-! ### What the commands read of mending records, the step log and the links -/

theorem mendRecord_taken (h : Meets op layout bad pk s z c) (p : Perm) (d : Nat) :
    mendRecord p (taken c z) d = mendRecord p s.sys d := by
  rw [taken_frame h]
  rfl

theorem activeShuttles_taken (h : Meets op layout bad pk s z c) (d : Nat) :
    activeShuttles (taken c z) d = activeShuttles s.sys d := by
  rw [taken_frame h]
  rfl

theorem sparesLeft_taken (h : Meets op layout bad pk s z c) (p : Perm) (d : Nat) :
    sparesLeft p (taken c z) d = sparesLeft p s.sys d := by
  rw [taken_frame h]
  rfl

theorem streamOn_met (h : Meets op layout bad pk s z c) (port : Nat) : streamOn z port = streamOn s.sys port := by
  unfold streamOn
  rw [meets_stp h]

end

/-! ### BURLER_SET, MEND_READ and STEPLOG_READ (R530 to R532) -/

section
variable {pk : Packet} {s : State} {z : Sys} {c : Cmd}

theorem execBurlerSet_sets (hmet : Meets 0x0940 [bits [(0, 3)]] (badCode pk 0 0 3 [0, 1, 2, 3, 4]) pk s z c) :
    execBurlerSet pk s =
      let off := fun (m : SMap BurlerDie) (d : Nat) => mapMod {} m d (fun b => { b with holds := none })
      let dies := if pf pk 0 0 3 = 0 then (List.range 18).foldl off s.sys.bur.dies else s.sys.bur.dies
      onward s (finish c.id .ok [BitVec.ofNat 64 s.sys.bur.fraction.toNat]
        { taken c z with bur := { s.sys.bur with fraction := BitVec.ofNat 3 (pf pk 0 0 3), dies := dies } }) := by
  rw [← taken_bur hmet]
  unfold execBurlerSet
  exact onSys_eq (execCommand_go hmet rfl rfl)

theorem execMendRead_writes (hmet : Meets 0x0941 [bits [(0, 5)], allBits] false pk s z c) (hdie : pf pk 0 0 5 ≤ 17)
    (haligned : aligned64 (pw pk 1) = true) (hdram : inDram (pw pk 1) 208 = true) (hfree : rangeHeld s.sys (pw pk 1) 208 = false)
    (hclear : protectedHit s.sys true (pw pk 1) (mendRecord s.perm s.sys (pf pk 0 0 5)).length = false) :
    execMendRead pk s =
      let d := pf pk 0 0 5
      onward s (finish c.id .ok [BitVec.ofNat 64 (activeShuttles s.sys d + sparesLeft s.perm s.sys d * 2 ^ 8)]
        (writeBytes (some c.id) (pw pk 1) (mendRecord s.perm s.sys d) (taken c z))) := by
  unfold execMendRead
  refine onSys_eq ((execCommand_go hmet (writeReady_met hmet hfree) ?_).trans ?_)
  · exact firstFail_cons (decide_eq_false (Nat.not_lt.mpr hdie)) (firstFail_cons (dramRange_good haligned hdram) rfl)
  · rw [mendRecord_taken hmet, activeShuttles_taken hmet, sparesLeft_taken hmet]
    exact writeOut_writes ((protectedHit_taken hmet ..).trans hclear)

/-- The entries of the step log that a STEPLOG_READ copies (R532). -/
def entriesRead (pk : Packet) (y : Sys) : List StepLog :=
  (y.nv.steplog.filter (fun e => decide (pf pk 0 0 48 ≤ e.step))).take (pf pk 1 0 13)

/-- The sequence number of the newest entry of the step log (R532). -/
def newestEntry (y : Sys) : Nat := match y.nv.steplog.getLast? with
  | none => 0
  | some e => e.seq

theorem entriesRead_congr {y z : Sys} (h : y.nv = z.nv) : entriesRead pk y = entriesRead pk z := by
  unfold entriesRead
  rw [h]

theorem execSteplogRead_writes (hmet : Meets 0x0942 [bits [(0, 48)], bits [(0, 13)], allBits] false pk s z c)
    (hsome : 1 ≤ pf pk 1 0 13) (hmost : pf pk 1 0 13 ≤ 4096) (haligned : aligned64 (pw pk 2) = true)
    (hdram : inDram (pw pk 2) (64 * (entriesRead pk s.sys).length) = true) (hturn : stepTurn c z = true)
    (hfree : rangeHeld s.sys (pw pk 2) (64 * (entriesRead pk s.sys).length) = false)
    (hclear : protectedHit s.sys true (pw pk 2) ((entriesRead pk s.sys).flatMap stepLogBytes).length = false) :
    execSteplogRead pk s =
      let es := entriesRead pk s.sys
      onward s (finish c.id .ok [BitVec.ofNat 64 es.length, BitVec.ofNat 64 (newestEntry s.sys)]
        (writeBytes (some c.id) (pw pk 2) (es.flatMap stepLogBytes) (taken c z))) := by
  have hmetEntries : entriesRead pk z = entriesRead pk s.sys := entriesRead_congr (meets_nv hmet)
  have htakenEntries : entriesRead pk (taken c z) = entriesRead pk s.sys := entriesRead_congr (taken_nv hmet)
  have hnewest : newestEntry (taken c z) = newestEntry s.sys := by
    unfold newestEntry
    rw [taken_nv hmet]
  unfold execSteplogRead
  refine onSys_eq ((execCommand_go hmet ?_ ?_).trans ?_)
  · rw [hturn, Bool.true_and]
    exact writeReady_met (n := fun y => 64 * (entriesRead pk y).length) hmet (by rw [hmetEntries]; exact hfree)
  · refine firstFail_cons ?_ (firstFail_cons ?_ rfl)
    · simp only [Bool.or_eq_false_iff, beq_eq_false_iff_ne, decide_eq_false_iff_not]
      omega
    · rw [← hmetEntries] at hdram
      exact dramRange_good haligned hdram
  · change writeOut c (pw pk 2) ((entriesRead pk (taken c z)).flatMap stepLogBytes)
      [BitVec.ofNat 64 (entriesRead pk (taken c z)).length, BitVec.ofNat 64 (newestEntry (taken c z))] (taken c z) = _
    rw [htakenEntries, hnewest]
    exact writeOut_writes ((protectedHit_taken hmet ..).trans hclear)

end

/-! ### CKPT_STREAM (R526 to R528, R533) -/

section
variable {pk : Packet} {s : State} {z : Sys} {c : Cmd}
variable (hmet : Meets 0x0943 [bits [(56, 2), (8, 6), (0, 8)], bits [(0, 40)], bits [(0, 40)]] (badCode pk 0 56 2 [0, 1, 2]) pk s z c)

/-- The bytes of the entry's face range that a CKPT_STREAM names: all from its offset on where it names 0 (R526). -/
def streamLength (pk : Packet) (y : Sys) : Nat :=
  if pf pk 2 0 40 = 0 then (entryAt y (pf pk 0 0 8)).length - pf pk 1 0 40 else pf pk 2 0 40

/-- The stream that a CKPT_STREAM OUT or IN begins (R525, R526). -/
def streamOf (pk : Packet) (c : Cmd) (y : Sys) : Ckpt :=
  { cmd := c.id, inward := pf pk 0 56 2 == 1, port := pf pk 0 8 6, entry := pf pk 0 0 8, offset := pf pk 1 0 40,
    length := streamLength pk y, step := y.stp.lastCommit, device := y.coll.selfDev.toNat }

/-- The range, port and links of a stream are as R526 and R527 ask. -/
def StreamAllowed (pk : Packet) (y : Sys) : Prop :=
  pf pk 1 0 40 % 4096 = 0 ∧ pf pk 2 0 40 % 64 = 0 ∧ pf pk 1 0 40 + streamLength pk y ≤ (entryAt y (pf pk 0 0 8)).length ∧
  pf pk 0 8 6 ∉ twinPorts ∧ (∀ r ∈ y.coll.routes, r.2.loaded = true → pf pk 0 8 6 ∉ strandPorts r.2) ∧
  portUp y (pf pk 0 8 6) = true ∧ y.stp.weave = none

theorem streamLength_congr {y z : Sys} (h : y.smap = z.smap) : streamLength pk y = streamLength pk z := by
  unfold streamLength
  rw [entryAt_congr h]

theorem streamChecks_pass {y : Sys} {badState : Bool} (hallowed : StreamAllowed pk y) (hstate : badState = false)
    (hstep : (pf pk 0 56 2 == 1 && stepOpen y) = false) :
    firstFail
      [(pf pk 1 0 40 % 4096 != 0 || pf pk 2 0 40 % 64 != 0 ||
          decide ((entryAt y (pf pk 0 0 8)).length < pf pk 1 0 40 + streamLength pk y) || twinPorts.elem (pf pk 0 8 6) ||
          y.coll.routes.any (fun r => r.2.loaded && (strandPorts r.2).elem (pf pk 0 8 6)), .paramRange),
       (badState, .stateMap),
       (!portUp y (pf pk 0 8 6) || weaving y || (pf pk 0 56 2 == 1 && stepOpen y), .ckptState)] = none := by
  obtain ⟨hoffset, hlength, hrange, htwin, hstrand, hup, hweave⟩ := hallowed
  refine firstFail_cons ?_ (firstFail_cons hstate (firstFail_cons ?_ rfl))
  · simp only [hoffset, hlength, Nat.not_lt.mpr hrange, htwin, bne_self_eq_false, decide_false, List.elem_eq_mem, Bool.or_false,
      Bool.false_or, List.any_eq_false, Bool.and_eq_true, decide_eq_true_eq, not_and]
    exact hstrand
  · rw [hup, weaving_of_none hweave, hstep]
    rfl

include hmet

theorem streamAllowed_met (hallowed : StreamAllowed pk s.sys) : StreamAllowed pk z := by
  unfold StreamAllowed at hallowed ⊢
  rwa [streamLength_congr (meets_smap hmet), entryAt_congr (meets_smap hmet), meets_coll hmet, portUp_congr (meets_lnk hmet),
    meets_stp hmet]

theorem streamOf_taken : streamOf pk c (taken c z) = streamOf pk c s.sys := by
  rw [streamOf, streamLength_congr (taken_smap hmet), taken_stp hmet, taken_coll hmet, streamOf]

theorem execCkptStream_sends (hdir : pf pk 0 56 2 = 0) (hallowed : StreamAllowed pk s.sys)
    (hoff : streamOn s.sys (pf pk 0 8 6) = false) (hactive : (entryAt s.sys (pf pk 0 0 8)).state = .active)
    (hfree : rangeHeld s.sys ((entryAt s.sys (pf pk 0 0 8)).face + pf pk 1 0 40) (streamLength pk s.sys) = false) :
    execCkptStream pk s = onward s (streamOut (streamOf pk c s.sys) (taken c z)) := by
  rw [← streamOf_taken hmet]
  unfold execCkptStream streamOf
  rw [hdir]
  refine onSys_eq (execCommand_go hmet (Bool.or_eq_true_iff.mpr (.inr ?_)) ?_)
  · change (!streamOn z (pf pk 0 8 6) &&
      (false || !rangeHeld z ((entryAt z (pf pk 0 0 8)).face + pf pk 1 0 40) (streamLength pk z))) = true
    rw [streamOn_met hmet, hoff, rangeHeld_met hmet, entryAt_congr (meets_smap hmet), streamLength_congr (meets_smap hmet), hfree]
    rfl
  · have hstate : ((entryAt z (pf pk 0 0 8)).state != .active) = false := by
      rw [entryAt_congr (meets_smap hmet), hactive]
      rfl
    have hpass := streamChecks_pass (streamAllowed_met hmet hallowed) hstate (by rw [hdir]; rfl)
    rw [hdir] at hpass
    exact hpass

theorem execCkptStream_asks (hdir : pf pk 0 56 2 = 1) (hallowed : StreamAllowed pk s.sys)
    (hoff : streamOn s.sys (pf pk 0 8 6) = false) (hloading : (entryAt s.sys (pf pk 0 0 8)).state = .loading)
    (hidle : s.sys.stp.state = .idle) :
    execCkptStream pk s = onward s (streamIn (streamOf pk c s.sys) (taken c z)) := by
  rw [← streamOf_taken hmet]
  unfold execCkptStream streamOf
  rw [hdir]
  refine onSys_eq (execCommand_go hmet (Bool.or_eq_true_iff.mpr (.inr ?_)) ?_)
  · rw [streamOn_met hmet, hoff]
    rfl
  · have hstate : ((entryAt z (pf pk 0 0 8)).state != .loading) = false := by
      rw [entryAt_congr (meets_smap hmet), hloading]
      rfl
    have hclosed : stepOpen z = false := stepOpen_of_idle (by rw [meets_stp hmet, hidle])
    have hpass := streamChecks_pass (streamAllowed_met hmet hallowed) hstate (by rw [hdir, hclosed]; rfl)
    rw [hdir] at hpass
    exact hpass

theorem execCkptStream_cancels (hdir : pf pk 0 56 2 = 2) (hentry : pf pk 0 0 8 = 0) (hoffset : pf pk 1 0 40 = 0)
    (hlength : pf pk 2 0 40 = 0) {d : Ckpt} (hstream : s.sys.stp.ckpts.find? (fun d => d.port == pf pk 0 8 6) = some d) :
    execCkptStream pk s = onward s (finish d.cmd .ckptCancelled [] (dropCkpt d.cmd
      (modCmd c.id (fun e => { e with cover := [d.cmd] }) (taken c z)))) := by
  have hon : streamOn z (pf pk 0 8 6) = true := by
    rw [streamOn_met hmet]
    have hport : (d.port == pf pk 0 8 6) = true := List.find?_some (p := fun d : Ckpt => d.port == pf pk 0 8 6) hstream
    exact List.any_eq_true.mpr ⟨d, List.mem_of_find?_eq_some hstream, hport⟩
  unfold execCkptStream
  rw [hdir]
  refine onSys_eq ((execCommand_go hmet rfl ?_).trans ?_)
  · rw [if_pos rfl, hentry, hoffset, hlength]
    exact firstFail_cons rfl (firstFail_cons (by rw [hon]; rfl) rfl)
  · change cancelStream c (pf pk 0 8 6) (taken c z) = _
    unfold cancelStream
    rw [taken_stp hmet, hstream]

end

/-- Settles O21: the checks of each command pass, so it is taken up; what it reads stands as before the packet met its unit. That OFF
ends the holds of tile positions is log 70. -/
theorem integrityCommandsComplete : Obligations.IntegrityCommandsComplete := by
  unfold Obligations.IntegrityCommandsComplete
  refine ⟨?burler, ?mending, ?steplog, ?stream⟩
  case burler =>
    intro pk s z c hmet
    exact execBurlerSet_sets hmet
  case mending =>
    intro pk s z c hmet
    dsimp only
    intro hdie haligned hdram hfree hclear
    exact execMendRead_writes hmet hdie haligned hdram hfree hclear
  case steplog =>
    intro pk s z c hmet
    dsimp only
    intro hsome hmost haligned hdram hturn hfree hclear
    exact execSteplogRead_writes hmet hsome hmost haligned hdram hturn hfree hclear
  case stream =>
    intro pk s z c hmet
    dsimp only
    constructor
    · intro _ hoffset hlength hrange htwin hstrand hup hweave hoff
      have hallowed : StreamAllowed pk s.sys := ⟨hoffset, hlength, hrange, htwin, hstrand, hup, hweave⟩
      exact ⟨fun hdir hactive hfree => execCkptStream_sends hmet hdir hallowed hoff hactive hfree,
        fun hdir hloading hidle => execCkptStream_asks hmet hdir hallowed hoff hloading hidle⟩
    · intro hdir hentry hoffset hlength d hstream
      exact execCkptStream_cancels hmet hdir hentry hoffset hlength hstream

end Sys2Proof.Laws
end

section
/-! OBSERVATION COMMANDS. Counter sets, the event log, life counters, the trace and watch slots: the checks of each command pass,
and what it does then. -/

namespace Sys2Proof.Laws

open Sys2Proof Sys2Proof.Machine Sys2Proof.Safety

/-! ### What the commands read where their packet met its unit, and where they were taken up -/

section
variable {op : Nat} {layout : List Nat} {bad : Bool} {pk : Packet} {s : State} {z : Sys} {c : Cmd}

theorem badObsAddr_met (h : Meets op layout bad pk s z c) (a n : Nat) : badObsAddr z a n = badObsAddr s.sys a n := by
  unfold badObsAddr
  rw [mapHit_congr (meets_smap h)]

theorem readBytes_met (h : Meets op layout bad pk s z c) (a n : Nat) : readBytes z a n = readBytes s.sys a n :=
  readBytes_congr (meets_mem h) (meets_smap h) a n

theorem badSel_met (h : Meets op layout bad pk s z c) (w : Word64) : badSel z w = badSel s.sys w := by
  simp only [badSel, badShuttle_met h]

theorem ctrSet_met (h : Meets op layout bad pk s z c) (k : Nat) : ctrSet z k = ctrSet s.sys k :=
  ctrSet_congr (congrArg ObsSt.sets (meets_obs h)) k

theorem ctrSet_taken (h : Meets op layout bad pk s z c) (k : Nat) : ctrSet (taken c z) k = ctrSet s.sys k :=
  ctrSet_congr (taken_sets h) k

theorem watchRecord_taken (h : Meets op layout bad pk s z c) (k : Nat) : watchRecord (taken c z) k = watchRecord s.sys k := by
  rw [taken_frame h]
  rfl

theorem evlogRecords_congr {y z : Sys} (h : y.nv = z.nv) (from_ max : Nat) : evlogRecords y from_ max = evlogRecords z from_ max := by
  unfold evlogRecords
  rw [h]

end

/-- The parameter words that a form of a command leaves unused are zero. -/
theorem unusedWords_zero {pk : Packet} {n : Nat} (h : ∀ i < n, pw pk (i + 1) = 0) :
    (List.range n).any (fun i => pw pk (i + 1) != 0) = false :=
  List.any_eq_false.mpr fun i hi => by simp [h i (List.mem_range.mp hi)]

/-! ### CTR_CONFIG and CTR_READ (R551 to R553) -/

section
variable {pk : Packet} {s : State} {z : Sys} {c : Cmd}

section
variable (hmet : Meets 0x0900 [bits [(8, 2), (0, 3)], bits [(0, 32)], allBits, bits [(0, 11)], allBits, bits [(0, 5)]]
  (badCode pk 0 8 2 [0, 1]) pk s z c)
include hmet

theorem execCtrConfig_stops (hstop : pf pk 0 8 2 = 1) (hunused : ∀ i < 5, pw pk (i + 1) = 0) :
    execCtrConfig pk s = onward s (finish c.id .ok []
      (setCtrSet (pf pk 0 0 3) { ctrSet s.sys (pf pk 0 0 3) with running := false } (taken c z))) := by
  rw [← ctrSet_taken hmet]
  unfold execCtrConfig
  rw [hstop]
  exact onSys_eq (execCommand_go hmet rfl (firstFail_cons (unusedWords_zero hunused) rfl))

/-- The selections that a CTR_CONFIG names (R548, R551). -/
def selections (pk : Packet) (y : Sys) : List Word64 :=
  words8 (pf pk 3 0 11) (readBytes y (pw pk 2) (8 * pf pk 3 0 11))

theorem selections_met : selections pk z = selections pk s.sys := by
  rw [selections, readBytes_met hmet, selections]

theorem selections_taken : selections pk (taken c z) = selections pk s.sys := by
  rw [selections, readBytes_taken hmet, selections]

theorem execCtrConfig_starts (hstart : pf pk 0 8 2 ≠ 1) (hinterval : pf pk 1 0 32 ≠ 0) (hsome : 1 ≤ pf pk 3 0 11)
    (hmost : pf pk 3 0 11 ≤ 1024) (hring : pf pk 5 0 5 ≤ 20) (hclosed : fileClosed s.perm [(pw pk 2, 8 * pf pk 3 0 11)] = false)
    (haligned : aligned64 (pw pk 2) = true) (hdram : inDram (pw pk 2) (8 * pf pk 3 0 11) = true)
    (hfree : rangeHeld s.sys (pw pk 2) (8 * pf pk 3 0 11) = false)
    (hsels : ∀ w ∈ selections pk s.sys, reservedClass w = false ∧ badSel s.sys w = false)
    (hvalues : valueCount (selections pk s.sys) ≤ 1024)
    (haddr : badObsAddr s.sys (pw pk 4) (recBytes (selections pk s.sys) * 2 ^ pf pk 5 0 5) = false)
    (hclean : consume 8 (pw pk 2) (8 * pf pk 3 0 11) (taken c z) = none) :
    execCtrConfig pk s =
      let ws := selections pk s.sys
      onward s (finish c.id .ok [BitVec.ofNat 64 (valueCount ws * 2 ^ 16 + recBytes ws)]
        (startSet (pf pk 0 0 3) { started := true, running := true, sels := ws, interval := pf pk 1 0 32, ring := pw pk 4,
                                  ringLog2 := pf pk 5 0 5 } (taken c z))) := by
  have hgo : (pf pk 0 8 2 == 1) = false := beq_eq_false_iff_ne.mpr hstart
  unfold execCtrConfig
  rw [hgo]
  refine onSys_eq ((execCommand_go hmet ?_ ?_).trans ?_)
  · rw [rangeHeld_met hmet, hfree]
    rfl
  · refine firstFail_cons ?_ (firstFail_cons hclosed (firstFail_cons (dramRange_good haligned hdram) (firstFail_cons ?_
      (firstFail_cons ?_ (firstFail_cons ?_ rfl)))))
    · simp only [Bool.or_eq_false_iff, beq_eq_false_iff_ne, decide_eq_false_iff_not]
      omega
    · change (_ && (selections pk z).any reservedClass) = false
      rw [selections_met hmet, List.any_eq_false.mpr fun w hw => by simp [(hsels w hw).1], Bool.and_false]
    · change (_ && ((selections pk z).any (badSel z) || decide (1024 < valueCount (selections pk z)))) = false
      rw [selections_met hmet, List.any_eq_false.mpr fun w hw => by simp [badSel_met hmet, (hsels w hw).2],
        decide_eq_false (Nat.not_lt.mpr hvalues), Bool.or_self, Bool.and_false]
    · change (_ && badObsAddr z (pw pk 4) (recBytes (selections pk z) * _)) = false
      rw [selections_met hmet, badObsAddr_met hmet, haddr, Bool.and_false]
  · rw [← selections_taken hmet]
    dsimp only
    rw [hclean]
    rfl

end

theorem execCtrRead_waits (hmet : Meets 0x0901 [bits [(0, 3)], allBits] false pk s z c)
    (hstarted : (ctrSet s.sys (pf pk 0 0 3)).started = true)
    (haddr : badObsAddr s.sys (pw pk 1) (recBytes (ctrSet s.sys (pf pk 0 0 3)).sels) = false) :
    execCtrRead pk s =
      let y := taken c z
      let r : CtrRead := { cmd := c.id, set := pf pk 0 0 3, tb := s.sys.t.timeBase + s.sys.t.applyDelay.toNat, dst := pw pk 1,
                           sels := (ctrSet s.sys (pf pk 0 0 3)).sels }
      onward s { y with obs := { y.obs with reads := y.obs.reads ++ [r] } } := by
  rw [← taken_t hmet, ← ctrSet_taken hmet]
  unfold execCtrRead
  refine onSys_eq (execCommand_go hmet rfl ?_)
  rw [ctrSet_met hmet, badObsAddr_met hmet]
  exact firstFail_cons (by rw [hstarted]; rfl) (firstFail_cons haddr rfl)

section
variable {y : Sys} {r : CtrRead} (hreads : y.obs.reads = [r]) (htaken : r.taken = none)
include hreads

/-- What the CTR_READ in progress does as time passes, where it is the only one. -/
theorem serveReads_one : serveReads y =
    let t := takeRead r { y with obs := { y.obs with reads := [] } }
    writeRead t.1 t.2 := by
  unfold serveReads
  rw [hreads]
  rfl

include htaken

theorem serveReads_early (hearly : y.t.timeBase < r.tb) : serveReads y = y := by
  have hwaits : takeRead r { y with obs := { y.obs with reads := [] } } = (r, { y with obs := { y.obs with reads := [] } }) := by
    unfold takeRead
    rw [htaken]
    exact if_pos (by simp [hearly])
  rw [serveReads_one hreads, hwaits]
  unfold writeRead
  dsimp only
  rw [htaken]
  change { y with obs := { y.obs with reads := [r] } } = y
  rw [← hreads]

theorem serveReads_due (hdue : r.tb ≤ y.t.timeBase) :
    let z := { y with obs := { y.obs with reads := [] } }
    let v := sampleNow r.sels z
    let b := sampleBytes r.set 0 true (pickNow z) 0 r.tb (recBytes r.sels) v.1 v.2
    rangeHeld v.2 r.dst (recBytes r.sels) = false → mapHit v.2 r.dst (recBytes r.sels) = false →
      serveReads y = finish r.cmd .ok [BitVec.ofNat 64 r.tb] (writeBytes (some r.cmd) r.dst b.1 b.2) := by
  intro z v b hfree hclear
  have hsamples : takeRead r z = ({ r with taken := some (pickNow z, v.1) }, v.2) := by
    unfold takeRead
    rw [htaken]
    exact if_neg (by simp [z, hdue])
  rw [serveReads_one hreads, hsamples]
  exact (if_neg (Bool.eq_false_iff.mp hfree)).trans (if_neg (Bool.eq_false_iff.mp hclear))

end

/-! ### EVLOG_READ and LIFE_READ (R576, R580) -/

/-- The sequence number of the oldest record of the event log (R576). -/
def oldestRecord (y : Sys) : Nat := match y.nv.evr.head? with
  | none => 0
  | some r => r.seq

theorem execEvlogRead_writes (hmet : Meets 0x0930 [bits [(0, 32)], bits [(0, 16)], allBits] false pk s z c)
    (hsome : 1 ≤ pf pk 1 0 16) (hmost : pf pk 1 0 16 ≤ 32768)
    (haddr : badObsAddr s.sys (pw pk 2) (32 * (evlogRecords s.sys (pf pk 0 0 32) (pf pk 1 0 16)).length) = false)
    (hfree : rangeHeld s.sys (pw pk 2) (32 * (evlogRecords s.sys (pf pk 0 0 32) (pf pk 1 0 16)).length) = false) :
    execEvlogRead pk s =
      let recs := evlogRecords s.sys (pf pk 0 0 32) (pf pk 1 0 16)
      onward s (finish c.id .ok
        [BitVec.ofNat 64 recs.length, BitVec.ofNat 64 (s.sys.nv.evrChg + s.sys.nv.evrChg * 2 ^ 32),
         BitVec.ofNat 64 (oldestRecord s.sys % 2 ^ 32 * 2 ^ 32 + s.sys.nv.evrSeq % 2 ^ 32)]
        (writeBytes (some c.id) (pw pk 2) (recs.flatMap eventBytes) (taken c z))) := by
  unfold execEvlogRead
  refine onSys_eq ((execCommand_go hmet ?_ ?_).trans ?_)
  · dsimp only
    rw [evlogRecords_congr (meets_nv hmet), rangeHeld_met hmet, hfree]
    rfl
  · dsimp only
    rw [evlogRecords_congr (meets_nv hmet), badObsAddr_met hmet]
    refine firstFail_cons ?_ (firstFail_cons haddr rfl)
    simp only [Bool.or_eq_false_iff, beq_eq_false_iff_ne, decide_eq_false_iff_not]
    omega
  · dsimp only
    rw [evlogRecords_congr (taken_nv hmet), taken_nv hmet]
    rfl

theorem execLifeRead_writes (hmet : Meets 0x0931 [allBits] false pk s z c) (haddr : badObsAddr s.sys (pw pk 0) 4288 = false)
    (hfree : rangeHeld s.sys (pw pk 0) 4288 = false) :
    execLifeRead pk s = onward s (finish c.id .ok [BitVec.ofNat 64 (s.sys.nv.life.hours + s.sys.nv.life.pcycles * 2 ^ 32)]
      (writeBytes (some c.id) (pw pk 0) (lifeRecord s.sys.nv.life) (taken c z))) := by
  rw [← taken_nv hmet]
  unfold execLifeRead
  refine onSys_eq (execCommand_go hmet ?_ (firstFail_cons ((badObsAddr_met hmet _ _).trans haddr) rfl))
  rw [rangeHeld_met hmet, hfree]
  rfl

/-! ### TRACE_CONFIG and TRACE_TRIGGER (R560, R561, R563) -/

section
variable (hmet : Meets 0x0910 [bits [(24, 5), (16, 1), (8, 2)], bits [(0, 27)], bits [(32, 32), (0, 8)], allBits, bits [(0, 6)]]
  (badCode pk 0 8 2 [0, 1]) pk s z c)

/-- The trace that a TRACE_CONFIG START sets up (R560). -/
def traceOf (pk : Packet) : TraceSt :=
  { state := .running, trigger := pf pk 0 16 1 == 1, units := pf pk 1 0 27, types := pf pk 0 24 5, post := pf pk 2 32 32,
    base := pw pk 3, regionLog2 := pf pk 4 0 6, trigMask := pf pk 2 0 8 }

include hmet

theorem execTraceConfig_starts (hstart : pf pk 0 8 2 ≠ 1) (hunits : pf pk 1 0 27 ≠ 0)
    (htrigger : pf pk 0 16 1 = 1 → pf pk 2 32 32 ≠ 0) (hcontinuous : ¬pf pk 0 16 1 = 1 → pf pk 2 32 32 = 0 ∧ pf pk 2 0 8 = 0)
    (hleast : 16 ≤ pf pk 4 0 6) (hmost : pf pk 4 0 6 ≤ 32)
    (haddr : badObsAddr s.sys (pw pk 3) ((enabledUnits (traceOf pk)).length * 2 ^ pf pk 4 0 6) = false)
    (hstopped : s.sys.obs.trace.state = .stopped) :
    execTraceConfig pk s = onward s (finish c.id .ok []
      { taken c z with obs := { (taken c z).obs with trace := traceOf pk, units := [] } }) := by
  have hgo : (pf pk 0 8 2 == 1) = false := beq_eq_false_iff_ne.mpr hstart
  unfold execTraceConfig
  rw [hgo]
  refine onSys_eq (execCommand_go hmet rfl ?_)
  refine firstFail_cons ?_ (firstFail_cons ((badObsAddr_met hmet _ _).trans haddr) (firstFail_cons ?_ rfl))
  · have hwindow : (if (pf pk 0 16 1 == 1) = true then pf pk 2 32 32 == 0 else pf pk 2 32 32 != 0 || pf pk 2 0 8 != 0) = false := by
      by_cases htrig : pf pk 0 16 1 = 1
      · simp [htrig, htrigger htrig]
      · simp [htrig, hcontinuous htrig]
    rw [hwindow, Bool.or_false]
    simp only [Bool.or_eq_false_iff, beq_eq_false_iff_ne, decide_eq_false_iff_not]
    omega
  · rw [meets_obs hmet, hstopped]
    rfl

section
variable (hstop : pf pk 0 8 2 = 1) (hnone : s.sys.obs.trace.stopping = none) (htypes : pf pk 0 24 5 = 0)
  (htrigger : ¬pf pk 0 16 1 = 1) (hunused : ∀ i < 4, pw pk (i + 1) = 0)
include hstop hnone htypes htrigger hunused

theorem execTraceConfig_eq_stop : execTraceConfig pk s = onward s
    (if (taken c z).obs.trace.state = .stopped then finish c.id .ok [] (taken c z)
     else tryStop (drainAll (onTrace (fun t => { t with stopping := some c.id }) (taken c z)))) := by
  unfold execTraceConfig
  rw [hstop]
  refine onSys_eq (execCommand_go hmet ?_ (firstFail_cons ?_ rfl))
  · rw [meets_obs hmet, hnone]
    rfl
  · rw [unusedWords_zero hunused, htypes, beq_eq_false_iff_ne.mpr htrigger]
    rfl

end

end

theorem execTraceTrigger_fires (hmet : Meets 0x0911 [bits [(0, 8)]] false pk s z c) :
    execTraceTrigger pk s =
      let y := traceFire 1 (pf pk 0 0 8) 26 (stampNow s.sys) (taken c z)
      onward s (finish c.id .ok [if s.sys.obs.trace.t = y.obs.trace.t then 0 else 1] y) := by
  rw [← stampNow_taken hmet, ← taken_trace hmet]
  unfold execTraceTrigger
  exact onSys_eq (execCommand_go hmet rfl rfl)

/-! ### WATCH_SET (R571) -/

section
variable (hmet : Meets 0x0920 [bits [(17, 1), (16, 1), (8, 2), (0, 4)], bits [(32, 32)], bits [(0, 48)], allBits]
  (badCode pk 0 8 2 [0, 1, 2]) pk s z c)
include hmet

theorem execWatchSet_arms (harm : pf pk 0 8 2 = 0) (hwhat : pf pk 0 16 1 = 1 ∨ pf pk 0 17 1 = 1) (hunused : pw pk 3 = 0) :
    execWatchSet pk s = onward s (finish c.id .ok [] (armSlot (pf pk 0 0 4)
      { armed := true, stats := pf pk 0 16 1 == 1, digest := pf pk 0 17 1 == 1, tid := pf pk 1 32 32, step := pf pk 2 0 48 }
      (taken c z))) := by
  unfold execWatchSet
  rw [harm]
  refine onSys_eq (execCommand_go hmet rfl (firstFail_cons ?_ (firstFail_cons rfl rfl)))
  rcases hwhat with hstats | hdigest
  · simp [hstats, hunused]
  · simp [hdigest, hunused]

variable (hstats : ¬pf pk 0 16 1 = 1) (hdigest : ¬pf pk 0 17 1 = 1) (hword1 : pw pk 1 = 0) (hword2 : pw pk 2 = 0)
include hstats hdigest hword1 hword2

theorem execWatchSet_disarms (hdisarm : pf pk 0 8 2 = 1) (hunused : pw pk 3 = 0) :
    execWatchSet pk s =
      let y := taken c z
      onward s (finish c.id .ok []
        { y with obs := { y.obs with watch := mapMod {} y.obs.watch (pf pk 0 0 4) (fun w => { w with armed := false }) } }) := by
  unfold execWatchSet
  rw [hdisarm]
  refine onSys_eq (execCommand_go hmet rfl (firstFail_cons ?_ (firstFail_cons rfl rfl)))
  simp [hstats, hdigest, hword1, hword2, hunused]

theorem execWatchSet_reads (hread : pf pk 0 8 2 = 2) (haddr : badObsAddr s.sys (pw pk 3) 64 = false)
    (hfree : rangeHeld s.sys (pw pk 3) 64 = false) :
    execWatchSet pk s = onward s (finish c.id .ok []
      (writeBytes (some c.id) (pw pk 3) (watchRecord s.sys (pf pk 0 0 4)) (taken c z))) := by
  rw [← watchRecord_taken hmet]
  unfold execWatchSet
  rw [hread]
  refine onSys_eq (execCommand_go hmet ?_ (firstFail_cons ?_ (firstFail_cons ((badObsAddr_met hmet _ _).trans haddr) rfl)))
  · rw [rangeHeld_met hmet, hfree]
    rfl
  · simp [hstats, hdigest, hword1, hword2]

end

end

/-- Settles O20: the checks of each command pass, so it is taken up; what it reads stands as before the packet met its unit. A
CTR_READ stays as it is until its time base, and then samples, writes its record and completes (log 72). How
a STOP of the trace goes on is log 73. -/
theorem observationCommandsComplete : Obligations.ObservationCommandsComplete := by
  unfold Obligations.ObservationCommandsComplete
  refine ⟨?config, ?read, ?serve, ?events, ?life, ?trace, ?trigger, ?watch⟩
  case config =>
    intro pk s z c hmet
    dsimp only
    refine ⟨execCtrConfig_stops hmet, ?_⟩
    intro hstart hinterval hsome hmost hring hclosed haligned hdram hfree hsels hvalues haddr hclean
    exact execCtrConfig_starts hmet hstart hinterval hsome hmost hring hclosed haligned hdram hfree hsels hvalues haddr hclean
  case read =>
    intro pk s z c hmet
    exact execCtrRead_waits hmet
  case serve =>
    intro y r hreads htaken
    exact ⟨serveReads_early hreads htaken, serveReads_due hreads htaken⟩
  case events =>
    intro pk s z c hmet
    exact execEvlogRead_writes hmet
  case life =>
    intro pk s z c hmet
    exact execLifeRead_writes hmet
  case trace =>
    intro pk s z c hmet
    dsimp only
    refine ⟨execTraceConfig_starts hmet, fun hstop hnone htypes htrigger hunused => ?_⟩
    have hexec := execTraceConfig_eq_stop hmet hstop hnone htypes htrigger hunused
    rw [taken_trace hmet] at hexec
    exact ⟨fun hstopped => hexec.trans (by rw [if_pos hstopped]), fun hruns => hexec.trans (by rw [if_neg hruns])⟩
  case trigger =>
    intro pk s z c hmet
    exact execTraceTrigger_fires hmet
  case watch =>
    intro pk s z c hmet
    dsimp only
    exact ⟨execWatchSet_arms hmet,
      fun hdisarm hstats hdigest hword1 hword2 => execWatchSet_disarms hmet hstats hdigest hword1 hword2 hdisarm,
      fun hread hstats hdigest hword1 hword2 => execWatchSet_reads hmet hstats hdigest hword1 hword2 hread⟩

end Sys2Proof.Laws
end

section
/-! FIRMWARE COMMANDS. Image queries, unit resets, the handover, attestation, measurements and the debug fuse: the checks of each
command pass, and what it does then. -/

namespace Sys2Proof.Laws

open Sys2Proof Sys2Proof.Machine Sys2Proof.Safety

/-! ### FW_QUERY, ATTEST and MEASURE_READ (R609 to R611, R615) -/

section
variable {op : Nat} {layout : List Nat} {bad : Bool} {pk : Packet} {s : State} {z : Sys} {c : Cmd}

theorem fwWords_taken (h : Meets op layout bad pk s z c) : fwWords (taken c z) = fwWords s.sys := by
  rw [taken_frame h]
  rfl

theorem resetting_met (h : Meets op layout bad pk s z c) (standby : Bool) (die : Nat) :
    resetting z standby die = resetting s.sys standby die := by
  unfold resetting
  rw [meets_sec h]

theorem dieOpen_met (h : Meets op layout bad pk s z c) (die : Nat) : dieOpen z die = dieOpen s.sys die := by
  unfold dieOpen
  rw [meets_acc h]

theorem confirms_taken (h : Meets op layout bad pk s z c) (code : Nat) : confirms c (taken c z) code = confirms c s.sys code := by
  unfold confirms
  rw [taken_sec h, taken_t h]

end

section
variable {pk : Packet} {s : State} {z : Sys} {c : Cmd}

theorem execFwQuery_answers (hmet : Meets 0x0800 [] false pk s z c) :
    execFwQuery pk s = onward s (finish c.id .ok ([1, 2, 3, 4, 5].flatMap (fwWords s.sys)) (taken c z)) := by
  rw [← fwWords_taken hmet]
  unfold execFwQuery
  exact onSys_eq (execCommand_go hmet rfl rfl)

section
variable (hmet : Meets 0x0820 [bits [(1, 1), (0, 1)], allBits, allBits, allBits, allBits, allBits] false pk s z c)
include hmet

/-- An ATTEST on the service creel sends its report in a REPORT frame (R609). -/
theorem execAttest_sends (hframe : pf pk 0 0 1 = 1) (hcreel : c.creel = 64) (hunused : pw pk 5 = 0) :
    execAttest pk s =
      let cert := if pf pk 0 1 1 = 1 then certificate else []
      let nonce := (List.range 4).flatMap (fun i => leBytes 8 (pw pk (i + 1)))
      let seq := (s.sys.sec.reportSeq + 1) % 2 ^ 32
      let y := { taken c z with sec := { s.sys.sec with reportSeq := seq } }
      let rep := reportBytes s.perm y nonce seq
      onward s (finish c.id .ok [BitVec.ofNat 64 (seq * 2 ^ 32 + cert.length * 2 ^ 16 + rep.length)]
        (sendReport c.pkt.tag.toNat rep cert y)) := by
  rw [← taken_sec hmet]
  unfold execAttest
  rw [hframe]
  refine onSys_eq (execCommand_go hmet rfl (firstFail_cons ?_ (firstFail_cons rfl rfl)))
  simp [hcreel, hunused]

/-- An ATTEST elsewhere writes its report (R609). -/
theorem execAttest_writes (hframe : pf pk 0 0 1 = 0) (haligned : aligned64 (pw pk 5) = true) :
    let cert := if pf pk 0 1 1 = 1 then certificate else []
    let nonce := (List.range 4).flatMap (fun i => leBytes 8 (pw pk (i + 1)))
    let seq := (s.sys.sec.reportSeq + 1) % 2 ^ 32
    let y := { taken c z with sec := { s.sys.sec with reportSeq := seq } }
    let rep := reportBytes s.perm y nonce seq
    inDram (pw pk 5) (896 + cert.length) = true → rangeHeld s.sys (pw pk 5) (896 + cert.length) = false →
    protectedHit s.sys true (pw pk 5) (rep ++ cert).length = false →
    execAttest pk s = onward s (finish c.id .ok [BitVec.ofNat 64 (seq * 2 ^ 32 + cert.length * 2 ^ 16 + rep.length)]
      (writeBytes (some c.id) (pw pk 5) (rep ++ cert) y)) := by
  rw [← taken_sec hmet]
  intro cert nonce seq y rep hdram hfree hclear
  unfold execAttest
  rw [hframe]
  refine onSys_eq ((execCommand_go hmet ?_ (firstFail_cons rfl (firstFail_cons ?_ rfl))).trans ?_)
  · change writeReady (pw pk 5) (fun _ => 896 + cert.length) c z = true
    exact writeReady_met hmet hfree
  · exact dramRange_good haligned hdram
  · change writeOut c (pw pk 5) (rep ++ cert) _ y = _
    exact writeOut_writes ((protectedHit_congr (taken_smap hmet) true _ _).trans hclear)

end

/-- The logged events that a MEASURE_READ copies (R611). -/
def eventsRead (pk : Packet) (y : Sys) : List (List Byte) :=
  ((y.sec.log.filter (fun e => e.1 == y.hs.active)).map (fun e => e.2)).take (pf pk 0 0 11)

theorem eventsRead_congr {y z : Sys} (hsec : y.sec = z.sec) (hhs : y.hs = z.hs) : eventsRead pk y = eventsRead pk z := by
  unfold eventsRead
  rw [hsec, hhs]

theorem measOf_congr {y z : Sys} (hsec : y.sec = z.sec) : measOf y = measOf z := by
  unfold measOf
  rw [hsec]

theorem execMeasureRead_writes (hmet : Meets 0x0821 [bits [(0, 11)], allBits] false pk s z c) (hmost : pf pk 0 0 11 ≤ 1040)
    (haligned : aligned64 (pw pk 1) = true) (hdram : inDram (pw pk 1) (256 + 64 * (eventsRead pk s.sys).length) = true)
    (hfree : rangeHeld s.sys (pw pk 1) (256 + 64 * (eventsRead pk s.sys).length) = false)
    (hclear : protectedHit s.sys true (pw pk 1)
      ((List.range 8).flatMap (measOf s.sys s.sys.hs.active) ++ (eventsRead pk s.sys).flatten).length = false) :
    execMeasureRead pk s =
      let h := s.sys.hs.active
      let evs := eventsRead pk s.sys
      onward s (finish c.id .ok
        [BitVec.ofNat 64 (evs.length + mapGet 0 s.sys.sec.logged h % 2 ^ 32 * 2 ^ 16),
         BitVec.ofNat 64 (mapGet 0 s.sys.sec.lost h % 2 ^ 32)]
        (writeBytes (some c.id) (pw pk 1) ((List.range 8).flatMap (measOf s.sys h) ++ evs.flatten) (taken c z))) := by
  have hmetEvents : eventsRead pk z = eventsRead pk s.sys := eventsRead_congr (meets_sec hmet) (meets_hs hmet)
  have htakenEvents : eventsRead pk (taken c z) = eventsRead pk s.sys := eventsRead_congr (taken_sec hmet) (taken_hs hmet)
  unfold execMeasureRead
  refine onSys_eq ((execCommand_go hmet ?_ (firstFail_cons ?_ (firstFail_cons ?_ rfl))).trans ?_)
  · exact writeReady_met (n := fun y => 256 + 64 * (eventsRead pk y).length) hmet (by rw [hmetEvents]; exact hfree)
  · exact decide_eq_false (Nat.not_lt.mpr hmost)
  · rw [← hmetEvents] at hdram
    exact dramRange_good haligned hdram
  · change writeOut c (pw pk 1)
      ((List.range 8).flatMap (measOf (taken c z) (taken c z).hs.active) ++ (eventsRead pk (taken c z)).flatten)
      ([(eventsRead pk (taken c z)).length + mapGet 0 (taken c z).sec.logged (taken c z).hs.active % 2 ^ 32 * 2 ^ 16,
        mapGet 0 (taken c z).sec.lost (taken c z).hs.active % 2 ^ 32].map (BitVec.ofNat 64)) (taken c z) = _
    rw [measOf_congr (taken_sec hmet), htakenEvents, taken_sec hmet, taken_hs hmet]
    exact writeOut_writes ((protectedHit_taken hmet ..).trans hclear)

/-! ### UNIT_RESET and HS_HANDOVER (R600, R602, R603) -/

section
variable (hmet : Meets 0x0810 [bits [(8, 2), (0, 5)]] (badCode pk 0 8 2 [0, 1]) pk s z c)
include hmet

theorem execUnitReset_resetsStandby (hstandby : pf pk 0 8 2 = 1) (hdie : pf pk 0 0 5 = 0) (hidle : resetting s.sys true 0 = false) :
    execUnitReset pk s =
      let now := s.sys.t.timeBase
      let r : UnitReset := { cmd := c.id, standby := true, die := 0, start := now, began := now }
      let y := taken c z
      let y := { y with sec := { y.sec with resets := y.sec.resets ++ [r] } }
      onward s (partMram (clearMeas (1 - y.hs.active) { y with hs := { y.hs with standby := .reset } })) := by
  rw [← taken_t hmet]
  unfold execUnitReset
  rw [hstandby, hdie]
  refine onSys_eq (execCommand_go hmet rfl (firstFail_cons rfl (firstFail_cons ?_ rfl)))
  exact Bool.or_eq_false_iff.mpr ⟨(resetting_met hmet true 0).trans hidle, rfl⟩

theorem execUnitReset_resetsDie (hwhich : pf pk 0 8 2 ≠ 1) (hdie : pf pk 0 0 5 ≤ 17)
    (hidle : resetting s.sys false (pf pk 0 0 5) = false) (hstep : s.sys.stp.state = .idle)
    (hclosed : dieOpen s.sys (pf pk 0 0 5) = false)
    (halone : ∀ d ∈ z.cm.cmds, d.id < c.id → d.phase = .running → traceUnitOf d.op d.pkt ≠ pf pk 0 0 5) :
    execUnitReset pk s =
      let now := s.sys.t.timeBase
      let r : UnitReset := { cmd := c.id, standby := false, die := pf pk 0 0 5, start := now, began := now }
      let y := taken c z
      onward s { y with sec :=
        { y.sec with resets := y.sec.resets ++ [r], heldInReset := setAdd y.sec.heldInReset (pf pk 0 0 5) } } := by
  have hnotStandby : (pf pk 0 8 2 == 1) = false := beq_eq_false_iff_ne.mpr hwhich
  rw [← taken_t hmet]
  unfold execUnitReset
  rw [hnotStandby]
  refine onSys_eq (execCommand_go hmet (Bool.or_eq_true_iff.mpr (.inr ?_)) (firstFail_cons ?_ (firstFail_cons ?_ rfl)))
  · rw [Bool.not_eq_true', List.any_eq_false]
    intro d hd
    simpa [and_assoc] using halone d hd
  · exact decide_eq_false (Nat.not_lt.mpr hdie)
  · rw [resetting_met hmet, hidle, stepOpen_of_idle (by rw [meets_stp hmet, hstep]), dieOpen_met hmet, hclosed]
    rfl

end

/-- Taking a command up changes the phase and the shadow mark of that command alone. -/
theorem taken_cmds (c : Cmd) (z : Sys) : (taken c z).cm.cmds =
    z.cm.cmds.map (fun d => if d.id = c.id then { d with phase := .running, shadow := c.shadow } else d) := by
  unfold taken accept
  rw [traceRec_units]
  rfl

/-- A command that is taken up leaves the other device-level commands as they were. -/
theorem deviceLevel_taken (halone : ∀ d ∈ z.cm.cmds, d.id ≠ c.id → deviceLevel d = false) :
    (taken c z).cm.cmds.any (fun d => d.id != c.id && deviceLevel d) = false := by
  rw [taken_cmds, List.any_map, List.any_eq_false]
  intro d hd
  by_cases hid : d.id = c.id
  · simp [hid]
  · simp [hid, halone d hd hid]

theorem execHsHandover_handsOver (hmet : Meets 0x0811 [] false pk s z c) (hready : s.sys.hs.standby = .ready)
    (hidle : s.sys.stp.state = .idle) (hweave : s.sys.stp.weave = none) (hunarmed : s.sys.sec.armed = false)
    (halone : ∀ d ∈ z.cm.cmds, d.id ≠ c.id → deviceLevel d = false) :
    execHsHandover pk s =
      let y := endTransfer 0x25 { taken c z with cm := { (taken c z).cm with handover := none } }
      let y := migrate (payOwed (takeoverNotice { y with hs := { y.hs with active := 1 - y.hs.active } }))
      onward s (finish c.id .ok [BitVec.ofNat 64 y.hs.active] y) := by
  unfold execHsHandover
  refine onSys_eq ((execCommand_go hmet rfl (firstFail_cons ?_ rfl)).trans ?_)
  · rw [stepOpen_of_idle (by rw [meets_stp hmet, hidle]), weaving_of_none (by rw [meets_stp hmet, hweave]), meets_sec hmet, hunarmed,
      meets_hs hmet, hready]
    rfl
  · unfold tryHandOver
    dsimp only
    rw [taken_hs hmet, hready, deviceLevel_taken halone, if_neg (not_not_intro rfl), Bool.false_and, if_neg Bool.false_ne_true]
    rfl

/-! ### FUSE_DEBUG_OFF (R612, R613) -/

section
variable (hmet : Meets 0x0830 [bits [(0, 2), (32, 32)]] (badCode pk 0 0 2 [0, 1, 2]) pk s z c) (hopen : debugOff s.perm = false)
include hmet hopen

theorem execFuseDebugOff_arms (hphase : pf pk 0 0 2 = 0) (hcode : pf pk 0 32 32 = 0) (hunarmed : s.sys.sec.armed = false) :
    execFuseDebugOff pk s = onward s (armFuse c (taken c z)) := by
  rw [← meets_sec hmet] at hunarmed
  unfold execFuseDebugOff
  rw [hphase, hcode]
  refine (onAll_eq ?_ : _ = onwardAll s (s.perm, armFuse c (taken c z)))
  dsimp only
  rw [meetUnit_go hmet rfl (by simp [firstFail, hopen, hunarmed])]
  rfl

theorem execFuseDebugOff_blows (hphase : pf pk 0 0 2 = 1) (hconfirms : confirms c s.sys (pf pk 0 32 32) = true) :
    execFuseDebugOff pk s = onwardAll s (blowFuse c s.perm (taken c z)) := by
  unfold execFuseDebugOff
  rw [hphase]
  refine onAll_eq ?_
  dsimp only
  rw [meetUnit_go hmet rfl (by simp [firstFail, hopen])]
  dsimp only
  exact if_pos ((confirms_taken hmet _).trans hconfirms)

theorem execFuseDebugOff_cancels (hphase : pf pk 0 0 2 = 2) (hcode : pf pk 0 32 32 = 0) (harmed : s.sys.sec.armed = true) :
    execFuseDebugOff pk s = onward s (finish c.id .ok [] (idleFuse (taken c z))) := by
  rw [← meets_sec hmet] at harmed
  unfold execFuseDebugOff
  rw [hphase, hcode]
  refine (onAll_eq ?_ : _ = onwardAll s (s.perm, finish c.id .ok [] (idleFuse (taken c z))))
  dsimp only
  rw [meetUnit_go hmet rfl (by simp [firstFail, hopen, harmed])]
  rfl

end

end

/-- Settles O19: the checks of each command pass, so it is taken up; what it reads stands as before the packet met its unit. A
die's reset that waits for its earlier commands is log 59, the elements blown after CONFIRM are log 60, and when a
handover takes place is log 115. -/
theorem firmwareCommandsComplete : Obligations.FirmwareCommandsComplete := by
  unfold Obligations.FirmwareCommandsComplete
  refine ⟨?query, ?reset, ?handover, ?attest, ?measure, ?fuse⟩
  case query =>
    intro pk s z c hmet
    exact execFwQuery_answers hmet
  case reset =>
    intro pk s z c hmet
    exact ⟨execUnitReset_resetsStandby hmet, execUnitReset_resetsDie hmet⟩
  case handover =>
    intro pk s z c hmet
    exact execHsHandover_handsOver hmet
  case attest =>
    intro pk s z c hmet
    exact ⟨execAttest_sends hmet, execAttest_writes hmet⟩
  case measure =>
    intro pk s z c hmet
    exact execMeasureRead_writes hmet
  case fuse =>
    intro pk s z c hmet hopen
    exact ⟨execFuseDebugOff_arms hmet hopen, execFuseDebugOff_blows hmet hopen, execFuseDebugOff_cancels hmet hopen⟩

end Sys2Proof.Laws
end

section
/-! IMAGES, HEAT AND SIDEBANDS. Image transfers, the samples of temperature and voltage, and what the SMBus target and the test access
port answer. -/

namespace Sys2Proof.Laws

open Sys2Proof Sys2Proof.Machine Sys2Proof.Safety

/-! ### Image transfers (R583, R598, R599) -/

@[simp] theorem takeFrame_sec (f : RxFrame) (y : Sys) : (takeFrame f y).sec = y.sec := by simp [takeFrame]

section
variable {s : State} {f : RxFrame}

theorem execImageBegin_begins (htaken : FrameTaken 0x40 f s)
    (hpasses : headerResult s.perm (takeFrame f s.sys) f.payload = none) :
    execImageBegin f s = onward s (beginTransfer f.payload (takeFrame f s.sys)) := by
  unfold execImageBegin
  refine onSys_eq ((onFrame_taken htaken _).trans ?_)
  rw [hpasses]

theorem execImageBegin_refuses (htaken : FrameTaken 0x40 f s) {r : Nat}
    (hfails : headerResult s.perm (takeFrame f s.sys) f.payload = some r) :
    execImageBegin f s = onward s (refuseHeader f.payload r (takeFrame f s.sys)) := by
  unfold execImageBegin
  refine onSys_eq ((onFrame_taken htaken _).trans ?_)
  rw [hfails]

/-- Data of the size that the frame allows, at the offset that has been reached and within the image, is written or ends the transfer,
as the MRAM does (R598; log 63). -/
theorem execImageData_eq (htaken : FrameTaken 0x41 f s) (hleast : 64 ≤ (f.payload.drop 8).length)
    (hmost : (f.payload.drop 8).length ≤ 8128) (hwhole : (f.payload.drop 8).length % 64 = 0)
    (hoffset : at8 f.payload 0 4 = s.sys.sec.transfer.received)
    (hfits : s.sys.sec.transfer.received + (f.payload.drop 8).length ≤ transferBytes s.sys.sec.transfer) (ok : Bool) :
    execImageData ⟨f, ok⟩ s = onward s
      (let y := takeFrame f s.sys
      let tr := s.sys.sec.transfer
      if ok = false then endTransfer 0x24 y
      else { y with sec := { y.sec with transfer :=
        { tr with data := tr.data ++ f.payload.drop 8, received := tr.received + (f.payload.drop 8).length } } }) := by
  unfold execImageData
  refine onSys_eq ((onFrame_taken htaken _).trans ?_)
  dsimp only
  rw [takeFrame_sec]
  exact if_neg (by omega)

theorem execImageEnd_fails (htaken : FrameTaken 0x42 f s) {r : Nat} (hfails : imageResult s.sys.sec.transfer = some r) (ok : Bool) :
    execImageEnd ⟨f, ok⟩ s = onward s (endTransfer r (takeFrame f s.sys)) := by
  unfold execImageEnd
  refine onSys_eq ((onFrame_taken htaken _).trans ?_)
  rw [takeFrame_sec, hfails]

/-- A whole image becomes pending, or the transfer ends, as the MRAM does (R598; log 63). -/
theorem execImageEnd_whole (htaken : FrameTaken 0x42 f s) (hwhole : imageResult s.sys.sec.transfer = none) (ok : Bool) :
    execImageEnd ⟨f, ok⟩ s = onward s (if ok then stageImage (takeFrame f s.sys) else endTransfer 0x24 (takeFrame f s.sys)) := by
  unfold execImageEnd
  refine onSys_eq ((onFrame_taken htaken _).trans ?_)
  rw [takeFrame_sec, hwhole]

end

/-- Settles O41: a frame that nothing drops takes effect on the transfer, which it leaves as it was itself. Whether the write of the
MRAM succeeds is the operand of the two frames that write it (log 63). -/
theorem imageEventsComplete : Obligations.ImageEventsComplete := by
  unfold Obligations.ImageEventsComplete
  refine ⟨?begins, ?data, ?ends, ?aborted⟩
  case begins =>
    intro s f htaken
    exact ⟨execImageBegin_begins htaken, fun r => execImageBegin_refuses htaken⟩
  case data =>
    intro s f htaken
    dsimp only
    intro hleast hmost hwhole hoffset hfits
    have hexec := execImageData_eq htaken hleast hmost hwhole hoffset hfits
    exact ⟨hexec true, hexec false⟩
  case ends =>
    intro s f htaken
    exact ⟨fun r ok hfails => execImageEnd_fails htaken hfails ok,
      fun hwhole => ⟨execImageEnd_whole htaken hwhole true, execImageEnd_whole htaken hwhole false⟩⟩
  case aborted =>
    intro s f htaken
    exact (onSys_eq (onFrame_taken htaken _) : execImageAbort f s = _)

/-! ### Thermal and life samples (R578, R579, R634 to R639) -/

section
variable {s : State} {die : Nat} {r : ThermReading}

/-- A die whose clocks run is sampled at the end of its interval of 100 µs (R634). -/
theorem execThermalSample_samples (hpowered : powered s.sys = true) (hdie : die < 28) (hruns : dieStopped s.sys die = false)
    (hdue : mapGet 0 s.sys.pwr.lastSample die + 100000 ≤ s.sys.t.timeBase) :
    execThermalSample die r s = onward s
      (let y := { s.sys with pwr := { s.sys.pwr with lastSample := mapSet 0 s.sys.pwr.lastSample die s.sys.t.timeBase } }
      if die < 18 then sampleLoom die r y else sampleOther die r y) :=
  onSys_eq (if_pos (by simp [hpowered, hdie, hruns, hdue]))

theorem sampleLoom_follows {y : Sys} (hcool : tripCause true r = none) :
    sampleLoom die r y =
      let t := thermAt y die
      let n := nextStretch y r t.stretch
      stretchNotices die r t.stretch n
        (setTherm die { t with logic := encTemp r.logic, dram := encTemp r.dram, stretch := n,
                               currentLimit := decide (520 < r.current) && decide (t.stretch < n) } y) := by
  unfold sampleLoom
  rw [hcool]

theorem sampleLoom_trips {y : Sys} {k : Nat} (htrip : tripCause true r = some k) :
    sampleLoom die r y =
      let t := thermAt y die
      tripDie die k (encTemp (if k = 1 then r.logic else r.dram)).toNat t.stretch
        (setTherm die { t with tripped := true, logic := 0x8000, dram := 0x8000 } y) := by
  unfold sampleLoom
  rw [htrip]

end

/-- Settles O43: a sample that is due is taken; a loom die's either trips it or moves its stretch level. That a tripped die
reads 0x8000, and what a trip stops, is logs 74 and 113; the temperature of a stopped die in the histograms is log 4. -/
theorem heatEventsComplete : Obligations.HeatEventsComplete := by
  unfold Obligations.HeatEventsComplete
  refine ⟨?thermal, ?life, ?hours⟩
  case thermal =>
    intro s die r hpowered hdie hruns hdue
    have hexec := execThermalSample_samples (r := r) hpowered hdie hruns hdue
    refine ⟨fun hloom hcool => ?_, fun k hloom htrip => ?_, fun hother => ?_⟩
    · refine hexec.trans ?_
      dsimp only
      rw [if_pos hloom, sampleLoom_follows hcool]
      rfl
    · refine hexec.trans ?_
      dsimp only
      rw [if_pos hloom, sampleLoom_trips htrip]
      rfl
    · exact hexec.trans (congrArg (onward s) (if_neg (Nat.not_lt.mpr hother)))
  case life =>
    intro s vcore hanswers hdue hlength
    exact (onSys_eq (if_pos (by simp [hanswers, hdue, hlength])) : execLifeSample vcore s = _)
  case hours =>
    intro s hanswers hdue
    exact (onSys_eq (if_pos (by simp [hanswers, hdue])) : execHoursTick s = _)

/-! ### The SMBus target and the test access port (R104, R612, R613, R647 to R649) -/

/-- While VAUX is up the target answers (R647). -/
theorem smbAnswer_powered {y : Sys} (hvaux : y.pwr.vaux = true) (bytes : Sys → List Byte) :
    smbAnswer bytes y = { y with pin := { y.pin with smbOut := bytes y } } := if_pos hvaux

theorem execSmbAlertResponse_releases {s : State} (hvaux : s.sys.pwr.vaux = true) (halert : s.sys.pwr.smbAlert = true) :
    execSmbAlertResponse s = onward s { s.sys with
      pwr := { s.sys.pwr with smbAlert := false }, pin := { s.sys.pin with smbOut := leBytes 1 smbAddress } } :=
  onSys_eq ((if_pos (by simp [hvaux, halert])).trans
    (smbAnswer_powered (y := { s.sys with pwr := { s.sys.pwr with smbAlert := false } }) hvaux _))

section
variable {s : State}

/-- The test access port with its answer of no bytes. -/
theorem execTestAccessPort_closed (ti : TapInstr) (hclosed : 2 ≤ s.perm.elements ∨ s.sys.pwr.vaux = false) :
    execTestAccessPort ti s = onward s { s.sys with pin := { s.sys.pin with tapOut := [] } } := by
  refine (if_pos ?_ : execTestAccessPort ti s = _)
  rcases hclosed with hblown | hvaux
  · simp [debugOff, hblown]
  · simp [hvaux]

/-- An open port that is powered does not hold Test-Logic-Reset. -/
theorem tap_open (hopen : s.perm.elements < 2) (hvaux : s.sys.pwr.vaux = true) :
    ¬(debugOff s.perm || !s.sys.pwr.vaux) = true := by
  simp [debugOff, Nat.not_le.mpr hopen, hvaux]

/-- An open port answers a read of the accumulator files with the debug view, and a read elsewhere with nothing. -/
theorem execTestAccessPort_reads (hopen : s.perm.elements < 2) (hvaux : s.sys.pwr.vaux = true) (a : Nat) :
    execTestAccessPort (.readAccumulator a) s = onward s
      (let out := fun (bs : List Byte) (y : Sys) => { y with pin := { y.pin with tapOut := bs } }
      if inFiles a then out (readFile a s.sys).1 (readFile a s.sys).2 else out [] s.sys) :=
  if_neg (tap_open hopen hvaux)

end

/-- Settles O45: the target answers every code while VAUX is up; the port answers by its instruction where it is open. The byte of the
alert response is log 22, and the refusal of a debug instruction log 92. -/
theorem sidebandTargetsAnswer : Obligations.SidebandTargetsAnswer := by
  unfold Obligations.SidebandTargetsAnswer
  refine ⟨?target, ?port⟩
  case target =>
    intro s d hvaux
    have hanswer := fun bytes => (onSys_eq (smbAnswer_powered hvaux bytes) : onSys s (fun _ y => smbAnswer bytes y) = _)
    exact ⟨hanswer _, hanswer _, hanswer _, hanswer _, hanswer _, hanswer _, hanswer _, hanswer _, hanswer _, hanswer _,
      execSmbAlertResponse_releases hvaux⟩
  case port =>
    intro s ti
    dsimp only
    refine ⟨execTestAccessPort_closed ti, fun hopen hvaux => ?_⟩
    refine ⟨?scan, ?outside, ?inside, ?debug⟩
    case scan =>
      rintro rfl
      exact (if_neg (tap_open hopen hvaux) : execTestAccessPort .boundaryScan s = _)
    case outside =>
      rintro a rfl hfiles
      refine (execTestAccessPort_reads hopen hvaux a).trans ?_
      rw [hfiles]
      rfl
    case inside =>
      rintro a rfl hfiles
      refine (execTestAccessPort_reads hopen hvaux a).trans ?_
      rw [hfiles]
      rfl
    case debug =>
      rintro k rfl
      exact (if_neg (tap_open hopen hvaux) : execTestAccessPort (.debug k) s = _)

end Sys2Proof.Laws
end

section
/-! STATE MAP. A legal state map by its keys; what each way of writing the map makes of it; and the translation by a legal map. -/

namespace Sys2Proof.Laws

open Sys2Proof Sys2Proof.Machine Sys2Proof.Safety

/-! ### Maps by their keys -/

section
variable {α : Type} {m : SMap α} {k b : Nat} {v : α}

theorem mem_of_mapFind (h : mapFind m k = some v) : (k, v) ∈ m := by
  induction m with
  | nil => cases h
  | cons p r ih =>
    obtain ⟨j, u⟩ := p
    unfold mapFind at h
    split at h
    · next hk => cases h; exact hk ▸ List.mem_cons_self
    · exact List.mem_cons_of_mem _ (ih h)

theorem lt_of_mapAbove (hm : mapAbove b m = true) (h : (k, v) ∈ m) : b < k := by
  induction m generalizing b with
  | nil => cases h
  | cons p r ih =>
    simp only [mapAbove, Bool.and_eq_true, Nat.blt_eq] at hm
    rcases List.mem_cons.mp h with rfl | hr
    · exact hm.1
    · exact hm.1.trans (ih hm.2 hr)

theorem mapFind_of_mem (hm : mapRising m = true) (h : (k, v) ∈ m) : mapFind m k = some v := by
  induction m with
  | nil => cases h
  | cons p r ih =>
    obtain ⟨j, u⟩ := p
    rcases List.mem_cons.mp h with heq | hr
    · cases heq
      exact if_pos rfl
    · have hlt : j < k := lt_of_mapAbove hm hr
      exact (if_neg hlt.ne').trans (ih (mapRising_of_above hm) hr)

/-- A change that leaves the keys leaves them rising. -/
theorem mapRising_map {g : Nat × α → Nat × α} (hg : ∀ p, (g p).1 = p.1) (h : mapRising m = true) : mapRising (m.map g) = true := by
  have habove : ∀ (r : SMap α) (b : Nat), mapAbove b (r.map g) = mapAbove b r := by
    intro r
    induction r with
    | nil => exact fun _ => rfl
    | cons p r ih =>
      intro b
      have hp : mapAbove b (g p :: r.map g) = (Nat.blt b (g p).1 && mapAbove (g p).1 (r.map g)) := rfl
      rw [List.map_cons, hp, hg p, ih]
      rfl
  cases m with
  | nil => rfl
  | cons p r =>
    have hp : mapRising (g p :: r.map g) = mapAbove (g p).1 (r.map g) := rfl
    rw [List.map_cons, hp, hg p, habove]
    exact h

/-- A change that leaves the keys changes each entry where it stands. -/
theorem mapFind_map {g : Nat × α → Nat × α} (hg : ∀ p, (g p).1 = p.1) :
    mapFind (m.map g) k = (mapFind m k).map (fun v => (g (k, v)).2) := by
  induction m with
  | nil => rfl
  | cons p r ih =>
    obtain ⟨j, u⟩ := p
    have hp : mapFind (g (j, u) :: r.map g) k = if k = (g (j, u)).1 then some (g (j, u)).2 else mapFind (r.map g) k := rfl
    rw [List.map_cons, hp, hg, ih, mapFind]
    split
    · next hk => rw [hk]; rfl
    · rfl

theorem mapGet_map {d : α} {g : Nat × α → Nat × α} (hg : ∀ p, (g p).1 = p.1) (hd : (g (k, d)).2 = d) :
    mapGet d (m.map g) k = (g (k, mapGet d m k)).2 := by
  rw [mapGet_find, mapGet_find, mapFind_map hg]
  cases mapFind m k with
  | none => exact hd.symm
  | some v => rfl

theorem mem_of_mapGet {d : α} (h : mapGet d m k ≠ d) : (k, mapGet d m k) ∈ m := by
  rw [mapGet_find] at h ⊢
  cases hf : mapFind m k with
  | none => exact absurd (by rw [hf]; rfl) h
  | some v => exact mem_of_mapFind hf

theorem mapGet_of_mem {d : α} (hm : mapRising m = true) (h : (k, v) ∈ m) : mapGet d m k = v := by
  rw [mapGet_find, mapFind_of_mem hm h]
  rfl

end

/-! ### Legal maps (R274, R276) -/

/-- Each entry that is not FREE is legal, and no two of them overlap (R274, R276). -/
def LegalEntries (f : Nat → Entry) : Prop :=
  (∀ k, (f k).state ≠ .free → entryLegal k (f k)) ∧
  (∀ j k, (f j).state ≠ .free → (f k).state ≠ .free → j ≠ k → apart (f j) (f k))

/-- A legal state map by its keys. -/
def LegalMap (m : SMap Entry) : Prop := mapRising m = true ∧ LegalEntries (mapGet {} m)

theorem ne_free_mem {m : SMap Entry} {k : Nat} (h : (mapGet {} m k).state ≠ .free) : (k, mapGet {} m k) ∈ m :=
  mem_of_mapGet fun he => h (congrArg Entry.state he)

theorem mapLegal_iff (y : Sys) : mapLegal y ↔ LegalMap y.smap.entries := by
  constructor
  · rintro ⟨hrising, hlegal, hapart⟩
    exact ⟨hrising, fun k hk => hlegal _ (ne_free_mem hk) hk,
      fun j k hj hk hne => hapart _ (ne_free_mem hj) _ (ne_free_mem hk) hj hk hne⟩
  · rintro ⟨hrising, hlegal, hapart⟩
    have hget : ∀ p ∈ y.smap.entries, mapGet {} y.smap.entries p.1 = p.2 := fun p hp => mapGet_of_mem hrising hp
    refine ⟨hrising, fun p hp hne => ?_, fun p hp q hq hpne hqne hpq => ?_⟩
    · have h := hlegal p.1
      rw [hget p hp] at h
      exact h hne
    · have h := hapart p.1 q.1
      rw [hget p hp, hget q hq] at h
      exact h hpne hqne hpq

/-- An entry of the same state and ranges. -/
def SameRanges (d e : Entry) : Prop := d.state = e.state ∧ d.face = e.face ∧ d.back = e.back ∧ d.length = e.length

/-- An entry but for its kind, BACK_WRITTEN and its digest: what says where it translates. -/
def bare (e : Entry) : Entry := { state := e.state, face := e.face, back := e.back, length := e.length, sel := e.sel }

theorem sameRanges_of_bare {d e : Entry} (h : bare d = bare e) : SameRanges d e := by
  injection h with hstate hface hback hlen
  exact ⟨hstate, hface, hback, hlen⟩

theorem sel_of_bare {d e : Entry} (h : bare d = bare e) : d.sel = e.sel := by
  injection h

/-- Entries that keep their states and ranges, and SEL where they are LOADING, stay legal. -/
theorem legalEntries_congr {f g : Nat → Entry} (hfg : ∀ k, SameRanges (g k) (f k))
    (hsel : ∀ k, (f k).state = .loading → (g k).sel = (f k).sel) (hf : LegalEntries f) : LegalEntries g := by
  obtain ⟨hlegal, hapart⟩ := hf
  refine ⟨fun k hk => ?_, fun j k hj hk hne => ?_⟩
  · obtain ⟨hstate, hface, hback, hlen⟩ := hfg k
    rw [hstate] at hk
    obtain ⟨hlt, hfa, hba, hla, hpos, hfd, hbd, hfs, hbs, hst, hov, hload⟩ := hlegal k hk
    rw [entryLegal, hstate, hface, hback, hlen]
    exact ⟨hlt, hfa, hba, hla, hpos, hfd, hbd, hfs, hbs, hst, hov, fun hl => (hsel k hl).trans (hload hl)⟩
  · obtain ⟨hstate, hface, hback, hlen⟩ := hfg j
    obtain ⟨hstate', hface', hback', hlen'⟩ := hfg k
    rw [hstate] at hj
    rw [hstate'] at hk
    rw [apart, hface, hback, hlen, hface', hback', hlen']
    exact hapart j k hj hk hne

/-- An entry that joins a legal map, legal itself and apart from every other that is not FREE, leaves it legal. -/
theorem legalEntries_put {f g : Nat → Entry} {k : Nat} (hk : (g k).state ≠ .free → entryLegal k (g k))
    (hapart : (g k).state ≠ .free → ∀ j, j ≠ k → (f j).state ≠ .free → apart (g k) (f j)) (hother : ∀ j, j ≠ k → g j = f j) (hf : LegalEntries f) :
    LegalEntries g := by
  obtain ⟨hlegal, hfapart⟩ := hf
  have hsym : ∀ {d e}, apart d e → apart e d := by
    rintro d e ⟨hff, hfb, hbf, hbb⟩
    simp only [overlap, Bool.and_eq_false_iff, decide_eq_false_iff_not] at hff hfb hbf hbb
    refine ⟨?_, ?_, ?_, ?_⟩ <;> simp only [overlap, Bool.and_eq_false_iff, decide_eq_false_iff_not]
    · exact hff.symm
    · exact hbf.symm
    · exact hfb.symm
    · exact hbb.symm
  refine ⟨fun j hj => ?_, fun i j hi hj hij => ?_⟩
  · by_cases hjk : j = k
    · exact hjk ▸ hk (hjk ▸ hj)
    · rw [hother j hjk] at hj ⊢
      exact hlegal j hj
  · by_cases hik : i = k
    · subst hik
      rw [hother j hij.symm] at hj ⊢
      exact hapart hi j hij.symm hj
    · rw [hother i hik] at hi ⊢
      by_cases hjk : j = k
      · subst hjk
        exact hsym (hapart hj i hik hi)
      · rw [hother j hjk] at hj ⊢
        exact hfapart i j hi hj hij

/-! ### What a map may become -/

/-- Each ACTIVE entry of the one map is ACTIVE in the other, with the same SEL. -/
def ActiveStay (m n : SMap Entry) : Prop :=
  ∀ k, (mapGet {} m k).state = .active → (mapGet {} n k).state = .active ∧ (mapGet {} n k).sel = (mapGet {} m k).sel

/-- A map that a legal map may become where nothing frees an entry or flips the banks: legal, each ACTIVE entry as it was. -/
def MapFollows (m n : SMap Entry) : Prop := LegalMap m → LegalMap n ∧ ActiveStay m n

theorem mapFollows_refl (m : SMap Entry) : MapFollows m m := fun h => ⟨h, fun _ hk => ⟨hk, rfl⟩⟩

theorem mapFollows_trans {l m n : SMap Entry} (hlm : MapFollows l m) (hmn : MapFollows m n) : MapFollows l n := by
  intro hl
  obtain ⟨hm, hstay⟩ := hlm hl
  obtain ⟨hn, hstay'⟩ := hmn hm
  refine ⟨hn, fun k hk => ?_⟩
  obtain ⟨hact, hsel⟩ := hstay k hk
  obtain ⟨hact', hsel'⟩ := hstay' k hact
  exact ⟨hact', hsel'.trans hsel⟩

/-- Entries that change in BACK_WRITTEN and digest alone. -/
theorem mapFollows_bare {m n : SMap Entry} (hrising : mapRising m = true → mapRising n = true)
    (hbare : ∀ k, bare (mapGet {} n k) = bare (mapGet {} m k)) : MapFollows m n := fun ⟨hr, hl⟩ =>
  ⟨⟨hrising hr, legalEntries_congr (fun k => sameRanges_of_bare (hbare k)) (fun k _ => sel_of_bare (hbare k)) hl⟩,
    fun k hk => ⟨(sameRanges_of_bare (hbare k)).1.trans hk, sel_of_bare (hbare k)⟩⟩

/-- A change of entries in BACK_WRITTEN and digest alone. -/
theorem mapFollows_map {m : SMap Entry} {g : Nat × Entry → Nat × Entry} (hkey : ∀ p, (g p).1 = p.1)
    (hbare : ∀ p, bare (g p).2 = bare p.2) : MapFollows m (m.map g) := by
  refine mapFollows_bare (mapRising_map hkey) fun k => ?_
  rw [mapGet_find, mapGet_find, mapFind_map hkey]
  cases mapFind m k with
  | none => rfl
  | some e => exact hbare (k, e)

/-- An entry that is not ACTIVE becomes one that is legal, apart from the others. -/
theorem mapFollows_put {m : SMap Entry} {k : Nat} {e : Entry} (hk : (mapGet {} m k).state ≠ .active) (he : LegalMap m → e.state ≠ .free → entryLegal k e)
    (hapart : LegalMap m → e.state ≠ .free → ∀ j, j ≠ k → (mapGet {} m j).state ≠ .free → apart e (mapGet {} m j)) :
    MapFollows m (mapSet {} m k e) := by
  have hget : ∀ j, mapGet {} (mapSet {} m k e) j = if j = k then e else mapGet {} m j := fun j => mapGet_set _ _ _ _ _
  have hkk : mapGet {} (mapSet {} m k e) k = e := (hget k).trans (if_pos rfl)
  intro hm
  refine ⟨⟨mapRising_set _ _ _ _ hm.1, legalEntries_put (f := mapGet {} m) (k := k) ?_ ?_ ?_ hm.2⟩, fun j hj => ?_⟩
  · rw [hkk]; exact he hm
  · rw [hkk]; exact hapart hm
  · exact fun j hj => (hget j).trans (if_neg hj)
  · have hjk : j ≠ k := fun h => hk (h ▸ hj)
    rw [hget, if_neg hjk]
    exact ⟨hj, rfl⟩

/-- The ranges that a LOAD may give an entry are legal, and apart from those of every entry that is not FREE (R274). -/
theorem badEntryRanges_false {y : Sys} {face back len : Nat} (h : badEntryRanges y face back len = false) (k : Nat) (hk : k < 256) (kind : Nat) :
    let e : Entry := { state := .loading, face := face, back := back, length := len, kind := kind }
    entryLegal k e ∧ ∀ j, (entryAt y j).state ≠ .free → apart e (entryAt y j) := by
  simp only [badEntryRanges, Bool.or_eq_false_iff, bne_eq_false_iff_eq, beq_eq_false_iff_ne, Bool.not_eq_false', inDram, Bool.and_eq_true,
    decide_eq_true_eq] at h
  obtain ⟨⟨⟨⟨⟨⟨⟨⟨⟨⟨⟨hface, hback⟩, hlen⟩, hpos⟩, hfd, -⟩, hbd, -⟩, hfs⟩, hbs⟩, hst⟩, hov⟩, hmf⟩, hmb⟩ := h
  have hhit : ∀ a, mapHit y a len = false → ∀ j, (entryAt y j).state ≠ .free →
      overlap a len (entryAt y j).face (entryAt y j).length = false ∧ overlap a len (entryAt y j).back (entryAt y j).length = false := by
    intro a ha j hj
    have hany := List.any_eq_false.mp ha _ (ne_free_mem hj)
    have hj' : ((mapGet {} y.smap.entries j).state != EntryState.free) = true := bne_iff_ne.mpr hj
    rw [hj', Bool.true_and, Bool.not_eq_true, Bool.or_eq_false_iff] at hany
    exact hany
  refine ⟨⟨hk, hface, hback, hlen, by show 65536 ≤ len; omega, hfd, hbd, hfs, hbs, hst, hov, fun _ => rfl⟩, fun j hj => ?_⟩
  exact ⟨(hhit face hmf j hj).1, (hhit face hmf j hj).2, (hhit back hmb j hj).1, (hhit back hmb j hj).2⟩

end Sys2Proof.Laws
end

section
/-! COMMANDS IN ORDER AND THE STATE MAP. What every operation of the model keeps of them: most leave both as they were; the rest keep the
order of the commands and a legal map. The lemmas stand in the order of the model. -/

namespace Sys2Proof.Laws

open Sys2Proof Sys2Proof.Machine Sys2Proof.Safety

/-- The commands read, the identity that the next one takes, and the entries of the state map. -/
structure Core where
  cmds : List Cmd
  next : Nat
  map : SMap Entry

def core (y : Sys) : Core := ⟨y.cm.cmds, y.cm.nextId, y.smap.entries⟩

@[simp] theorem core_mk (t hs pwr pin trd svc cr cm lck mem arb eng yarn acc vec upd smap cen lnk coll stp bur nv copy own sec obs free) :
    core ⟨t, hs, pwr, pin, trd, svc, cr, cm, lck, mem, arb, eng, yarn, acc, vec, upd, smap, cen, lnk, coll, stp, bur, nv, copy, own, sec, obs, free⟩ =
      ⟨cm.cmds, cm.nextId, smap.entries⟩ := rfl

@[simp] theorem core_parts (y : Sys) : (⟨y.cm.cmds, y.cm.nextId, y.smap.entries⟩ : Core) = core y := rfl

/-! ### Commands in order -/

/-- A command that waits for its unit has written nothing. -/
def WaitsClean (c : Cmd) : Prop := c.phase = .forwarded → c.wrote = []

/-- The commands have rising identities below the next one, and those that wait have written nothing (R445, R446). -/
def InOrder (cmds : List Cmd) (next : Nat) : Prop :=
  (cmds.map (fun c => c.id)).Pairwise (· < ·) ∧ (∀ c ∈ cmds, c.id < next) ∧ ∀ c ∈ cmds, WaitsClean c

theorem cmdsInOrder_iff (y : Sys) : cmdsInOrder y ↔ InOrder y.cm.cmds y.cm.nextId := Iff.rfl

/-- A change of a command that leaves its identity, and leaves it clean where it waits. -/
def KeepsOrder (g : Cmd → Cmd) : Prop := ∀ c, (g c).id = c.id ∧ (WaitsClean c → WaitsClean (g c))

/-- A change of other parts of a command than its identity, phase and writes. -/
theorem keepsOrder_of_same {g : Cmd → Cmd} (hg : ∀ c, (g c).id = c.id ∧ (g c).phase = c.phase ∧ (g c).wrote = c.wrote) : KeepsOrder g := by
  intro c
  obtain ⟨hid, hphase, hwrote⟩ := hg c
  refine ⟨hid, fun hc hf => ?_⟩
  rw [hphase] at hf
  rw [hwrote]
  exact hc hf

/-- A change that leaves no command waiting. -/
theorem keepsOrder_of_moved {g : Cmd → Cmd} (hg : ∀ c, (g c).id = c.id ∧ (g c).phase ≠ .forwarded) : KeepsOrder g :=
  fun c => ⟨(hg c).1, fun _ hf => absurd hf (hg c).2⟩

theorem keepsOrder_ite {g : Cmd → Cmd} {p : Cmd → Prop} [DecidablePred p] (hg : KeepsOrder g) :
    KeepsOrder (fun c => if p c then g c else c) := by
  intro c
  dsimp only
  split
  · exact hg c
  · exact ⟨rfl, id⟩

theorem inOrder_map {g : Cmd → Cmd} (hg : KeepsOrder g) {cmds : List Cmd} {next : Nat} (h : InOrder cmds next) :
    InOrder (cmds.map g) next := by
  obtain ⟨hrise, hbelow, hclean⟩ := h
  refine ⟨?_, ?_, ?_⟩
  · have hids : (cmds.map g).map (fun c => c.id) = cmds.map (fun c => c.id) := by
      rw [List.map_map]
      exact List.map_congr_left fun c _ => (hg c).1
    rwa [hids]
  · simpa only [List.forall_mem_map, (hg _).1] using hbelow
  · exact List.forall_mem_map.mpr fun c hc => (hg c).2 (hclean c hc)

theorem inOrder_filter (p : Cmd → Bool) {cmds : List Cmd} {next : Nat} (h : InOrder cmds next) : InOrder (cmds.filter p) next := by
  obtain ⟨hrise, hbelow, hclean⟩ := h
  exact ⟨hrise.sublist (List.filter_sublist.map _), fun c hc => hbelow c (List.mem_of_mem_filter hc),
    fun c hc => hclean c (List.mem_of_mem_filter hc)⟩

/-- A command read last takes the next identity. -/
theorem inOrder_append {cmds : List Cmd} {next : Nat} {c : Cmd} (hid : c.id = next) (hc : WaitsClean c) (h : InOrder cmds next) :
    InOrder (cmds ++ [c]) (next + 1) := by
  obtain ⟨hrise, hbelow, hclean⟩ := h
  refine ⟨?_, ?_, ?_⟩
  · rw [List.map_append, List.pairwise_append]
    refine ⟨hrise, List.pairwise_singleton _ _, fun i hi j hj => ?_⟩
    obtain ⟨d, hd, rfl⟩ := List.mem_map.mp hi
    rw [List.map_singleton, List.mem_singleton] at hj
    rw [hj, hid]
    exact hbelow d hd
  · intro d hd
    rcases List.mem_append.mp hd with hd | hd
    · exact Nat.lt_succ_of_lt (hbelow d hd)
    · rw [List.mem_singleton.mp hd, hid]
      exact Nat.lt_succ_self next
  · intro d hd
    rcases List.mem_append.mp hd with hd | hd
    · exact hclean d hd
    · exact List.mem_singleton.mp hd ▸ hc

/-! ### What follows what -/

/-- The order of commands and a legal map are kept. -/
def Sound (a b : Core) : Prop := (InOrder a.cmds a.next → InOrder b.cmds b.next) ∧ (LegalMap a.map → LegalMap b.map)

/-- The order of commands is kept, and the map is one that a legal map may become where nothing frees an entry or flips the banks. -/
def Follows (a b : Core) : Prop := (InOrder a.cmds a.next → InOrder b.cmds b.next) ∧ MapFollows a.map b.map

theorem Follows.sound {a b : Core} (h : Follows a b) : Sound a b := ⟨h.1, fun hm => (h.2 hm).1⟩

theorem sound_follows {a b c : Core} (hab : Sound a b) (hbc : Follows b c) : Sound a c :=
  ⟨hbc.1 ∘ hab.1, hbc.sound.2 ∘ hab.2⟩

theorem follows_refl (a : Core) : Follows a a := ⟨id, mapFollows_refl a.map⟩

section
variable {ref : Core} {y : Sys}

theorem follows_trans {b c : Core} (hab : Follows a b) (hbc : Follows b c) : Follows a c :=
  ⟨hbc.1 ∘ hab.1, mapFollows_trans hab.2 hbc.2⟩

/-- A change of each command. -/
theorem cmds_follows {z : Sys} {g : Cmd → Cmd} (hg : KeepsOrder g) (h : Follows ref (core y))
    (hcmds : z.cm.cmds = y.cm.cmds.map g) (hnext : z.cm.nextId = y.cm.nextId) (hmap : z.smap.entries = y.smap.entries) : Follows ref (core z) := by
  refine follows_trans h ⟨fun ho => ?_, ?_⟩
  · show InOrder z.cm.cmds z.cm.nextId
    rw [hcmds, hnext]
    exact inOrder_map hg ho
  · show MapFollows y.smap.entries z.smap.entries
    rw [hmap]
    exact mapFollows_refl _

/-- A change of the map. -/
theorem map_follows {z : Sys} (hm : MapFollows y.smap.entries z.smap.entries) (h : Follows ref (core y)) (hcm : z.cm = y.cm) :
    Follows ref (core z) := by
  refine follows_trans h ⟨fun ho => ?_, hm⟩
  show InOrder z.cm.cmds z.cm.nextId
  rwa [hcm]

theorem modCmd_follows {f : Cmd → Cmd} (id : Nat) (hf : KeepsOrder f) (h : Follows ref (core y)) : Follows ref (core (modCmd id f y)) :=
  cmds_follows (keepsOrder_ite hf) h rfl rfl rfl

/-- A change of other parts of a command than its identity, phase and writes. -/
@[simp] theorem modCmd_same_follows {f : Cmd → Cmd} (id : Nat)
    (hf : ∀ c, (f c).id = c.id ∧ (f c).phase = c.phase ∧ (f c).wrote = c.wrote) (h : Follows ref (core y)) :
    Follows ref (core (modCmd id f y)) := modCmd_follows id (keepsOrder_of_same hf) h

theorem setEntry_follows {k : Nat} {e : Entry} (hm : MapFollows y.smap.entries (mapSet {} y.smap.entries k e)) (h : Follows ref (core y)) :
    Follows ref (core (setEntry k e y)) := map_follows hm h rfl

/-! ### Folds -/

section
variable {β : Type} {f : Sys → β → Sys}

@[simp] theorem foldl_core (h : ∀ y b, core (f y b) = core y) (l : List β) (y : Sys) : core (l.foldl f y) = core y :=
  foldl_keeps core f h l y

theorem foldl_follows (hf : ∀ y b, Follows ref (core y) → Follows ref (core (f y b))) (l : List β) :
    ∀ {y : Sys}, Follows ref (core y) → Follows ref (core (l.foldl f y)) := by
  induction l with
  | nil => intro y h; exact h
  | cons b l ih => intro y h; exact ih (hf y b h)

end

/-! ### Memory and the state map -/

@[simp] theorem dropCopies_core (n : Nat) (test : Copy → Bool) (killed : Bool) (y : Sys) : core (dropCopies n test killed y) = core y := by
  unfold dropCopies; dsimp only; split <;> rfl

@[simp] theorem dropAllCopies_core (test : Copy → Bool) (killed : Bool) (y : Sys) : core (dropAllCopies test killed y) = core y :=
  foldl_core (fun y n => dropCopies_core n test killed y) _ y

@[simp] theorem recordEvent_core (severity code source data : Nat) (y : Sys) : core (recordEvent severity code source data y) = core y := by
  rw [recordEvent_nv]; rfl

@[simp] theorem reportGranule_core (g source : Nat) (y : Sys) : core (reportGranule g source y) = core y := recordEvent_core _ _ _ _ _

@[simp] theorem reportPoison_core (g source : Nat) (y : Sys) : core (reportPoison g source y) = core y := reportGranule_core _ _ _

/-- BACK_WRITTEN of an entry, and the bytes of a command that runs. -/
@[simp] theorem noteBack_follows (id : Option Nat) (a : Nat) (bs : List Byte) (h : Follows ref (core y)) :
    Follows ref (core (noteBack id a bs y)) := by
  have hmark : ∀ k, MapFollows y.smap.entries
      (y.smap.entries.map (fun p => if p.1 = k then (p.1, { p.2 with backWritten := true }) else p)) := fun k => by
    refine mapFollows_map (fun p => ?_) fun p => ?_ <;> dsimp only <;> split <;> rfl
  unfold noteBack
  split
  · exact h
  · next k o _ =>
    cases id with
    | none => exact map_follows (hmark k) h rfl
    | some i =>
      refine modCmd_follows i (fun c => ?_) (map_follows (hmark k) h rfl)
      dsimp only
      split
      · exact ⟨rfl, fun hc => hc⟩
      · next hrun => exact ⟨rfl, fun _ hf => absurd hf hrun⟩

@[simp] theorem writePiece_follows (id : Option Nat) (a : Nat) (bs : List Byte) (h : Follows ref (core y)) :
    Follows ref (core (writePiece id a bs y)) := by
  unfold writePiece
  dsimp only
  generalize (if translateAddr y a < dramEnd then setHas y.mem.poison (translateAddr y a / 64)
    else setHas y.mem.badWords (translateAddr y a / 8)) = hit
  generalize (if translateAddr y a < dramEnd then bs.length == 64 else bs.length == 8) = whole
  cases hit && !whole with
  | true =>
    rw [if_pos rfl]
    split <;> cases id <;> simp [h]
  | false =>
    rw [if_neg (by simp)]
    exact noteBack_follows id a bs (by rw [dropAllCopies_core]; split <;> simpa using h)

@[simp] theorem writeBytes_follows (id : Option Nat) (a : Nat) (bs : List Byte) (h : Follows ref (core y)) :
    Follows ref (core (writeBytes id a bs y)) := by
  unfold writeBytes
  generalize bs.length = fuel
  induction fuel generalizing a bs y with
  | zero => exact h
  | succ fuel ih =>
    unfold writePieces
    split
    · exact h
    · exact ih _ _ (writePiece_follows id a _ h)

/-- A new digest of an entry leaves it bare as it was. -/
theorem bare_digest (m : SMap Entry) (i : Nat) (d : Entry → Word64) (k : Nat) :
    bare (mapGet {} (mapMod {} m i (fun e => if e.state = .free then e else { e with digest := d e })) k) = bare (mapGet {} m k) := by
  rw [mapGet_mod]
  split
  · next hk => subst hk; split <;> rfl
  · rfl

/-- The terms of a command's writes change digests alone (R278). -/
theorem addDigests_bare (w : SMap Byte) (y : Sys) (k : Nat) : bare (entryAt (addDigests w y) k) = bare (entryAt y k) := by
  unfold addDigests entryAt
  dsimp only
  generalize wroteWords w = words
  generalize y.smap.entries = m
  induction words generalizing m with
  | nil => rfl
  | cons p l ih => exact (ih _).trans (bare_digest m _ _ k)

theorem addDigests_rising {y : Sys} (w : SMap Byte) (h : mapRising y.smap.entries = true) :
    mapRising (addDigests w y).smap.entries = true := by
  unfold addDigests
  dsimp only
  generalize wroteWords w = words
  generalize y.smap.entries = m at h ⊢
  induction words generalizing m with
  | nil => exact h
  | cons p l ih => exact ih _ (mapRising_set _ _ _ _ h)

@[simp] theorem addDigests_follows (w : SMap Byte) (h : Follows ref (core y)) : Follows ref (core (addDigests w y)) :=
  map_follows (mapFollows_bare (addDigests_rising w) (addDigests_bare w y)) h rfl

@[simp] theorem keepView_follows (e : Entry) (h : Follows ref (core y)) : Follows ref (core (keepView e y)) := by
  unfold keepView
  split
  · exact cmds_follows (keepsOrder_ite (p := fun c => c.phase = .running)
      (keepsOrder_of_same (g := fun c => { c with kept := (e.face, e.back, e.length) :: c.kept }) fun c => ⟨rfl, rfl, rfl⟩)) h rfl rfl rfl
  · exact h

end

end Sys2Proof.Laws
end

section
/-! COMMANDS IN ORDER AND THE STATE MAP, OPERATIONS. What every operation of the model keeps of the order of commands and of the state map,
in the order of the model. -/

namespace Sys2Proof.Laws

open Sys2Proof Sys2Proof.Machine Sys2Proof.Safety

/-! ### Updates of parts that hold neither -/

section
variable (y : Sys)

@[simp] theorem setLane_core (k : Nat) (l : Lane) : core (setLane k l y) = core y := rfl
@[simp] theorem setTile_core (n t : Nat) (p : TilePos) : core (setTile n t p y) = core y := rfl
@[simp] theorem setBur_core (d : Nat) (x : BurlerDie) : core (setBur d x y) = core y := rfl
@[simp] theorem setYarn_core (n : Nat) (st : YarnSt) : core (setYarn n st y) = core y := rfl
@[simp] theorem setEng_core (e : Nat) (x : Engine) : core (setEng e x y) = core y := rfl
@[simp] theorem setRun_core (n : Nat) (r : VecRun) : core (setRun n r y) = core y := rfl
@[simp] theorem setMicro_core (d : Nat) (r : MicroRun) : core (setMicro d r y) = core y := rfl
@[simp] theorem setCtrSet_core (k : Nat) (x : CtrSet) : core (setCtrSet k x y) = core y := rfl
@[simp] theorem onTrace_core (f : TraceSt → TraceSt) : core (onTrace f y) = core y := rfl
@[simp] theorem setUnit_core (u : Nat) (x : TraceUnit) : core (setUnit u x y) = core y := rfl
@[simp] theorem setLock_core (k : Nat) (l : Lock) : core (setLock k l y) = core y := rfl
@[simp] theorem onStep_core (f : StepSt → StepSt) : core (onStep f y) = core y := rfl
@[simp] theorem setDirty_core (i : Nat) : core (setDirty i y) = core y := rfl
@[simp] theorem onTime_core (f : TimeSt → TimeSt) : core (onTime f y) = core y := rfl
@[simp] theorem modBucket_core (i : Nat) (f : Bucket → Bucket) : core (modBucket i f y) = core y := rfl
@[simp] theorem onLife_core (f : LifeSt → LifeSt) : core (onLife f y) = core y := rfl
@[simp] theorem onCtr_core (c i : Nat) (f : Counters → Counters) : core (onCtr c i f y) = core y := rfl
@[simp] theorem onOwn_core (h : Nat) (f : HeadMram → HeadMram) : core (onOwn h f y) = core y := rfl
@[simp] theorem onBoot_core (h : Nat) (f : HsBoot → HsBoot) : core (onBoot h f y) = core y := rfl
@[simp] theorem setTherm_core (d : Nat) (x : ThermDie) : core (setTherm d x y) = core y := rfl
@[simp] theorem onPort_core (w : Nat) (f : PortSt → PortSt) : core (onPort w f y) = core y := rfl
@[simp] theorem viewed_core (c : Cmd) : core (viewed c y) = core y := rfl
@[simp] theorem unview_core : core (unview y) = core y := rfl
@[simp] theorem setSess_core (b : Bool) (s : Session) : core (setSess y b s) = core y := by cases b <;> rfl

end

variable {ref : Core}

@[simp] theorem core_setDirty_ite {p : Prop} [Decidable p] (i : Nat) (y : Sys) : core (if p then setDirty i y else y) = core y := by
  split <;> rfl

@[simp] theorem follows_ite {p : Prop} [Decidable p] {y z : Sys} (hy : Follows ref (core y)) (hz : Follows ref (core z)) :
    Follows ref (core (if p then y else z)) := by
  split
  · exact hy
  · exact hz

/-! ### Frames, notices, the event recorder and the trace -/

@[simp] theorem freshWord_core (y : Sys) : core (freshWord y).2 = core y := rfl

@[simp] theorem noteTx_core (p : Port) (y : Sys) : core (noteTx p y) = core y := by
  unfold noteTx; split <;> simp

@[simp] theorem sendPlain_core (svc : Bool) (p : Port) (typ : Nat) (payload : List Byte) (y : Sys) :
    core (sendPlain svc p typ payload y) = core y := by
  unfold sendPlain; simp

@[simp] theorem sendSeq_core (svc : Bool) (typ : Nat) (payload : List Byte) (y : Sys) :
    core (sendSeq svc typ payload y) = core y := by
  unfold sendSeq; simp

@[simp] theorem holdReply_core (svc : Bool) (bytes : List Byte) (y : Sys) : core (holdReply svc bytes y) = core y := by
  unfold holdReply; dsimp only; split <;> simp

@[simp] theorem traceRec_core (u typ : Nat) (s : Stamp) (code tag status creel lane arg : Nat) (y : Sys) :
    core (traceRec u typ s code tag status creel lane arg y) = core y := by
  unfold traceRec; dsimp only; split <;> simp

@[simp] theorem notice_core (kind source tag arg step : Nat) (y : Sys) : core (notice kind source tag arg step y) = core y := by
  unfold notice; dsimp only; split <;> simp

@[simp] theorem writeTriggers_core (s : Stamp) (cause user : Nat) : ∀ (us : List Nat) (y : Sys),
    core (writeTriggers s cause user us y) = core y
  | [], _ => rfl
  | u :: us, y => by rw [writeTriggers, writeTriggers_core s cause user us, traceRec_core]

@[simp] theorem traceFire_core (cause user unit : Nat) (s : Stamp) (y : Sys) : core (traceFire cause user unit s y) = core y := by
  unfold traceFire
  dsimp only
  split
  · rw [notice_core, writeTriggers_core]; rfl
  · rfl

@[simp] theorem expireOne_core (k : Nat) (y : Sys) : core (expireOne k y) = core y := by
  unfold expireOne; dsimp only; split <;> simp

@[simp] theorem expireLocks_core (y : Sys) : core (expireLocks y) = core y := by
  unfold expireLocks; simp

@[simp] theorem breakLocks_core (svc : Bool) (cause : Nat) (y : Sys) : core (breakLocks svc cause y) = core y := by
  unfold breakLocks; refine foldl_core (fun z k => ?_) _ y; dsimp only; split <;> simp

/-! ### Memory -/

@[simp] theorem onDie_core (d : Nat) (f : MemDie → MemDie) (y : Sys) : core (onDie d f y) = core y := rfl

@[simp] theorem countUncorr_core (stack : Nat) (y : Sys) : core (countUncorr stack y) = core y := rfl

@[simp] theorem countCorr_core (stack : Nat) (y : Sys) : core (countCorr stack y) = core y := rfl

/-! ### Commands -/

@[simp] theorem newCmd_follows (op creel lane words : Nat) (sealed : Bool) (pk : Packet) {y : Sys} (h : Follows ref (core y)) :
    Follows ref (core (newCmd op creel lane words sealed pk y)) := by
  refine follows_trans h ⟨?_, mapFollows_refl _⟩
  unfold newCmd
  dsimp only
  split
  · exact inOrder_append rfl fun _ => rfl
  · exact inOrder_append rfl fun _ => rfl

@[simp] theorem finish_follows (id : Nat) (st : Status) (res : List Word64) {y : Sys} (h : Follows ref (core y)) :
    Follows ref (core (finish id st res y)) := by
  unfold finish
  split
  · exact h
  · next c _ =>
    dsimp only
    generalize (if (c.partialPoison && isSuccess st) = true then Status.memUncorrectable else st) = st'
    refine modCmd_follows id (keepsOrder_of_moved fun c => ⟨rfl, nofun⟩) ?_
    split <;> simp [h]

@[simp] theorem overrule_follows (id : Nat) (st : Status) {y : Sys} (h : Follows ref (core y)) :
    Follows ref (core (overrule id st y)) := by
  refine modCmd_follows id (fun c => ?_) h
  cases hphase : c.phase with
  | done s r =>
    dsimp only
    split
    · exact ⟨rfl, fun hc => hc⟩
    · exact ⟨rfl, fun _ hf => nomatch hf⟩
  | _ => exact ⟨rfl, fun hc => hc⟩

@[simp] theorem accept_follows (c : Cmd) (shadow : Bool) {y : Sys} (h : Follows ref (core y)) :
    Follows ref (core (accept c shadow y)) := by
  unfold accept
  rw [traceRec_core]
  exact modCmd_follows c.id (keepsOrder_of_moved fun d => ⟨rfl, nofun⟩) h

@[simp] theorem deliver_follows (id : Nat) {y : Sys} (h : Follows ref (core y)) : Follows ref (core (deliver id y)) := by
  unfold deliver; simp [h]

theorem atUnit_follows {op : Nat} {pk : Packet} {y z : Sys} {c : Cmd} (hu : atUnit op pk y = some (z, c)) (h : Follows ref (core y)) :
    Follows ref (core z) := by
  unfold atUnit at hu
  split at hu
  · split at hu
    · cases hu; exact h
    · cases hu
  · dsimp only at hu
    split at hu
    · obtain ⟨d, _, hd⟩ := Option.map_eq_some_iff.mp hu
      cases hd
      exact newCmd_follows _ _ _ _ _ _ h
    · cases hu

@[simp] theorem meetUnit_follows (op : Nat) (layout : List Nat) (bad : Packet → Bool) (ready : Cmd → Sys → Bool)
    (check : Cmd → Sys → Option (Status × List Word64)) (pk : Packet) {y : Sys} (h : Follows ref (core y)) :
    Follows ref (core (meetUnit op layout bad ready check pk y).1) := by
  unfold meetUnit
  split
  · exact h
  · next z c hu =>
    have hz := atUnit_follows hu h
    split
    · simp [hz]
    · split
      · simp [h]
      · simp [hz]
      · simp [hz]
      · dsimp only
        (repeat' split) <;> simp [h, hz]

/-- What a packet does to its unit: a command that is taken up has its effect (R29). -/
theorem execCommand_meets (op : Nat) (layout : List Nat) (bad : Packet → Bool) (ready : Cmd → Sys → Bool)
    (check : Cmd → Sys → Option (Status × List Word64)) (effect : Cmd → Sys → Sys) (pk : Packet) (y : Sys) :
    execCommand op layout bad ready check effect pk y = (meetUnit op layout bad ready check pk y).1 ∨
      ∃ c, (meetUnit op layout bad ready check pk y).2 = some c ∧
        execCommand op layout bad ready check effect pk y = effect c (meetUnit op layout bad ready check pk y).1 := by
  unfold execCommand
  split
  · next z c hq => rw [hq]; exact .inr ⟨c, rfl, rfl⟩
  · next z hq => rw [hq]; exact .inl rfl

theorem execCommand_follows {op : Nat} {layout : List Nat} {bad : Packet → Bool} {ready : Cmd → Sys → Bool}
    {check : Cmd → Sys → Option (Status × List Word64)} {effect : Cmd → Sys → Sys} {pk : Packet} {y : Sys}
    (he : ∀ c z, Follows ref (core z) → Follows ref (core (effect c z))) (h : Follows ref (core y)) :
    Follows ref (core (execCommand op layout bad ready check effect pk y)) := by
  have hmeet := meetUnit_follows op layout bad ready check pk h
  rcases execCommand_meets op layout bad ready check effect pk y with hm | ⟨c, _, hc⟩
  · rwa [hm]
  · rw [hc]; exact he c _ hmeet

/-! ### Operands -/

@[simp] theorem failTiles_core (n : Nat) (y : Sys) : core (failTiles n y) = core y := by unfold failTiles; simp

@[simp] theorem scheduleTest_core (n : Nat) (y : Sys) : core (scheduleTest n y) = core y := by
  unfold scheduleTest; split <;> simp

@[simp] theorem storeError_core (n : Nat) (y : Sys) : core (storeError n y) = core y := by
  unfold storeError; simp

theorem consume_core {source a n : Nat} {y z : Sys} (h : consume source a n y = some z) : core z = core y := by
  unfold consume at h
  repeat' split at h
  all_goals cases h
  all_goals simp

theorem consumeAll_core {source : Nat} {y z : Sys} : ∀ {l : List (Nat × Nat)}, consumeAll source y l = some z →
    core z = core y
  | (a, n) :: r, h => by
    rw [consumeAll] at h
    split at h
    · next hc => cases h; exact consume_core hc
    · exact consumeAll_core h

/-! ### Link packets -/

@[simp] theorem sendWarp_core (w : Nat) (m : WarpMsg) (y : Sys) : core (sendWarp w m y) = core y := by
  unfold sendWarp; split <;> simp

@[simp] theorem sendTwin_core (a b : Nat) (m : WarpMsg) (y : Sys) : core (sendTwin a b m y) = core y := by
  unfold sendTwin; split <;> simp

/-! ### The memory commands -/

@[simp] theorem copySome_follows (c : Cmd) (src dst : Nat) : ∀ (n : Nat) {y : Sys}, Follows ref (core y) →
    Follows ref (core (copySome c src dst n y))
  | 0, _, h => h
  | n + 1, y, h => by
    have hn := copySome_follows c src dst n h
    unfold copySome
    dsimp only
    split
    · exact writeBytes_follows _ _ _ hn
    · exact hn

@[simp] theorem sendSome_core (c : Cmd) (w self dev src dst : Nat) : ∀ (n : Nat) (y : Sys),
    core (sendSome c w self dev src dst n y).2 = core y
  | 0, _ => rfl
  | n + 1, y => by
    have hn := sendSome_core c w self dev src dst n y
    unfold sendSome
    dsimp only
    split <;> simp [hn]

@[simp] theorem copyLocal_follows (c : Cmd) (src dst n : Nat) {y : Sys} (h : Follows ref (core y)) :
    Follows ref (core (copyLocal c src dst n y)) := by
  unfold copyLocal
  split
  · simp [h]
  · split
    · next hc => simp [consume_core hc, h]
    · simp [h]

@[simp] theorem awaitReports_follows (c : Cmd) (dev w left : Nat) (st : Status) {y : Sys} (h : Follows ref (core y)) :
    Follows ref (core (awaitReports c dev w left st y)) := by
  unfold awaitReports
  split
  · simp [h]
  · exact h

@[simp] theorem copyRemote_follows (c : Cmd) (dev src dst n : Nat) {y : Sys} (h : Follows ref (core y)) :
    Follows ref (core (copyRemote c dev src dst n y)) := by
  unfold copyRemote
  dsimp only
  split
  · simp [h]
  · split
    · simp [h]
    · split
      · next hc => simp [consume_core hc, h]
      · simp [h]

@[simp] theorem trimCopies_core (n : Nat) (y : Sys) : core (trimCopies n y) = core y := by
  unfold trimCopies; split <;> simp

@[simp] theorem trimAll_core (y : Sys) : core (trimAll y) = core y := by
  unfold trimAll; simp

@[simp] theorem endYarn_core (n : Nat) (y : Sys) : core (endYarn n y) = core y := by
  unfold endYarn; simp

@[simp] theorem writeAll_follows (id : Nat) : ∀ (ws : List (Nat × List Byte)) {y : Sys}, Follows ref (core y) →
    Follows ref (core (writeAll id ws y))
  | [], _, h => h
  | (a, b) :: ws, _, h => writeAll_follows id ws (writeBytes_follows (some id) a b h)

/-! ### Tiles -/

@[simp] theorem replayPass_core : ∀ (l : List LogEntry) (y : Sys) (x : ExactTile),
    core (replayPass l y x).1 = core y
  | [], _, _ => rfl
  | e :: r, y, x => by
    unfold replayPass
    split
    · next hc => exact consumeAll_core hc
    · split
      · rfl
      · exact replayPass_core r y _

@[simp] theorem settle_core : ∀ (fuel : Nat) (y : Sys) (x : ExactTile), core (settle fuel y x).1 = core y
  | 0, _, _ => rfl
  | fuel + 1, y, x => by
    unfold settle
    split
    · split
      · rfl
      · dsimp only
        split
        · next hp => rw [settle_core fuel, ← replayPass_core x.log y _, hp]
        · exact replayPass_core x.log y _
    · rfl

@[simp] theorem freeElem_core (y : Sys) : core (freeElem y).2 = core y := by unfold freeElem; simp

@[simp] theorem freeElems_core : ∀ (n : Nat) (y : Sys), core (freeElems n y).2 = core y
  | 0, _ => rfl
  | n + 1, y => by rw [freeElems, freeElems_core n, freeElem_core]

@[simp] theorem freeNarrow_core (y : Sys) : core (freeNarrow y).2 = core y := rfl

@[simp] theorem freeNarrows_core : ∀ (n : Nat) (y : Sys), core (freeNarrows n y).2 = core y
  | 0, _ => rfl
  | n + 1, y => by rw [freeNarrows, freeNarrows_core n, freeNarrow_core]

/-! ### The update -/

@[simp] theorem updFinish_follows (id : Nat) (o : UpdOp) (ls : BitVec 8) (r : MicroRun) {y : Sys} (h : Follows ref (core y)) :
    Follows ref (core (updFinish id o ls r y)) := by
  unfold updFinish; simp [h]

@[simp] theorem builtinLoop_follows (id : Nat) (o : UpdOp) (ls : Int) : ∀ (n i : Nat) (r : MicroRun) {y : Sys},
    Follows ref (core y) → Follows ref (core (builtinLoop id o ls n i r y).2)
  | 0, _, _, _, h => h
  | n + 1, i, _, _, h => builtinLoop_follows id o ls n (i + 1) _ (writeAll_follows id _ h)

@[simp] theorem updRun_follows (c : Cmd) (o : UpdOp) {y : Sys} (h : Follows ref (core y)) :
    Follows ref (core (updRun c o y)) := by
  unfold updRun
  dsimp only
  split
  · simp [h]
  · split
    · next hc => simp [consumeAll_core hc, h]
    · split <;> simp [h]

theorem microRow_follows {die op : Nat} {f : Nat → UpdOp → Word32 → MicroRun → Sys → Sys} {y : Sys}
    (hf : ∀ id o w r z, Follows ref (core z) → Follows ref (core (f id o w r z))) (h : Follows ref (core y)) :
    Follows ref (core (microRow die op f y)) := by
  unfold microRow
  dsimp only
  split
  · exact h
  · split
    · exact h
    · split
      · exact h
      · exact hf _ _ _ _ _ h

/-! ### The other bobbin commands -/

@[simp] theorem someRows_core : ∀ (l : List (Nat × Nat)) (y : Sys), core (someRows l y).2 = core y
  | [], _ => rfl
  | _ :: l, y => someRows_core l (freshWord y).2

@[simp] theorem addRow_follows (id a : Nat) (es : List (Int × CenCls)) {y : Sys} (h : Follows ref (core y)) :
    Follows ref (core (addRow id a es y)) := by
  unfold addRow; exact foldl_follows (fun z p hz => writeBytes_follows _ _ _ hz) _ h

@[simp] theorem addCensus_core (d : CensusDelta) (y : Sys) : core (addCensus d y) = core y := rfl

/-! ### Buckets -/

@[simp] theorem dropHeader_core (port : Nat) (bytes : List Byte) (y : Sys) : core (dropHeader port bytes y) = core y := by
  unfold dropHeader; simp

@[simp] theorem putBucket_core (b : Bucket) (y : Sys) : core (putBucket b y) = core y := rfl

@[simp] theorem failBucket_follows (b : Bucket) (st : Status) {y : Sys} (h : Follows ref (core y)) :
    Follows ref (core (failBucket b st y)) := by
  have hrecord : ∀ (k : Bool) (r : Option BucketRec), KeepsOrder (fun c => if isDone c && k then c else { c with record := r }) :=
    fun k r => keepsOrder_of_same fun c => by split <;> exact ⟨rfl, rfl, rfl⟩
  have hfail := finish_follows b.cmd st [] (modCmd_follows b.cmd (hrecord (!isStepFatal st)
    (some (recordOf b (st == .bucketTwinDiff) false 0 0))) (y := putBucket { b with finished := true, failed := true } y) h)
  unfold failBucket
  split
  · exact overrule_follows b.cmd st hfail
  · exact hfail

@[simp] theorem stopSpoiled_follows (id : Nat) {y : Sys} (h : Follows ref (core y)) : Follows ref (core (stopSpoiled id y)) := by
  unfold stopSpoiled; (repeat' split) <;> simp [h]

@[simp] theorem sendStrand_core (b : Bucket) (r : Route) (flags : BitVec 8) (strand shard first n : Nat)
    (payload : List Byte) (y : Sys) :
    core (sendStrand b r flags strand shard first n payload y) = core y := by
  unfold sendStrand; simp

@[simp] theorem sendPieces_follows (b : Bucket) (r : Route) (flags : BitVec 8) (shard base first0 : Nat) :
    ∀ (l : List (Nat × Nat × Nat)) {y : Sys}, Follows ref (core y) → Follows ref (core (sendPieces b r flags shard base first0 l y))
  | [], _, h => h
  | q :: l, y, h => by
    unfold sendPieces
    dsimp only
    split
    · next hc => simp [consume_core hc, h]
    · exact sendPieces_follows b r flags shard base first0 l (by rwa [sendStrand_core])

@[simp] theorem sendShard_follows (b : Bucket) (r : Route) (flags : BitVec 8) (shard base first0 : Nat) {y : Sys}
    (h : Follows ref (core y)) : Follows ref (core (sendShard b r flags shard base first0 y)) :=
  sendPieces_follows b r flags shard base first0 _ h

@[simp] theorem sendOn_follows (b : Bucket) (r : Route) (flags : BitVec 8) (strand shard first n : Nat) (payload : List Byte)
    {y : Sys} (h : Follows ref (core y)) :
    Follows ref (core (sendOn b r flags strand shard first n payload y)) := by
  unfold sendOn; dsimp only; split <;> simp [h]

@[simp] theorem joinHalves_follows (b : Bucket) (r : Route) (first : Nat) (own twin : List Nat × BitVec 8) {y : Sys}
    (h : Follows ref (core y)) : Follows ref (core (joinHalves b r first own twin y)) := by
  unfold joinHalves; simp [h]

@[simp] theorem ownHalfDone_follows (b : Bucket) (r : Route) (hd : BucketHdr) (sum : List Nat) (fl : BitVec 8) {y : Sys}
    (h : Follows ref (core y)) : Follows ref (core (ownHalfDone b r hd sum fl y)) := by
  unfold ownHalfDone; dsimp only; split <;> simp [h]

@[simp] theorem twinHalfIn_follows (b : Bucket) (r : Route) (hd : BucketHdr) (half : List Nat) {y : Sys}
    (h : Follows ref (core y)) : Follows ref (core (twinHalfIn b r hd half y)) := by
  unfold twinHalfIn; dsimp only
  split
  · exact h
  · split <;> simp [h]

@[simp] theorem addPartial_follows (b : Bucket) (r : Route) (hd : BucketHdr) (payload : List Byte) {y : Sys}
    (h : Follows ref (core y)) : Follows ref (core (addPartial b r hd payload y)) := by
  unfold addPartial; dsimp only
  split
  · next hc => simp [consume_core hc, h]
  · split
    · split
      · exact ownHalfDone_follows _ r hd _ _ (by simpa using h)
      · simp [h]
    · exact sendOn_follows _ _ _ _ _ _ _ _ (writeBytes_follows _ _ _ h)

@[simp] theorem tryGather_follows (b : Bucket) (r : Route) {y : Sys} (h : Follows ref (core y)) :
    Follows ref (core (tryGather b r y)) := by
  unfold tryGather
  split
  · exact h
  · split
    · exact finish_follows _ _ _ (modCmd_follows _ (keepsOrder_of_same fun _ => ⟨rfl, rfl, rfl⟩) h)
    · exact h

@[simp] theorem gatherIn_follows (b : Bucket) (r : Route) (hd : BucketHdr) (payload : List Byte) {y : Sys}
    (h : Follows ref (core y)) : Follows ref (core (gatherIn b r hd payload y)) := by
  have hput := fun b' => (putBucket_core b' (writeBytes (some b.cmd) (resultAddr b r hd.shard hd.first) payload y)).symm ▸
    writeBytes_follows (some b.cmd) (resultAddr b r hd.shard hd.first) payload h
  unfold gatherIn
  dsimp only
  refine tryGather_follows _ r (follows_ite (hput _) (sendOn_follows _ r 0 hd.strand hd.shard hd.first hd.elems payload (hput _)))

@[simp] theorem bucketTrace_core (b : Bucket) (ev shard port : Nat) (y : Sys) : core (bucketTrace b ev shard port y) = core y := by
  unfold bucketTrace; simp

@[simp] theorem twinDifference_follows (b : Bucket) {y : Sys} (h : Follows ref (core y)) :
    Follows ref (core (twinDifference b y)) := by
  unfold twinDifference
  dsimp only
  split
  · exact failBucket_follows _ _ h
  · rw [notice_core]; exact h

@[simp] theorem lateOriginal_follows (b : Bucket) (r : Route) (hd : BucketHdr) (payload : List Byte) {y : Sys}
    (h : Follows ref (core y)) : Follows ref (core (lateOriginal b r hd payload y)) := by
  unfold lateOriginal
  dsimp only
  split
  · next hc =>
    have hz := consumeAll_core hc
    rw [bucketTrace_core, putBucket_core] at hz
    rw [← hz] at h
    exact follows_ite h (failBucket_follows _ _ h)
  · generalize (if b.gather = true then payload else _) = mine
    refine follows_ite ?_ (twinDifference_follows _ ?_)
    · exact (bucketTrace_core _ _ _ _ _).symm ▸ h
    · exact (bucketTrace_core _ _ _ _ _).symm ▸ h

@[simp] theorem holdPacket_core (port pick : Nat) (h : BucketHdr) (payload : List Byte) (y : Sys) :
    core (holdPacket port pick h payload y) = core y := by
  unfold holdPacket; split <;> simp

@[simp] theorem askTwin_core (b : Bucket) (r : Route) (q : Nat × Nat × Nat × Nat) (y : Sys) : core (askTwin b r q y) = core y := by
  unfold askTwin; simp

@[simp] theorem expireWindow_core (b : Bucket) (r : Route) (windowEnd : Nat) (y : Sys) :
    core (expireWindow b r windowEnd y).2 = core y := by
  unfold expireWindow; dsimp only; split
  · rw [putBucket_core, foldl_core fun z q => askTwin_core _ r q z]
  · rfl

@[simp] theorem checkWindow_core (b : Bucket) (r : Route) (pick : Nat) (y : Sys) : core (checkWindow b r pick y).2 = core y := by
  unfold checkWindow; split
  · rfl
  · split <;> simp

@[simp] theorem takePacket_follows (port pick : Nat) (b : Bucket) (r : Route) (hd : BucketHdr) (payload : List Byte) {y : Sys}
    (h : Follows ref (core y)) : Follows ref (core (takePacket port pick b r hd payload y)) := by
  unfold takePacket; dsimp only; (repeat' split) <;> simp [h]

@[simp] theorem arrive_follows (port pick : Nat) (hd : BucketHdr) (payload : List Byte) {y : Sys}
    (h : Follows ref (core y)) : Follows ref (core (arrive port pick hd payload y)) := by
  unfold arrive
  split
  · split <;> simp [h]
  · next b _ =>
    have hq : Follows ref (core (if hdrFlag hd 3 = true then (openWindow b pick, putBucket (openWindow b pick) y)
        else checkWindow (openWindow b pick) (routeAt y b.route) pick (putBucket (openWindow b pick) y)).2) := by
      split <;> simp [h]
    dsimp only
    generalize (if hdrFlag hd 3 = true then (openWindow b pick, putBucket (openWindow b pick) y)
      else checkWindow (openWindow b pick) (routeAt y b.route) pick (putBucket (openWindow b pick) y)) = q at hq ⊢
    (repeat' split) <;> simp [h, hq]

@[simp] theorem unstall_follows {y : Sys} (h : Follows ref (core y)) : Follows ref (core (unstall y)) := by
  unfold unstall; exact foldl_follows (fun z p hz => arrive_follows _ _ _ _ hz) _ h

theorem convertBucket_written_follows (b b' : Bucket) {y : Sys} (h : Follows ref (core y)) :
    Follows ref (core (putBucket b' (modCmd b.cmd (fun c => { c with census := bucketCensus y b (bucketElems y b) })
      (writeBytes (some b.cmd) b.stage ((bucketElems y b).flatMap (fun e => leBytes 8 (lowBits e.1 64))) y)))) :=
  modCmd_follows _ (keepsOrder_of_same fun _ => ⟨rfl, rfl, rfl⟩) (writeBytes_follows _ _ _ h)

/-- A conversion that fails. -/
theorem convertBucket_inl_follows {b : Bucket} {y z : Sys} (h : Follows ref (core y)) (hz : convertBucket b y = .inl z) :
    Follows ref (core z) := by
  unfold convertBucket at hz
  dsimp only at hz
  split at hz
  · next hc => cases hz; simp [consume_core hc, h]
  · split at hz
    · cases hz; exact failBucket_follows _ _ (convertBucket_written_follows b _ h)
    · cases hz

/-- A conversion that succeeds. -/
theorem convertBucket_inr_follows {b : Bucket} {y : Sys} {q : Bucket × Sys} (h : Follows ref (core y))
    (hq : convertBucket b y = .inr q) : Follows ref (core q.2) := by
  unfold convertBucket at hq
  dsimp only at hq
  split at hq
  · cases hq
  · split at hq
    · cases hq
    · cases hq; exact convertBucket_written_follows b _ h

@[simp] theorem startSending_follows (b : Bucket) {y : Sys} (h : Follows ref (core y)) : Follows ref (core (startSending b y)) := by
  unfold startSending; simp [h]

@[simp] theorem answerCopy_core (h : BucketHdr) (flags : BitVec 8) (elems : Option (List Byte)) (y : Sys) :
    core (answerCopy h flags elems y) = core y := by
  unfold answerCopy; simp

@[simp] theorem serveRequest_core (h : BucketHdr) (y : Sys) : core (serveRequest h y) = core y := by
  unfold serveRequest
  dsimp only
  split
  · split <;> simp
  · split
    · simp
    · split
      · split <;> simp
      · split
        · rfl
        · split
          · next hc => simp [consume_core hc]
          · simp

@[simp] theorem serveRequests_core (y : Sys) : core (serveRequests y) = core y := by
  unfold serveRequests
  split
  · exact foldl_core (fun z h => serveRequest_core h z) _ _
  · rfl

@[simp] theorem bucketsMoved_follows {y : Sys} (h : Follows ref (core y)) : Follows ref (core (bucketsMoved y)) := by
  unfold bucketsMoved; simp [h]

/-! ### Routes and bucket commands -/

@[simp] theorem routeLoad_follows (c : Cmd) {y : Sys} (h : Follows ref (core y)) : Follows ref (core (routeLoad c y)) := by
  unfold routeLoad
  dsimp only
  split
  · next hc => simp [consume_core hc, h]
  · exact finish_follows _ _ _ h

@[simp] theorem useTag_core (shadow : Bool) (tag : Nat) (y : Sys) : core (useTag shadow tag y) = core y := by
  unfold useTag; split <;> simp

@[simp] theorem startBucket_core (c : Cmd) (b : Bucket) (y : Sys) : core (startBucket c b y) = core y := by
  unfold startBucket; simp

@[simp] theorem startGather_follows (c : Cmd) (b : Bucket) {y : Sys} (h : Follows ref (core y)) :
    Follows ref (core (startGather c b y)) := by
  unfold startGather
  dsimp only
  split
  · simp [h]
  · split
    · simp [h]
    · split
      · next hc => simp [consume_core hc, h]
      · simp [h]

@[simp] theorem writeRecords_follows (c : Cmd) (l : List BucketRec) (dst max : Nat) {y : Sys} (h : Follows ref (core y)) :
    Follows ref (core (writeRecords c l dst max y)) := by
  unfold writeRecords; dsimp only; split <;> simp [h]

/-! ### Accumulation commands -/

@[simp] theorem spoilTile_core (n t u : Nat) (y : Sys) : core (spoilTile n t u y) = core y := by
  unfold spoilTile; dsimp only; split
  · rw [setTile_core, freeNarrows_core]
  · rw [setTile_core, freeElems_core]

@[simp] theorem addMatmul_follows (c : Cmd) (n t u : Nat) (o : MatOp) {y : Sys} (h : Follows ref (core y)) :
    Follows ref (core (addMatmul c n t u o y)) := by
  unfold addMatmul
  dsimp only
  split <;> exact finish_follows _ _ _ h

@[simp] theorem startEnding_core (c : Cmd) (n t u : Nat) (y : Sys) : core (startEnding c n t u y) = core y := rfl

@[simp] theorem importTile_follows (c : Cmd) (n t : Nat) (ws : List (Option Wide)) {y : Sys} (h : Follows ref (core y)) :
    Follows ref (core (importTile c n t ws y)) := by
  unfold importTile
  dsimp only
  (repeat' split) <;> exact finish_follows _ _ _ h

@[simp] theorem reopenTile_core (n t u : Nat) (y : Sys) : core (reopenTile n t u y) = core y := rfl

@[simp] theorem endWrite_follows (c : Cmd) (ws : List (Nat × List Byte)) (st : Status) (res : List Word64)
    (census : List CensusDelta) (watch : List WatchDelta) {y : Sys} (h : Follows ref (core y)) :
    Follows ref (core (endWrite c ws st res census watch y)) := by
  unfold endWrite
  split
  · simp [h]
  · exact finish_follows _ _ _ (modCmd_follows _ (keepsOrder_of_same fun _ => ⟨rfl, rfl, rfl⟩) (writeAll_follows _ _ h))

@[simp] theorem endReadout_follows (c : Cmd) (n m cols kSum replays inexact : Nat) (base : Int) (top : Option Int)
    (vs : List Dec) {y : Sys} (h : Follows ref (core y)) :
    Follows ref (core (endReadout c n m cols kSum replays inexact base top vs y)) := by
  unfold endReadout; simp [h]

@[simp] theorem endExport_follows (c : Cmd) (x : ExactTile) {y : Sys} (h : Follows ref (core y)) :
    Follows ref (core (endExport c x y)) := by
  unfold endExport; simp [h]

@[simp] theorem endExact_follows (c : Cmd) (n t : Nat) {y : Sys} (h : Follows ref (core y)) :
    Follows ref (core (endExact c n t y)) := by
  have hs : Follows ref (core (settle 40 y (tileAt y n t).exact).1) := by rwa [settle_core]
  unfold endExact
  dsimp only
  split
  · next hp => rw [hp] at hs; exact finish_follows _ _ _ hs
  · next hp =>
    rw [hp] at hs
    split
    · exact endExport_follows c _ hs
    · exact endReadout_follows c _ _ _ _ _ _ _ _ _ hs

@[simp] theorem endGuarded_follows (c : Cmd) (n t u : Nat) {y : Sys} (h : Follows ref (core y)) :
    Follows ref (core (endGuarded c n t u y)) := endReadout_follows c _ _ _ _ _ _ _ _ _ h

@[simp] theorem closeEnded_core (c : Cmd) (y : Sys) : core (closeEnded c y) = core y := by
  unfold closeEnded; dsimp only; (repeat' split) <;> simp

@[simp] theorem releaseBehind_follows (id : Nat) (st : Status) {y : Sys} (h : Follows ref (core y)) :
    Follows ref (core (releaseBehind id st y)) := by
  unfold releaseBehind
  refine foldl_follows (fun z d hz => ?_) _ h
  split <;> simp [hz]

/-! ### DRAM, run-ahead and the yarn engines -/

@[simp] theorem readCode_core (g wrong : Nat) (y : Sys) : core (readCode g wrong y).2 = core y := by
  unfold readCode
  dsimp only
  split <;> try rfl
  split <;> rfl

@[simp] theorem poisonGranule_core (g : Nat) (y : Sys) : core (poisonGranule g y) = core y := rfl

@[simp] theorem serveRead_core (g source wrong : Nat) (y : Sys) : core (serveRead g source wrong y) = core y := by
  unfold serveRead
  dsimp only
  split
  · simp
  · split <;> simp

@[simp] theorem serveWrite_core (a t : Nat) (mask : BitVec 64) (data : BitVec 512) (y : Sys) :
    core (serveWrite a t mask data y) = core y := by
  have hmem : ∀ m, core { y with mem := m } = core y := fun _ => rfl
  unfold serveWrite
  dsimp only
  split
  · simp
  · exact hmem _

@[simp] theorem fetchAhead_core (n : Nat) (y : Sys) (p : Nat × Nat) : core (fetchAhead n y p) = core y := by
  unfold fetchAhead
  dsimp only
  rw [setYarn_core]
  split
  · rfl
  · split <;> simp

@[simp] theorem mixBytes_core : ∀ (l : List (Byte × Byte × Bool)) (y : Sys), core (mixBytes l y).2 = core y
  | [], _ => rfl
  | (_, _, _) :: l, y => mixBytes_core l (freshWord y).2

@[simp] theorem mixUnits_follows (id : Nat) (l : LoadOp) : ∀ (k i : Nat) {y : Sys}, Follows ref (core y) →
    Follows ref (core (mixUnits id l k i y))
  | 0, _, _, h => h
  | k + 1, i, y, h => by
    refine mixUnits_follows id l k (i + 1) ?_
    dsimp only
    split
    · refine foldl_follows (fun z w hz => ?_) _ h
      simp [hz]
    · exact h

@[simp] theorem useCopies_core (n : Nat) (gs : List Nat) (y : Sys) : core (useCopies n gs y) = core y := by
  unfold useCopies; dsimp only; split <;> simp

@[simp] theorem consumeUnit_follows (n id : Nat) (l : LoadOp) {y : Sys} (h : Follows ref (core y)) :
    Follows ref (core (consumeUnit n id l y)) := by
  have hwrite := fun ws => writeAll_follows id ws ((useCopies_core n (unitGranules y l (yarnAt y n).pos) y).symm ▸ h)
  unfold consumeUnit
  dsimp only
  split
  · next hc => simp [consume_core hc, h]
  · split
    · exact hwrite _
    · rw [endYarn_core]; exact finish_follows _ _ _ (hwrite _)

@[simp] theorem upsetStore_core (n : Nat) (upset : List (Nat × Nat)) (y : Sys) :
    core (upsetStore n upset y) = core y := rfl

/-! ### Vector programs -/

@[simp] theorem putElem_follows (id w : Nat) (a : Nat × Nat) (code : Nat) {y : Sys} (h : Follows ref (core y)) :
    Follows ref (core (putElem id w a code y)) := writeBytes_follows (some id) _ _ h

@[simp] theorem loadTy_core (t : Nat) (y : Sys) : core (loadTy t y).2 = core y := by
  unfold loadTy; split <;> rfl

@[simp] theorem endRun_follows (n id : Nat) (st : Status) (res : List Word64) {y : Sys} (h : Follows ref (core y)) : Follows ref (core (endRun n id st res y)) := by
  unfold endRun; simp [h]

@[simp] theorem vecFaulted_follows (k : VCtx) (code : Nat) {y : Sys} (h : Follows ref (core y)) : Follows ref (core (vecFaulted k code y)) := by
  unfold vecFaulted; simp [h]

@[simp] theorem setThread_core (n h : Nat) (th : VThread) (y : Sys) : core (setThread n h th y) = core y := rfl

@[simp] theorem vecGo_follows (k : VCtx) (th : VThread) (pc : Int) {y : Sys} (h : Follows ref (core y)) :
    Follows ref (core (vecGo k th pc y)) := by
  unfold vecGo
  dsimp only
  split
  · exact endRun_follows _ _ _ _ h
  · exact h

@[simp] theorem stopThread_core (k : VCtx) (y : Sys) : core (stopThread k y) = core y := rfl

@[simp] theorem vecEnd_follows (k : VCtx) (x : VRes) (h : Follows ref (core (resultState x))) : Follows ref (core (vecEnd k x)) := by
  cases x with
  | go th z => exact vecGo_follows k th _ h
  | jump i z => exact vecGo_follows k k.th i h
  | fault code z => exact vecFaulted_follows k code h

theorem vecRow_follows {n h op : Nat} {f : VCtx → Sys → VRes} {y : Sys}
    (hf : ∀ k z, Follows ref (core z) → Follows ref (core (resultState (f k z)))) (hy : Follows ref (core y)) :
    Follows ref (core (vecRow n h op f y)) := by
  unfold vecRow
  split
  · exact hy
  · next k _ =>
    dsimp only
    (repeat' split) <;> try simp [hy]
    exact vecEnd_follows k _ (hf k _ hy)

@[simp] theorem loadLanes_core (k : VCtx) (addr : Nat → Nat → Nat × Nat) (y : Sys) :
    core (resultState (loadLanes k addr y)) = core y := by
  unfold loadLanes
  split
  · rfl
  · dsimp only
    split
    · rfl
    · split
      · next hc => exact consumeAll_core hc
      · rw [resultState, loadTy_core]

@[simp] theorem storeLanes_follows (k : VCtx) (addr : Nat → Nat → Nat × Nat) {y : Sys} (h : Follows ref (core y)) :
    Follows ref (core (resultState (storeLanes k addr y))) := by
  unfold storeLanes
  (repeat' split) <;> try exact h
  exact foldl_follows (fun z l hz => putElem_follows _ _ _ _ hz) _ h

@[simp] theorem laneOp_core (k : VCtx) (f : VTy → Word32 → Word32 → Word32) (y : Sys) :
    core (resultState (laneOp k f y)) = core y := by
  unfold laneOp; split <;> rfl

@[simp] theorem floatOp_core (k : VCtx) (f : Nat → Word32) (y : Sys) : core (resultState (floatOp k f y)) = core y := by
  unfold floatOp; split <;> rfl

@[simp] theorem redExtreme_core (big : Bool) (k : VCtx) (y : Sys) : core (resultState (redExtreme big k y)) = core y := by
  unfold redExtreme
  split
  · rfl
  · split
    · rfl
    · dsimp only
      split <;> rfl

@[simp] theorem setWide_core (k : VCtx) (ws : List Wide) (y : Sys) : core (resultState (setWide k ws y)) = core y := rfl

/-! ### Images and measurements -/

@[simp] theorem onImages_core (t : Nat) (f : TypeImages → TypeImages) (y : Sys) : core (onImages t f y) = core y := by
  unfold onImages; (repeat' split) <;> simp

@[simp] theorem extendMeas_core (h reg : Nat) (ev : List Byte) (y : Sys) : core (extendMeas h reg ev y) = core y := rfl

@[simp] theorem measureImage_core (h reg t k : Nat) (y : Sys) : core (measureImage h reg t k y) = core y := rfl

@[simp] theorem fuseChanged_core (p : Perm) (y : Sys) : core (fuseChanged p y) = core y := by
  unfold fuseChanged; simp

@[simp] theorem activatedRecord_core (t inst version : Nat) (fell : Bool) (y : Sys) :
    core (activatedRecord t inst version fell y) = core y := by
  unfold activatedRecord; simp

@[simp] theorem settleType_core (t : Nat) (y : Sys) : core (settleType t y) = core y := by
  unfold settleType; (repeat' split) <;> simp

@[simp] theorem recordActivation_core (t u version : Nat) (y : Sys) : core (recordActivation t u version y) = core y := by
  unfold recordActivation; (repeat' split) <;> simp

@[simp] theorem activateUnit_core (t u : Nat) (afterBoot : Bool) (x : Perm × Sys) :
    core (activateUnit t u afterBoot x).2 = core x.2 := by
  unfold activateUnit; dsimp only
  split
  · rfl
  · split <;> simp

@[simp] theorem partMram_core (y : Sys) : core (partMram y) = core y := rfl

@[simp] theorem payOwed_core (y : Sys) : core (payOwed y) = core y :=
  foldl_core (fun z u => activatedRecord_core 1 u _ false z) _ y

/-! ### Steps, commit and abort -/

@[simp] theorem logAppend_core (e : StepLog) (y : Sys) : core (logAppend e y) = core y := by
  have hnv : ∀ n, core { y with nv := n } = core y := fun _ => rfl
  exact hnv _

@[simp] theorem endLog_core (n outcome : Nat) (y : Sys) : core (endLog n outcome y) = core y := rfl

@[simp] theorem onPrepLog_core (n : Nat) (f : StepLog → StepLog) (y : Sys) : core (onPrepLog n f y) = core y := rfl

@[simp] theorem endPrepare_follows (msg : Option PrepareMsg) {y : Sys} (h : Follows ref (core y)) :
    Follows ref (core (endPrepare msg y)) := by
  unfold endPrepare
  split
  · exact h
  · dsimp only
    refine finish_follows _ _ _ ?_
    cases msg <;> simp [h]

@[simp] theorem prepareLinkLost_follows {y : Sys} (h : Follows ref (core y)) : Follows ref (core (prepareLinkLost y)) := by
  unfold prepareLinkLost
  split
  · exact h
  · exact follows_ite (endPrepare_follows none h) h

@[simp] theorem dropFlipped_core (y : Sys) : core (dropFlipped y) = core y := by
  unfold dropFlipped; simp

/-- What a flip makes of an entry (R280). -/
def flipped (p : Nat × Entry) : Nat × Entry :=
  if p.2.state = .active then (p.1, { p.2 with sel := !p.2.sel, backWritten := false, digest := 0 }) else p

theorem flipped_key (p : Nat × Entry) : (flipped p).1 = p.1 := by
  unfold flipped; split <;> rfl

theorem flipped_ranges (p : Nat × Entry) : SameRanges (flipped p).2 p.2 := by
  unfold flipped; split <;> exact ⟨rfl, rfl, rfl, rfl⟩

theorem flipped_idle {p : Nat × Entry} (h : p.2.state ≠ .active) : flipped p = p := if_neg h

theorem mapGet_flipped (m : SMap Entry) (k : Nat) : mapGet {} (m.map flipped) k = (flipped (k, mapGet {} m k)).2 :=
  mapGet_map flipped_key rfl

theorem flipAll_entries (y : Sys) : (flipAll y).smap.entries = y.smap.entries.map flipped := by
  rw [← show (dropFlipped y).smap.entries = y.smap.entries from congrArg Core.map (dropFlipped_core y)]
  rfl


/-- A flip toggles SEL of ACTIVE entries alone (R280). -/
theorem flipAll_sound (y : Sys) : Sound (core y) (core (flipAll y)) := by
  refine ⟨fun h => (congrArg₂ InOrder (congrArg Core.cmds (dropFlipped_core y)) (congrArg Core.next (dropFlipped_core y))).mpr h, ?_⟩
  show LegalMap y.smap.entries → LegalMap (flipAll y).smap.entries
  rw [flipAll_entries]
  rintro ⟨hrising, hlegal⟩
  refine ⟨mapRising_map flipped_key hrising, legalEntries_congr (fun k => ?_) (fun k hk => ?_) hlegal⟩
  · rw [mapGet_flipped]; exact flipped_ranges _
  · have hidle : (k, mapGet {} y.smap.entries k).2.state ≠ .active := fun ha => EntryState.noConfusion (hk.symm.trans ha)
    rw [mapGet_flipped, flipped_idle hidle]

@[simp] theorem endBuckets_core (y : Sys) : core (endBuckets y) = core y := rfl

@[simp] theorem endShadow_core (y : Sys) : core (endShadow y) = core y := rfl

/-! ### Link events -/

@[simp] theorem sendIdentity_core (w : Nat) (y : Sys) : core (sendIdentity w y) = core y := rfl

@[simp] theorem sendIdentities_core (ws : List Nat) (y : Sys) : core (sendIdentities ws y) = core y :=
  foldl_core (fun z w => sendIdentity_core w z) _ y

@[simp] theorem setAgreed_core (y : Sys) : core (setAgreed y) = core y := by
  unfold setAgreed; split <;> simp

@[simp] theorem takeIdentity_core (w dev : Nat) (valid : Bool) (port : Nat) (twin : Option (Nat × Nat)) (y : Sys) :
    core (takeIdentity w dev valid port twin y) = core y := rfl

@[simp] theorem endLinkReset_follows {y : Sys} (h : Follows ref (core y)) : Follows ref (core (endLinkReset y)) := by
  unfold endLinkReset
  split
  · exact h
  · exact finish_follows _ _ _ h

@[simp] theorem linkResetUp_follows {y : Sys} (h : Follows ref (core y)) : Follows ref (core (linkResetUp y)) := by
  unfold linkResetUp; (repeat' split) <;> simp [h]

@[simp] theorem dropRemote_follows (port : Nat) {y : Sys} (h : Follows ref (core y)) : Follows ref (core (dropRemote port y)) := by
  unfold dropRemote
  exact foldl_follows (fun z r hz => finish_follows _ _ _ hz) _ h

@[simp] theorem dropStreams_follows (port : Nat) {y : Sys} (h : Follows ref (core y)) : Follows ref (core (dropStreams port y)) := by
  unfold dropStreams
  exact foldl_follows (fun z c hz => finish_follows _ _ _ hz) _ h

@[simp] theorem twinLinkLost_follows {y : Sys} (h : Follows ref (core y)) : Follows ref (core (twinLinkLost y)) := by
  have hp := prepareLinkLost_follows h
  unfold twinLinkLost
  dsimp only
  split
  · exact hp
  · exact follows_ite (finish_follows _ _ _ hp) hp

@[simp] theorem faultPort_follows (port : Nat) {y : Sys} (h : Follows ref (core y)) : Follows ref (core (faultPort port y)) := by
  unfold faultPort
  rw [serveRequests_core]
  exact twinLinkLost_follows (dropStreams_follows port (dropRemote_follows port (by rw [recordEvent_core, notice_core]; exact h)))

@[simp] theorem downPort_follows (port : Nat) {y : Sys} (h : Follows ref (core y)) : Follows ref (core (downPort port y)) := by
  unfold downPort
  rw [serveRequests_core]
  exact twinLinkLost_follows (dropStreams_follows port (dropRemote_follows port h))

@[simp] theorem outDone_follows (port : Nat) {y : Sys} (h : Follows ref (core y)) : Follows ref (core (outDone port y)) := by
  unfold outDone
  split
  · exact h
  · exact follows_ite h (finish_follows _ _ _ h)

@[simp] theorem takeReport_follows (r : RemoteCopy) (refused : Bool) {y : Sys} (h : Follows ref (core y)) :
    Follows ref (core (takeReport r refused y)) := by
  unfold takeReport
  exact follows_ite (finish_follows _ _ _ h) h

/-! ### The step and twin commands -/

@[simp] theorem openTheStep_core (n : Nat) (origin : Bool) (y : Sys) : core (openTheStep n origin y) = core y := by
  unfold openTheStep; split <;> simp

@[simp] theorem coverStep_follows {y : Sys} (h : Follows ref (core y)) : Follows ref (core (coverStep y)) := by
  have hmark : KeepsOrder (fun c => if mayBind c.op && c.pkt.step.toNat == openStep y then { c with covered := true } else c) :=
    keepsOrder_ite (keepsOrder_of_same fun _ => ⟨rfl, rfl, rfl⟩)
  exact cmds_follows hmark h rfl rfl rfl

@[simp] theorem digestPrepare_follows (p : Prep) {y : Sys} (h : Follows ref (core y)) : Follows ref (core (digestPrepare p y)) := by
  unfold digestPrepare; dsimp only; (repeat' split) <;> simp [h]

theorem commitNow_sound (id : Nat) (y : Sys) : Sound (core y) (core (commitNow id y)) := by
  refine sound_follows (flipAll_sound y) ?_
  exact finish_follows _ _ _ (bucketsMoved_follows (follows_refl (core (flipAll y))))

theorem undoNow_sound (id : Nat) (y : Sys) : Sound (core y) (core (undoNow id y)) := by
  refine sound_follows (flipAll_sound y) (finish_follows _ _ _ ?_)
  exact map_follows (y := flipAll y) (mapFollows_map (fun _ => rfl) fun _ => rfl) (follows_refl _) rfl

theorem commitWhenAlone_sound (y : Sys) : Sound (core y) (core (commitWhenAlone y)) := by
  unfold commitWhenAlone
  split
  · exact (follows_refl _).sound
  · next id _ =>
    split
    · exact (follows_refl _).sound
    · split
      · split
        · exact commitNow_sound id y
        · exact undoNow_sound id y
      · exact (follows_refl _).sound

@[simp] theorem abortCmds_follows (n : Nat) {y : Sys} (h : Follows ref (core y)) : Follows ref (core (abortCmds n y)) := by
  refine cmds_follows (g := fun c => if abortHits n y c then
    { c with phase := .done .stepAborted [], exempt := true, wrote := [], partialPoison := false, record := abortRecord y c } else c)
    (keepsOrder_ite (keepsOrder_of_moved fun c => ⟨rfl, nofun⟩)) h rfl rfl rfl

@[simp] theorem abortTiles_follows (step : Nat) (ids : List Nat) {y : Sys} (h : Follows ref (core y)) :
    Follows ref (core (abortTiles step ids y)) := by
  unfold abortTiles
  exact foldl_follows (fun z id hz => finish_follows _ _ _ hz) _ h

@[simp] theorem abortEngines_core (ids : List Nat) (y : Sys) : core (abortEngines ids y) = core y := by
  have hy := foldl_core (f := fun z (p : Nat × YarnSt) => setYarn p.1 { yarnAt z p.1 with cmd := none, pos := 0 } z) fun _ _ => rfl
  have hv := foldl_core (f := fun z (p : Nat × VecRun) => setEng p.1 {} (setRun p.1 {} z)) fun _ _ => rfl
  have hu := foldl_core (f := fun z (p : Nat × MicroRun) => setMicro p.1 {} z) fun _ _ => rfl
  have h := fun a b c => (hu a _).trans ((hv b _).trans (hy c y))
  unfold abortEngines
  exact h _ _ _

@[simp] theorem abortBacks_follows {y : Sys} (h : Follows ref (core y)) : Follows ref (core (abortBacks y)) :=
  map_follows (mapFollows_map (fun p => by dsimp only; split <;> rfl) fun p => by dsimp only; split <;> rfl) h rfl

@[simp] theorem tellAbort_core (n : Nat) (y : Sys) : core (tellAbort n y) = core y := by
  unfold tellAbort; split <;> simp

@[simp] theorem abortNow_follows (n : Nat) {y : Sys} (h : Follows ref (core y)) :
    Follows ref (core (abortNow n y)) := by
  unfold abortNow
  dsimp only
  rw [trimAll_core, onStep_core, tellAbort_core, endLog_core]
  refine abortBacks_follows ?_
  rw [endShadow_core]
  refine bucketsMoved_follows ?_
  rw [endBuckets_core, abortEngines_core]
  exact abortTiles_follows _ _ (abortCmds_follows n h)

@[simp] theorem sendWeave_core (m : WarpMsg) (y : Sys) : core (sendWeave m y) = core y := by
  unfold sendWeave; simp

@[simp] theorem sendFace_core (e : Nat) (x : Entry) : ∀ (fuel o : Nat) (y : Sys), core (sendFace e x fuel o y) = core y
  | 0, _, _ => rfl
  | fuel + 1, o, y => by
    unfold sendFace
    split
    · rfl
    · dsimp only; rw [sendFace_core e x fuel, sendWeave_core]

@[simp] theorem sendEntry_core (y : Sys) (p : Nat × Entry) : core (sendEntry y p) = core y := by
  unfold sendEntry; simp

@[simp] theorem weaveOut_follows (c : Cmd) {y : Sys} (h : Follows ref (core y)) : Follows ref (core (weaveOut c y)) := by
  unfold weaveOut
  dsimp only
  split
  · simp [h]
  · split
    · next hc => exact finish_follows _ _ _ (by rw [sendWeave_core, sendWeave_core, consumeAll_core hc]; exact h)
    · rw [foldl_core sendEntry_core, sendWeave_core]; exact h

@[simp] theorem setWeave_core (w : Weave) (y : Sys) : core (setWeave w y) = core y := rfl

@[simp] theorem endWeave_follows (w : Weave) (st : Status) {y : Sys} (h : Follows ref (core y)) :
    Follows ref (core (endWeave w st y)) := finish_follows _ _ _ h

/-- An entry that the receiver loaded becomes ACTIVE (R411). -/
theorem activate_follows {y : Sys} {k : Nat} (hload : (entryAt y k).state = .loading) (h : Follows ref (core y)) :
    Follows ref (core (setEntry k { entryAt y k with state := .active } y)) := by
  have hfree : (mapGet {} y.smap.entries k).state ≠ .free := fun hf => nomatch hload.symm.trans hf
  refine setEntry_follows (mapFollows_put (fun ha => nomatch hload.symm.trans ha) (fun hm _ => ?_) (fun hm _ j hj hne => ?_)) h
  · obtain ⟨hlt, hfa, hba, hla, hpos, hfd, hbd, hfs, hbs, hst, hov, -⟩ := hm.2.1 k hfree
    exact ⟨hlt, hfa, hba, hla, hpos, hfd, hbd, hfs, hbs, hst, hov, nofun⟩
  · exact hm.2.2 k j hfree hne hj.symm

@[simp] theorem tryWeave_follows (w : Weave) {y : Sys} (h : Follows ref (core y)) : Follows ref (core (tryWeave w y)) := by
  unfold tryWeave
  split
  · dsimp only
    refine endWeave_follows w _ ?_
    rw [sendWeave_core, onStep_core]
    refine foldl_follows (fun z k hz => ?_) _ h
    split
    · next hload => exact activate_follows hload hz
    · exact hz
  · exact h

@[simp] theorem failWeave_follows (w : Weave) {y : Sys} (h : Follows ref (core y)) : Follows ref (core (failWeave w y)) :=
  endWeave_follows w _ (by rwa [sendWeave_core])

@[simp] theorem checkEntry_follows (w : Weave) (e : Nat) {y : Sys} (h : Follows ref (core y)) : Follows ref (core (checkEntry w e y)) := by
  unfold checkEntry; dsimp only; (repeat' split) <;> simp [h]

@[simp] theorem weaveEntry_follows (w : Weave) (m : WarpMsg) {y : Sys} (h : Follows ref (core y)) :
    Follows ref (core (weaveEntry w m y)) := by
  unfold weaveEntry
  split
  · dsimp only; split <;> simp [h]
  · split <;> simp [h]
  · exact h

@[simp] theorem weaveEarly_follows : ∀ (l : List WarpMsg) {y : Sys}, Follows ref (core y) →
    Follows ref (core (weaveEarly l y))
  | [], _, h => h
  | m :: l, y, h => by
    unfold weaveEarly
    split
    · exact h
    · exact weaveEarly_follows l (weaveEntry_follows _ m h)

/-- A FREE entry is loaded with ranges that R274 allows. -/
theorem load_follows {y : Sys} {k face back len kind : Nat} (hk : k < 256) (hfree : (entryAt y k).state = .free)
    (hranges : badEntryRanges y face back len = false) (h : Follows ref (core y)) :
    Follows ref (core (setEntry k { state := .loading, face := face, back := back, length := len, kind := kind } y)) := by
  obtain ⟨hlegal, hapart⟩ := badEntryRanges_false hranges k hk kind
  exact setEntry_follows (mapFollows_put (fun ha => nomatch hfree.symm.trans ha) (fun _ _ => hlegal) fun _ _ j _ hj => hapart j hj) h

theorem loadAnnounced_follows : ∀ {l : List WeaveEntry} {y z : Sys}, loadAnnounced l y = some z → Follows ref (core y) →
    Follows ref (core z)
  | [], _, _, hz, h => by cases hz; exact h
  | e :: l, y, z, hz, h => by
    unfold loadAnnounced at hz
    split at hz
    · cases hz
    · next hok =>
      simp only [not_or, Nat.not_lt, ne_eq, Decidable.not_not, Bool.not_eq_true] at hok
      obtain ⟨hk, hfree, hranges⟩ := hok
      exact loadAnnounced_follows hz (load_follows (Nat.lt_succ_of_le hk) hfree hranges h)

@[simp] theorem weaveIn_follows (w : Weave) (m : WarpMsg) {y : Sys} (h : Follows ref (core y)) :
    Follows ref (core (weaveIn w m y)) := by
  unfold weaveIn
  split
  · split
    · exact h
    · split
      · exact h
      · next hl => exact weaveEarly_follows _ (tryWeave_follows _ (loadAnnounced_follows hl h))
  · simp [h]
  · split <;> simp [h]

/-! ### Counters -/

@[simp] theorem noteWork_core (c : Cmd) (y : Sys) : core (noteWork c y) = core y := rfl

@[simp] theorem passCycles_core (src : Nat × Nat) (y : Sys) : core (passCycles src y) = core y := by
  unfold passCycles; simp

@[simp] theorem sampleNow_core (sels : List Word64) (y : Sys) : core (sampleNow sels y).2 = core y :=
  foldl_core (fun z s => passCycles_core s z) _ y

@[simp] theorem sampleDue_core (q p tb k : Nat) (y : Sys) : core (sampleDue q p tb k y) = core y := by
  unfold sampleDue; dsimp only; split
  · rfl
  · rw [setCtrSet_core, sampleNow_core]

@[simp] theorem padding_core : ∀ (n : Nat) (y : Sys), core (padding n y).2 = core y
  | 0, _ => rfl
  | n + 1, y => padding_core n (freshWord y).2

@[simp] theorem sampleBytes_core (set seq : Nat) (manual : Bool) (pick skipped tb size : Nat) (vals : List Nat) (y : Sys) :
    core (sampleBytes set seq manual pick skipped tb size vals y).2 = core y := padding_core _ y

/-! ### The general commands -/

@[simp] theorem settleFences_follows {y : Sys} (h : Follows ref (core y)) : Follows ref (core (settleFences y)) := by
  unfold settleFences
  exact foldl_follows (fun z c hz => finish_follows _ _ _ hz) _ h

@[simp] theorem uncover_follows (id : Nat) {y : Sys} (h : Follows ref (core y)) : Follows ref (core (uncover id y)) := by
  have hdrop : KeepsOrder (fun c => { c with cover := c.cover.filter (fun i => i != id) }) :=
    keepsOrder_of_same fun _ => ⟨rfl, rfl, rfl⟩
  exact settleFences_follows (cmds_follows hdrop h rfl rfl rfl)

@[simp] theorem uncoverLanes_follows (lanes : Nat → Bool) {y : Sys} (h : Follows ref (core y)) :
    Follows ref (core (uncoverLanes lanes y)) := by
  have hdrop : KeepsOrder (fun c => { c with coverLanes := c.coverLanes.filter (fun p => !lanes p.1) }) :=
    keepsOrder_of_same fun _ => ⟨rfl, rfl, rfl⟩
  exact settleFences_follows (cmds_follows hdrop h rfl rfl rfl)

@[simp] theorem coverRead_follows (k id : Nat) {y : Sys} (h : Follows ref (core y)) : Follows ref (core (coverRead k id y)) :=
  cmds_follows (keepsOrder_of_same fun c => by dsimp only; split <;> exact ⟨rfl, rfl, rfl⟩) h rfl rfl rfl

/-! ### Frames received and sessions -/

@[simp] theorem imageStatus_core (result : Nat) (y : Sys) : core (imageStatus result y) = core y := by
  unfold imageStatus; dsimp only; split <;> simp

@[simp] theorem endTransfer_core (result : Nat) (y : Sys) : core (endTransfer result y) = core y := by
  unfold endTransfer; split <;> simp

@[simp] theorem countDrop_core (k : DropKind) (y : Sys) : core (countDrop k y) = core y := by
  unfold countDrop; split <;> simp

@[simp] theorem takeFrame_core (f : RxFrame) (y : Sys) : core (takeFrame f y) = core y := by
  unfold takeFrame; simp

theorem onFrame_follows {types : List Nat} {f : RxFrame} {effect : Sys → Sys} {y : Sys}
    (he : ∀ z, Follows ref (core z) → Follows ref (core (effect z))) (h : Follows ref (core y)) :
    Follows ref (core (onFrame types f effect y)) := by
  unfold onFrame
  split
  · split
    · simp [h]
    · exact he _ (by simpa using h)
  · exact h

@[simp] theorem flushHeld_core (svc : Bool) (y : Sys) : core (flushHeld svc y) = core y := by
  unfold flushHeld; simp

@[simp] theorem discardUnread_follows (svc : Bool) {y : Sys} (h : Follows ref (core y)) : Follows ref (core (discardUnread svc y).2) := by
  have hqueues : ∀ (l : List (Nat × Lane)) (g : Nat × Lane → Lane), core (l.foldl (fun z p => setLane p.1 (g p) z) y) = core y :=
    fun l g => foldl_core (fun z (p : Nat × Lane) => setLane_core z p.1 (g p)) l y
  have hcr : ∀ (z : Sys) cr, core { z with cr := cr } = core z := fun _ _ => rfl
  unfold discardUnread
  dsimp only
  refine uncoverLanes_follows _ ?_
  rw [hcr, hqueues]
  exact h

@[simp] theorem emptyCreels_follows (svc : Bool) {y : Sys} (h : Follows ref (core y)) : Follows ref (core (emptyCreels svc y)) := by
  unfold emptyCreels
  refine foldl_follows (fun z p hz => ?_) _ (discardUnread_follows svc h)
  rw [← setLane_core z p.1 { p.2 with overrun := false }] at hz
  exact hz

@[simp] theorem writeLane_core (creel lane : Nat) (ws : List (BitVec 512 × Bool)) (y : Sys) :
    core (writeLane creel lane ws y) = core y := by
  unfold writeLane; dsimp only; (repeat' split) <;> simp

@[simp] theorem sendAccept_core (svc : Bool) (p : Port) (y : Sys) : core (sendAccept svc p y) = core y := by
  unfold sendAccept; simp

@[simp] theorem sendReject_core (f : RxFrame) (reason : Nat) (y : Sys) : core (sendReject f reason y) = core y := by
  unfold sendReject; simp

@[simp] theorem openSession_follows (svc : Bool) (id : Word64) (p : Port) {y : Sys} (h : Follows ref (core y)) : Follows ref (core (openSession svc id p y)) := by
  unfold openSession; simp [h]

@[simp] theorem forceOut_follows (svc : Bool) (id : Word64) (p : Port) {y : Sys} (h : Follows ref (core y)) : Follows ref (core (forceOut svc id p y)) := by
  unfold forceOut; dsimp only; split <;> simp [h]

@[simp] theorem openDeferred_core (f : RxFrame) (ss : Session) (pid : Word64) (y : Sys) :
    core (openDeferred f ss pid y) = core y := by
  unfold openDeferred; dsimp only; (repeat' split) <;> simp

@[simp] theorem openFrame_follows (f : RxFrame) {y : Sys} (h : Follows ref (core y)) : Follows ref (core (openFrame f y)) := by
  unfold openFrame; dsimp only; (repeat' split) <;> simp [h]

theorem onSessionFrame_follows {typ : Nat} {f : RxFrame} {effect : Sys → Sys} {y : Sys}
    (he : ∀ z, Follows ref (core z) → Follows ref (core (effect z))) (h : Follows ref (core y)) :
    Follows ref (core (onSessionFrame typ f effect y)) := by
  have ht : Follows ref (core (if (sessOf y (onService f)).state = .open ∧ (sessOf y (onService f)).id = sessionId f
      then takeFrame f y else y)) := follows_ite ((takeFrame_core f y).symm ▸ h) h
  unfold onSessionFrame
  split
  · split
    · simp [h]
    · dsimp only
      split
      · rw [sendReject_core]; exact ht
      · exact he _ ht
  · exact h

@[simp] theorem disarm_core (svc : Bool) (y : Sys) : core (disarm svc y) = core y := by
  unfold disarm; split <;> simp

@[simp] theorem sessionEnded_core (svc : Bool) (reason : Nat) (y : Sys) : core (sessionEnded svc reason y) = core y := by
  unfold sessionEnded; simp

@[simp] theorem runDeferred_follows (svc : Bool) (l : List (Word64 × Port)) {y : Sys} (h : Follows ref (core y)) : Follows ref (core (runDeferred svc l y)) := by
  unfold runDeferred; dsimp only; split <;> simp [h]

@[simp] theorem tryClose_core (svc : Bool) (y : Sys) : core (tryClose svc y) = core y := by
  unfold tryClose; dsimp only; (repeat' split) <;> simp

/-! ### Reading, completion and replies -/

@[simp] theorem readHead_follows (creel lane : Nat) {y : Sys} (h : Follows ref (core y)) : Follows ref (core (readHead creel lane y)) := by
  have hread := fun id op creel lane words sealed pk {z : Sys} (hz : Follows ref (core z)) =>
    newCmd_follows op creel lane words sealed pk (coverRead_follows (laneKey creel lane) id hz)
  unfold readHead
  dsimp only
  split
  · rw [trimAll_core]
    exact finish_follows _ _ _ (hread _ _ _ _ _ _ _ h)
  · exact hread _ _ _ _ _ _ _ h

@[simp] theorem traceCompletion_core (c : Cmd) (st : Status) (s : Stamp) (y : Sys) : core (traceCompletion c st s y) = core y := by
  unfold traceCompletion; split <;> simp

@[simp] theorem censusIn_core (c : Cmd) (d : CensusDelta) (y : Sys) : core (censusIn c d y) = core y := by
  unfold censusIn; dsimp only; split <;> simp

@[simp] theorem watchIn_core (step : Nat) (d : WatchDelta) (y : Sys) : core (watchIn step d y) = core y := by
  unfold watchIn; refine foldl_core (fun z k => ?_) _ y; dsimp only; split <;> rfl

@[simp] theorem keepRecord_core (c : Cmd) (st : Status) (y : Sys) : core (keepRecord c st y) = core y := by
  unfold keepRecord; dsimp only; (repeat' split) <;> simp

@[simp] theorem stepEffects_core (c : Cmd) (st : Status) (y : Sys) : core (stepEffects c st y) = core y := by
  unfold stepEffects; (repeat' split) <;> simp

@[simp] theorem contribute_core (c : Cmd) (st : Status) (y : Sys) : core (contribute c st y) = core y := by
  unfold contribute; rw [keepRecord_core]; split <;> simp

@[simp] theorem fatalEffects_core (st : Status) (y : Sys) : core (fatalEffects st y) = core y := by
  unfold fatalEffects; (repeat' split) <;> simp

@[simp] theorem dropCmd_follows (c : Cmd) (s : Stamp) {y : Sys} (h : Follows ref (core y)) : Follows ref (core (dropCmd c s y)) :=
  follows_trans h ⟨inOrder_filter _, mapFollows_refl _⟩

@[simp] theorem complete_follows (c : Cmd) (st : Status) (res : List Word64) {y : Sys} (h : Follows ref (core y)) :
    Follows ref (core (complete c st res y)) := by
  unfold complete
  dsimp only
  rw [tryClose_core, tryClose_core]
  refine uncover_follows c.id ?_
  rw [fatalEffects_core, stepEffects_core, contribute_core, traceCompletion_core, holdReply_core]
  refine releaseBehind_follows c.id st ?_
  rw [closeEnded_core]
  exact dropCmd_follows c _ h

/-! ### Registers -/

@[simp] theorem clearRead_core (b r i : Nat) (y : Sys) : core (clearRead b r i y) = core y := by
  unfold clearRead; split <;> simp

@[simp] theorem cancelRunahead_core (d : Nat) (y : Sys) : core (cancelRunahead d y) = core y :=
  foldl_core (fun z n => dropCopies_core n _ false z) _ y

@[simp] theorem writeReg_core (p : Perm) (b r i : Nat) (data mask : Word64) (y : Sys) :
    core (writeReg p b r i data mask y) = core y := by
  have hrun : ∀ (z : Sys) (q : Prop) [Decidable q], core z = core y → core (if q then z else cancelRunahead i z) = core y := by
    intro z q _ hz
    split
    · exact hz
    · rw [cancelRunahead_core, hz]
  have hself : ∀ (z : Sys) (q : Prop) [Decidable q], core z = core y → core (if q then y else setAgreed (sendIdentities (List.range 64) z)) = core y := by
    intro z q _ hz
    split
    · rfl
    · rw [setAgreed_core, sendIdentities_core, hz]
  unfold writeReg
  dsimp only
  generalize mergeBits (regValue p y b r i) data mask = v
  generalize data &&& mask = ones
  split
  case h_7 => exact hrun _ _ rfl
  case h_10 => exact hself _ _ rfl
  all_goals rfl

/-! ### Shutdown -/

@[simp] theorem stopSession_follows (svc : Bool) {y : Sys} (h : Follows ref (core y)) : Follows ref (core (stopSession svc y)) := by
  unfold stopSession; simp [h]

theorem inOrder_nil (n : Nat) : InOrder [] n :=
  ⟨List.Pairwise.nil, fun _ hc => absurd hc List.not_mem_nil, fun _ hc => absurd hc List.not_mem_nil⟩

theorem legalMap_nil : LegalMap [] := ⟨rfl, fun _ hk => absurd rfl hk, fun _ _ hj => absurd rfl hj⟩

theorem stopCommands_core (y : Sys) : core (stopCommands y) = { core y with cmds := [] } := by
  have h := abortEngines_core (y.cm.cmds.map (fun c => c.id)) y
  unfold stopCommands
  dsimp only
  generalize abortEngines (y.cm.cmds.map (fun c => c.id)) y = z at h ⊢
  rw [core_mk, ← h]
  rfl

@[simp] theorem stopCommands_follows {y : Sys} (h : Follows ref (core y)) : Follows ref (core (stopCommands y)) := by
  rw [stopCommands_core]
  exact follows_trans h ⟨fun _ => inOrder_nil _, mapFollows_refl _⟩

@[simp] theorem endOpen_core (svc : Bool) (y : Sys) : core (endOpen svc y) = core y := by
  unfold endOpen; split <;> simp

@[simp] theorem markClean_core (h : Nat) (y : Sys) : core (markClean h y) = core y := rfl

@[simp] theorem finishShutdown_core (y : Sys) : core (finishShutdown y) = core y := by
  unfold finishShutdown; split <;> simp

@[simp] theorem continueShutdown_core (y : Sys) : core (continueShutdown y) = core y := by
  unfold continueShutdown; split <;> simp

@[simp] theorem shutDown_follows (source : BitVec 2) {y : Sys} (h : Follows ref (core y)) : Follows ref (core (shutDown source y)) := by
  have hp : ∀ p, Follows ref (core { y with pwr := p }) := fun _ => h
  unfold shutDown
  refine follows_ite h (follows_ite (follows_ite (hp _) h) ?_)
  exact stopCommands_follows (stopSession_follows true (stopSession_follows false (hp _)))

@[simp] theorem requestShutdown_follows (c : Cmd) {y : Sys} (h : Follows ref (core y)) : Follows ref (core (requestShutdown c y)) := by
  unfold requestShutdown
  refine shutDown_follows 1 ?_
  rw [flushHeld_core]
  exact complete_follows c _ _ h

/-! ### The integrity commands -/

@[simp] theorem writeOut_follows (c : Cmd) (a : Nat) (bs : List Byte) (res : List Word64) {y : Sys}
    (h : Follows ref (core y)) : Follows ref (core (writeOut c a bs res y)) := by
  unfold writeOut; split <;> simp [h]

@[simp] theorem sendData_core (x : Ckpt) : ∀ (fuel o : Nat) (y : Sys), core (sendData x fuel o y) = core y
  | 0, _, _ => rfl
  | fuel + 1, o, y => by
    unfold sendData
    split
    · rfl
    · dsimp only; rw [sendData_core x fuel, sendWarp_core]

@[simp] theorem addCkpt_core (x : Ckpt) (y : Sys) : core (addCkpt x y) = core y := rfl

@[simp] theorem dropCkpt_core (id : Nat) (y : Sys) : core (dropCkpt id y) = core y := rfl

@[simp] theorem streamOut_follows (x : Ckpt) {y : Sys} (h : Follows ref (core y)) : Follows ref (core (streamOut x y)) := by
  unfold streamOut
  dsimp only
  split
  · next hc => exact finish_follows _ _ _ (by rwa [consume_core hc])
  · simp [h]

@[simp] theorem streamIn_core (x : Ckpt) (y : Sys) : core (streamIn x y) = core y := by
  unfold streamIn; dsimp only; rw [sendWarp_core, addCkpt_core, freshWord_core]

@[simp] theorem cancelStream_follows (c : Cmd) (port : Nat) {y : Sys} (h : Follows ref (core y)) : Follows ref (core (cancelStream c port y)) := by
  unfold cancelStream
  split
  · exact h
  · refine finish_follows _ _ _ ?_
    rw [dropCkpt_core]
    exact modCmd_follows _ (keepsOrder_of_same fun _ => ⟨rfl, rfl, rfl⟩) h

@[simp] theorem dropPacket_core (port : Nat) (y : Sys) : core (dropPacket port y) = core y := rfl

theorem onCkpt_follows {cflags port : Nat} {m : WarpMsg} {effect : Ckpt → List Byte → Sys → Sys} {y : Sys}
    (he : ∀ x b z, Follows ref (core z) → Follows ref (core (effect x b z))) (h : Follows ref (core y)) :
    Follows ref (core (onCkpt cflags port m effect y)) := by
  unfold onCkpt; (repeat' split) <;> simp [h, he]

@[simp] theorem takeData_follows (x : Ckpt) (b : List Byte) {y : Sys} (h : Follows ref (core y)) :
    Follows ref (core (takeData x b y)) := by
  unfold takeData; dsimp only; (repeat' split) <;> simp [h]

@[simp] theorem endTest_core (d : Nat) (y : Sys) : core (endTest d y) = core y := by
  unfold endTest; dsimp only; split <;> simp

@[simp] theorem reportFail_core (n : Option Nat) (pos part : Nat) (y : Sys) : core (reportFail n pos part y) = core y := by
  unfold reportFail; dsimp only; (repeat' split) <;> simp

@[simp] theorem moveSlot_core (n failed : Nat) (spare : Option Nat) (y : Sys) : core (moveSlot n failed spare y) = core y := by
  unfold moveSlot; simp

@[simp] theorem startMend_core (p : Perm) (n pos : Nat) (y : Sys) : core (startMend p n pos y) = core y := by
  unfold startMend; split <;> simp

@[simp] theorem failCmd_follows {y : Sys} (h : Follows ref (core y)) (c : Cmd) : Follows ref (core (failCmd y c)) := by
  unfold failCmd; split <;> simp [h]

/-! ### Firmware and security -/

@[simp] theorem sendReport_core (tag : Nat) (rep cert : List Byte) (y : Sys) : core (sendReport tag rep cert y) = core y := by
  unfold sendReport; split <;> simp

@[simp] theorem idleFuse_core (y : Sys) : core (idleFuse y) = core y := rfl

@[simp] theorem armFuse_follows (c : Cmd) {y : Sys} (h : Follows ref (core y)) : Follows ref (core (armFuse c y)) :=
  finish_follows _ _ _ h

@[simp] theorem blowFuse_follows (c : Cmd) (p : Perm) {y : Sys} (h : Follows ref (core y)) : Follows ref (core (blowFuse c p y).2) := by
  unfold blowFuse
  dsimp only
  refine finish_follows _ _ _ ?_
  split <;> simp [h]

@[simp] theorem clearMeas_core (h : Nat) (y : Sys) : core (clearMeas h y) = core y := rfl

@[simp] theorem beginReset_core (c : Cmd) (standby : Bool) (die : Nat) (y : Sys) : core (beginReset c standby die y) = core y := by
  unfold beginReset; split <;> simp

@[simp] theorem dropReset_core (r : UnitReset) (y : Sys) : core (dropReset r y) = core y := rfl

@[simp] theorem fallbackRecords_core (y : Sys) (r : UnitReset) : core (fallbackRecords y r) = core y := by
  unfold fallbackRecords; dsimp only; (repeat' split) <;> simp

@[simp] theorem recordCount_core (t : Nat) (y : Sys) : core (recordCount t y).2 = core y := by
  unfold recordCount; (repeat' split) <;> rfl

@[simp] theorem migrateOne_core (t : Nat) (y : Sys) : core (migrateOne t y) = core y := by
  have hnv : ∀ (z : Sys) n, core { z with nv := n } = core z := fun _ _ => rfl
  unfold migrateOne
  dsimp only
  rw [recordEvent_core, hnv, recordCount_core]

@[simp] theorem migrate_core (y : Sys) : core (migrate y) = core y := foldl_core (fun z t => migrateOne_core t z) _ y

@[simp] theorem freeDigest_core (y : Sys) : core (freeDigest y).2 = core y := rfl

@[simp] theorem measureBoot_core (p : Perm) (h : Nat) (migrated : Bool) (y : Sys) :
    core (measureBoot p h migrated y) = core y := by
  unfold measureBoot
  dsimp only
  rw [foldl_core fun z t => measureImage_core h t t _ z, extendMeas_core]
  split <;> simp

@[simp] theorem fellBackAt_core (h t : Nat) (y : Sys) : core (fellBackAt h t y) = core y := rfl

theorem bootRom_core {bad : List Nat} {h : Nat} {y z : Sys} (hb : bootRom bad h y = some z) : core z = core y := by
  unfold bootRom at hb
  dsimp only at hb
  repeat' split at hb
  all_goals cases hb
  all_goals simp

theorem standbyBoots_core {bad : List Nat} {x q : Perm × Sys} (hb : standbyBoots bad x = some q) : core q.2 = core x.2 := by
  unfold standbyBoots at hb
  dsimp only at hb
  split at hb
  · split at hb
    · cases hb; rfl
    · cases hb
  · obtain ⟨z, hz, rfl⟩ := Option.map_eq_some_iff.mp hb
    have hm := bootRom_core hz
    split
    · rw [activateUnit_core]; exact hm
    · rw [settleType_core]; exact hm

@[simp] theorem standbyUp_core (x : Perm × Sys) : core (standbyUp x).2 = core x.2 := by
  unfold standbyUp; simp

@[simp] theorem takeoverNotice_core (y : Sys) : core (takeoverNotice y) = core y := by
  unfold takeoverNotice; simp

@[simp] theorem handOver_follows (id : Nat) {y : Sys} (h : Follows ref (core y)) : Follows ref (core (handOver id y)) := by
  unfold handOver
  dsimp only
  refine finish_follows _ _ _ ?_
  rw [migrate_core, payOwed_core, takeoverNotice_core]
  show Follows ref (core (endTransfer _ _))
  rw [endTransfer_core]
  exact h

@[simp] theorem tryHandOver_follows {y : Sys} (h : Follows ref (core y)) : Follows ref (core (tryHandOver y)) := by
  unfold tryHandOver
  split
  · exact h
  · exact follows_ite (finish_follows _ _ _ h) (follows_ite h (handOver_follows _ h))

@[simp] theorem faultHeadstock_core (h : Nat) (y : Sys) : core (faultHeadstock h y) = core y := by
  unfold faultHeadstock; dsimp only; (repeat' split) <;> simp

@[simp] theorem undoCommand_follows (c : Cmd) {y : Sys} (h : Follows ref (core y)) : Follows ref (core (undoCommand c y)) := by
  unfold undoCommand
  refine finish_follows _ _ _ ?_
  rw [dropCkpt_core]
  show Follows ref (core (ite _ _ _))
  (repeat' split) <;> simpa using h

@[simp] theorem settleDevice_follows {y : Sys} (h : Follows ref (core y)) : Follows ref (core (settleDevice y)) := by
  unfold settleDevice
  refine foldl_follows (fun z c hz => ?_) _ h
  exact follows_ite (undoCommand_follows c hz) hz

@[simp] theorem loseAdvances_core (y : Sys) : core (loseAdvances y) = core y := rfl

@[simp] theorem resendAll_core (svc : Bool) (y : Sys) : core (resendAll svc y) = core y := by
  unfold resendAll; dsimp only; split <;> simp

/-! ### Picks -/

@[simp] theorem applyAdvance_core (a : Advance) (rest : List Advance) (y : Sys) : core (applyAdvance a rest y) = core y := by
  have hs (l : List Nat) (z : Sys) (q : Nat) : core (l.foldl (fun z k => sampleDue q a.target a.apply k z) z) = core z := by simp
  unfold applyAdvance
  dsimp only
  rw [traceRec_core]
  generalize (if y.trd.state = .open ∧ y.hs.silent = false then _ else _) = echoes
  split
  · rw [expireLocks_core, hs]; rfl
  · rw [hs]; rfl

@[simp] theorem nextAdvance_core (y : Sys) : core (nextAdvance y) = core y := by
  unfold nextAdvance; (repeat' split) <;> simp

@[simp] theorem dueAdvances_core (y : Sys) : core (dueAdvances y) = core y := foldl_core (fun z _ => nextAdvance_core z) _ y

/-! ### Observation -/

@[simp] theorem startSet_core (k : Nat) (x : CtrSet) (y : Sys) : core (startSet k x y) = core y := rfl

@[simp] theorem takeRead_core (r : CtrRead) (y : Sys) : core (takeRead r y).2 = core y := by
  unfold takeRead; split <;> simp

@[simp] theorem writeRead_follows (r : CtrRead) {y : Sys} (h : Follows ref (core y)) :
    Follows ref (core (writeRead r y)) := by
  unfold writeRead; (repeat' split) <;> simp [h]

@[simp] theorem serveReads_follows {y : Sys} (h : Follows ref (core y)) : Follows ref (core (serveReads y)) := by
  unfold serveReads; exact foldl_follows (fun z r hz => writeRead_follows _ (by simpa using hz)) _ h

@[simp] theorem writeRecord_follows (a : Nat) (rec : List Byte) {y : Sys} (h : Follows ref (core y)) :
    Follows ref (core (writeRecord a rec y)) := writeBytes_follows none _ _ h

@[simp] theorem drainOne_follows (u : Nat) {y : Sys} (h : Follows ref (core y)) :
    Follows ref (core (drainOne u y)) := by
  unfold drainOne; dsimp only; (repeat' split) <;> simp [h]

@[simp] theorem drainMany_follows :
    ∀ (n u : Nat) {y : Sys}, Follows ref (core y) → Follows ref (core (drainMany n u y))
  | 0, _, _, h => h
  | n + 1, u, _, h => drainMany_follows n u (drainOne_follows u h)

@[simp] theorem drainAll_follows {y : Sys} (h : Follows ref (core y)) : Follows ref (core (drainAll y)) := by
  unfold drainAll; exact foldl_follows (fun z u hz => drainMany_follows _ u hz) _ h

@[simp] theorem tryStop_follows {y : Sys} (h : Follows ref (core y)) : Follows ref (core (tryStop y)) := by
  unfold tryStop
  split
  · exact h
  · exact follows_ite (finish_follows _ _ _ h) h

@[simp] theorem armSlot_core (k : Nat) (w : WatchSlot) (y : Sys) : core (armSlot k w y) = core y := rfl

/-! ### Heat and power -/

@[simp] theorem thermNotice_core (die arg : Nat) (y : Sys) : core (thermNotice die arg y) = core y := by
  unfold thermNotice; split <;> simp

@[simp] theorem causeTemp_core (r : ThermReading) (cause : Nat) (y : Sys) : core (causeTemp r cause y).2 = core y := by
  unfold causeTemp; (repeat' split) <;> rfl

@[simp] theorem stretchNotices_core (d : Nat) (r : ThermReading) (old new : Nat) (y : Sys) :
    core (stretchNotices d r old new y) = core y := by
  unfold stretchNotices
  split
  · simp
  · split
    · dsimp only; rw [thermNotice_core, freshWord_core]
    · rfl

@[simp] theorem tripCmd_follows {y : Sys} (h : Follows ref (core y)) (c : Cmd) : Follows ref (core (tripCmd y c)) := by
  unfold tripCmd; split <;> simp [h]

@[simp] theorem stopClocks_follows (die : Nat) (ids : List Nat) {y : Sys} (h : Follows ref (core y)) :
    Follows ref (core (stopClocks die ids y)) := by
  unfold stopClocks
  split
  · simp [h]
  · split
    · exact foldl_follows (fun _ w hz => downPort_follows w hz) _ h
    · exact h

@[simp] theorem tripDie_follows (die cause temp stretch : Nat) {y : Sys} (h : Follows ref (core y)) :
    Follows ref (core (tripDie die cause temp stretch y)) := by
  unfold tripDie
  dsimp only
  rw [thermNotice_core]
  exact stopClocks_follows _ _ (foldl_follows (fun _ c hz => tripCmd_follows hz c) _ h)

@[simp] theorem sampleLoom_core_follows (d : Nat) (r : ThermReading) {y : Sys} (h : Follows ref (core y)) :
    Follows ref (core (sampleLoom d r y)) := by
  unfold sampleLoom
  dsimp only
  split
  · exact tripDie_follows _ _ _ _ h
  · rw [stretchNotices_core]; exact h

@[simp] theorem sampleOther_follows (d : Nat) (r : ThermReading) {y : Sys} (h : Follows ref (core y)) : Follows ref (core (sampleOther d r y)) := by
  unfold sampleOther
  split
  · exact h
  · dsimp only
    refine follows_ite ?_ (tripDie_follows _ _ _ _ h)
    rw [faultHeadstock_core]
    exact tripDie_follows _ _ _ _ h

@[simp] theorem smbAnswer_core (bytes : Sys → List Byte) (y : Sys) : core (smbAnswer bytes y) = core y := by
  unfold smbAnswer; split <;> rfl

@[simp] theorem readFile_core (a : Nat) (y : Sys) : core (readFile a y).2 = core y := by
  unfold readFile; dsimp only; split <;> rfl

/-! ### The clock -/

@[simp] theorem tickSys_follows {y : Sys} (h : Follows ref (core y)) : Follows ref (core (tickSys y)) := by
  unfold tickSys; split <;> simp [h]

/-! ### Reset and boot -/

theorem afterReset_core (vaux : Bool) (y : Sys) : core (afterReset vaux y) = ⟨[], 0, []⟩ := by
  unfold afterReset
  rw [core_mk]

/-- A reset leaves no command and a map of FREE entries. -/
theorem afterReset_sound (a : Core) (vaux : Bool) (y : Sys) : Sound a (core (afterReset vaux y)) := by
  rw [afterReset_core]
  exact ⟨fun _ => inOrder_nil 0, fun _ => legalMap_nil⟩

@[simp] theorem stageZero_core (r : HeadTest) (h : Nat) (y : Sys) : core (stageZero r h y).2 = core y := by
  unfold stageZero
  split
  · next hb =>
    split at hb
    · exact bootRom_core hb
    · cases hb
  · rfl

@[simp] theorem failAtBoot_core (pos : Nat) (x : Perm × Sys) : core (failAtBoot pos x).2 = core x.2 := by
  unfold failAtBoot; dsimp only; split
  · rfl
  · rw [reportFail_core, freshWord_core]

@[simp] theorem mendAtBoot_core (p : Perm) (y : Sys) (n : Nat) : core (mendAtBoot p y n) = core y := by
  unfold mendAtBoot; (repeat' split) <;> simp

@[simp] theorem bootRecords_core (y : Sys) : core (bootRecords y) = core y := by
  unfold bootRecords
  dsimp only
  rw [recordEvent_core, foldl_core]
  intro z h
  split <;> simp

@[simp] theorem endBoot_core (y : Sys) : core (endBoot y) = core y := rfl

@[simp] theorem bootCounts_core (y : Sys) : core (bootCounts y) = core y := by
  have hp : ∀ (z : Sys) p, core { z with pwr := p } = core z := fun _ _ => rfl
  unfold bootCounts
  dsimp only
  rw [onOwn_core, onBoot_core, hp]
  (repeat' split) <;> simp

@[simp] theorem activateHeads_core (x : Perm × Sys) : core (activateHeads x).2 = core x.2 := by
  have hran : ∀ l : List Nat, core (l.foldl (fun (x : Perm × Sys) (h : Nat) =>
      (raiseFloor 1 (svnOf 1 (unitImage x.2 1 h)) x.1, recordActivation 1 h (versionOf 1 (unitImage x.2 1 h)) x.2)) x).2 = core x.2 :=
    fun l => foldl_keeps (fun x : Perm × Sys => core x.2) _ (fun x h => recordActivation_core 1 h _ x.2) l x
  unfold activateHeads
  dsimp only
  split
  · exact hran _
  · rw [settleType_core]; exact hran _

@[simp] theorem fellBack_core (t : Nat) (y : Sys) : core (fellBack t y) = core y := by
  unfold fellBack; simp

@[simp] theorem bothFail_core (y : Sys) : core (bothFail y) = core y := by
  unfold bothFail; simp

@[simp] theorem activateAll_core (t : Nat) (x : Perm × Sys) : core (activateAll t x).2 = core x.2 :=
  foldl_keeps (fun x : Perm × Sys => core x.2) _ (fun x u => activateUnit_core t u false x) _ x

@[simp] theorem bootType_core (bad : List Nat) (x : Perm × Sys) (t : Nat) : core (bootType bad x t).2 = core x.2 := by
  unfold bootType; dsimp only; (repeat' split) <;> simp

/-- Boot stage 1 zeroes memory (R656), and leaves the commands and the map. -/
@[simp] theorem stageOne_core (failing bad : List Nat) (x : Perm × Sys) : core (stageOne failing bad x).2 = core x.2 := by
  have hmem : ∀ (z : Sys) m, core { z with mem := m } = core z := fun _ _ => rfl
  unfold stageOne
  dsimp only
  rw [endBoot_core, bootRecords_core, foldl_core fun z p => mendAtBoot_core _ z p,
    foldl_keeps (fun x : Perm × Sys => core x.2) _ fun x pos => failAtBoot_core pos x]
  dsimp only
  rw [hmem, measureBoot_core, foldl_keeps (fun x : Perm × Sys => core x.2) _ fun x t => bootType_core bad x t, activateHeads_core,
    migrate_core, bootCounts_core]

/-! ### Bucket events -/

theorem onBucket_follows {tag : Nat} {test : Bucket → Bool} {f : Bucket → Route → Sys → Sys} {y : Sys}
    (hf : ∀ b r z, Follows ref (core z) → Follows ref (core (f b r z))) (h : Follows ref (core y)) :
    Follows ref (core (onBucket tag test f y)) := by
  unfold onBucket; dsimp only; (repeat' split) <;> simp [h, hf]

@[simp] theorem shadowDone_follows (b : Bucket) (r : Route) {y : Sys} (h : Follows ref (core y)) : Follows ref (core (shadowDone b r y)) := by
  unfold shadowDone
  refine finish_follows _ _ _ ?_
  rw [putBucket_core]
  exact modCmd_follows _ (keepsOrder_of_same fun _ => ⟨rfl, rfl, rfl⟩) ((bucketTrace_core _ _ _ _ y).symm ▸ h)

@[simp] theorem bucketMsg_follows (port : Nat) (m : WarpMsg) (kind : Route → BucketHdr → Bool) {y : Sys}
    (h : Follows ref (core y)) : Follows ref (core (bucketMsg port m kind y)) := by
  unfold bucketMsg; dsimp only; (repeat' split) <;> simp [h]

@[simp] theorem takeHeld_follows : ∀ (l : List HeldPartial) {y : Sys}, Follows ref (core y) →
    Follows ref (core (takeHeld l y))
  | [], _, h => h
  | p :: l, _, h => takeHeld_follows l (arrive_follows p.port p.pick p.hdr p.payload h)

@[simp] theorem useCopy_follows (b : Bucket) (r : Route) (hd : BucketHdr) (payload : List Byte) {y : Sys}
    (h : Follows ref (core y)) : Follows ref (core (useCopy b r hd payload y)) := by
  have hwrite : ∀ (b' : Bucket) ev shard port a z, core z = core y → Follows ref (core (writeBytes (some b.cmd) a payload (bucketTrace b' ev shard port z))) :=
    fun b' ev shard port a z hz => writeBytes_follows _ _ _ (by rwa [bucketTrace_core, hz])
  unfold useCopy
  dsimp only
  split
  · refine tryGather_follows _ r (follows_ite ?_ (sendOn_follows _ r 0 _ _ _ _ payload ?_)) <;>
      exact hwrite _ _ _ _ _ _ rfl
  · split
    · exact stopSpoiled_follows _ (hwrite _ _ _ _ _ _ rfl)
    · exact sendOn_follows _ r _ _ _ _ _ payload (hwrite _ _ _ _ _ _ rfl)

/-! ### Registers and locks -/

@[simp] theorem writeEffect_follows (p : Perm) (c : Cmd) {y : Sys} (h : Follows ref (core y)) : Follows ref (core (writeEffect p c y)) := by
  unfold writeEffect
  dsimp only
  split
  · exact h
  · split
    · simp [h]
    · refine finish_follows _ _ _ ?_
      rwa [foldl_core fun z i => writeReg_core p _ _ i _ _ z]

theorem afterExpiries_follows {op : Nat} {pk : Packet} {f : Sys → Sys} {y : Sys}
    (hf : ∀ z, Follows ref (core z) → Follows ref (core (f z))) (h : Follows ref (core y)) :
    Follows ref (core (afterExpiries op pk f y)) := by
  unfold afterExpiries; split
  · exact hf _ (by simpa using h)
  · exact h

@[simp] theorem writeCommand_follows (p : Perm) (pk : Packet) {y : Sys} (h : Follows ref (core y)) :
    Follows ref (core (writeCommand p pk y)) := by
  have hw : ∀ z : Sys, Follows ref (core z) → Follows ref (core (execCommand 0x0701
      [bits (regBits ++ [(63, 1), (62, 1), (56, 6)]), allBits, allBits] (fun _ => false) always (writeCheck p) (writeEffect p) pk z)) :=
    fun z hz => execCommand_follows (fun c z hz => writeEffect_follows p c hz) hz
  unfold writeCommand
  dsimp only
  split
  · exact afterExpiries_follows hw h
  · exact hw y h

@[simp] theorem writeOf_follows (b r : Nat) (pk : Packet) (p : Perm) {y : Sys} (h : Follows ref (core y)) :
    Follows ref (core (writeOf b r pk p y)) := by
  unfold writeOf; split <;> simp [h]

/-! ### Image transfer -/

@[simp] theorem refuseHeader_core (h : List Byte) (r : Nat) (y : Sys) : core (refuseHeader h r y) = core y := by
  unfold refuseHeader; simp

@[simp] theorem beginTransfer_core (h : List Byte) (y : Sys) : core (beginTransfer h y) = core y := by
  unfold beginTransfer; simp

@[simp] theorem stageImage_core (y : Sys) : core (stageImage y) = core y := by
  unfold stageImage; simp

end Sys2Proof.Laws
end

section
/-! COMMANDS IN ORDER AND THE STATE MAP, STEPS. What a step makes of the commands and of the map: every command and event but six keeps
the order of the commands, the legal map and the banks of its ACTIVE entries. -/

namespace Sys2Proof.Laws

open Sys2Proof Sys2Proof.Machine Sys2Proof.Safety

/-! ### Outcomes -/

/-- The next state of an outcome, where there is one, follows s. -/
def GoesOn (s : State) (o : Host.Outcome State Fault Refusal) : Prop := ∀ t, o = .next t → Follows (core s.sys) (core t.sys)

section
variable {s : State}

theorem goesOn_onSys {f : Perm → Sys → Sys}
    (hf : ∀ p y, Follows (core s.sys) (core y) → Follows (core s.sys) (core (f p y))) : GoesOn s (onSys s f) := by
  intro t ht
  rw [onSys_next] at ht
  subst ht
  exact hf s.perm s.sys (follows_refl _)

theorem goesOn_onAll {f : Perm → Sys → Perm × Sys}
    (hf : ∀ p y, Follows (core s.sys) (core y) → Follows (core s.sys) (core (f p y).2)) : GoesOn s (onAll s f) := by
  intro t ht
  rw [onAll_next] at ht
  subst ht
  exact hf s.perm s.sys (follows_refl _)

theorem goesOn_fault {r : Fault} : GoesOn s (.fault r) := fun _ ht => nomatch ht

theorem goesOn_refused {r : Refusal} : GoesOn s (.refused r) := fun _ ht => nomatch ht

/-- A command packet goes on where its effect does. -/
theorem goesOn_command {op : Nat} {layout : List Nat} {bad : Packet → Bool}
    {ready : Perm → Cmd → Sys → Bool} {check : Perm → Cmd → Sys → Option (Status × List Word64)}
    {effect : Perm → Cmd → Sys → Sys} {pk : Packet}
    (he : ∀ p c y, Follows (core s.sys) (core y) → Follows (core s.sys) (core (effect p c y))) :
    GoesOn s (onSys s (fun p y => execCommand op layout bad (ready p) (check p) (effect p) pk y)) :=
  goesOn_onSys fun p _ h => execCommand_follows (he p) h

/-- An instruction of a thread goes on where its result's state does. -/
theorem goesOn_vecRow {n h op : Nat} {f : VCtx → Sys → VRes}
    (hf : ∀ k y, Follows (core s.sys) (core y) → Follows (core s.sys) (core (resultState (f k y)))) :
    GoesOn s (onSys s (fun _ y => vecRow n h op f y)) :=
  goesOn_onSys fun _ _ h => vecRow_follows hf h

/-- An instruction of a microprogram goes on where its effect does. -/
theorem goesOn_microRow {die op : Nat} {f : Nat → UpdOp → Word32 → MicroRun → Sys → Sys}
    (hf : ∀ id o w r y, Follows (core s.sys) (core y) → Follows (core s.sys) (core (f id o w r y))) :
    GoesOn s (onSys s (fun _ y => microRow die op f y)) :=
  goesOn_onSys fun _ _ h => microRow_follows hf h

/-- A frame goes on where its effect does. -/
theorem goesOn_frame {types : List Nat} {f : RxFrame} {effect : Perm → Sys → Sys}
    (he : ∀ p y, Follows (core s.sys) (core y) → Follows (core s.sys) (core (effect p y))) :
    GoesOn s (onSys s (fun p y => onFrame types f (effect p) y)) :=
  goesOn_onSys fun p _ h => onFrame_follows (he p) h

/-- An instruction that works on registers alone. -/
theorem goesOn_sameState {n h op : Nat} {f : VCtx → Sys → VRes}
    (hf : ∀ k y, core (resultState (f k y)) = core y) : GoesOn s (onSys s (fun _ y => vecRow n h op f y)) :=
  goesOn_vecRow fun k y hy => by rwa [hf k y]

end

/-- An answer over the sideband. -/
theorem goesOn_smb (bytes : Sys → List Byte) (s : State) : GoesOn s (onSys s (fun _ y => smbAnswer bytes y)) :=
  goesOn_onSys fun _ y h => by rwa [smbAnswer_core]

/-! ### The memory commands -/

theorem execMemCopy_goesOn (pk : Packet) (s : State) : GoesOn s (execMemCopy pk s) := by
  unfold execMemCopy
  refine goesOn_command fun p c y h => ?_
  dsimp only
  split <;> simp [h]

theorem execMemFill_goesOn (pk : Packet) (s : State) : GoesOn s (execMemFill pk s) := by
  unfold execMemFill
  refine goesOn_command fun p c y h => ?_
  split <;> simp [h]

theorem execYarnLoad_goesOn (pk : Packet) (s : State) : GoesOn s (execYarnLoad pk s) := by
  unfold execYarnLoad
  refine goesOn_onSys fun p y h => ?_
  rw [trimCopies_core]
  exact execCommand_follows (fun c z hz => by simpa using hz) h

theorem execYarnStore_goesOn (pk : Packet) (s : State) : GoesOn s (execYarnStore pk s) := by
  unfold execYarnStore
  refine goesOn_command fun p c y h => ?_
  dsimp only
  split
  · simp [h]
  · split
    · next hc => simp [consumeAll_core hc, h]
    · simp [h]

theorem execMemRetrain_goesOn (pk : Packet) (s : State) : GoesOn s (execMemRetrain pk s) := by
  unfold execMemRetrain
  exact goesOn_command fun p c y h => h

/-! ### The update -/

theorem execUpdRun_goesOn (pk : Packet) (s : State) : GoesOn s (execUpdRun pk s) := by
  unfold execUpdRun
  exact goesOn_command fun p c y h => by simp [h]

theorem execUpdMicroLoad_goesOn (pk : Packet) (s : State) : GoesOn s (execUpdMicroLoad pk s) := by
  unfold execUpdMicroLoad
  refine goesOn_command fun p c y h => ?_
  dsimp only
  split
  · next hc => exact finish_follows _ _ _ (by rwa [consume_core hc])
  · exact finish_follows _ _ _ h

theorem execMicroEnd_goesOn (die : Nat) (s : State) : GoesOn s (execMicroEnd die s) := by
  unfold execMicroEnd
  refine goesOn_microRow fun _ _ _ _ y h => ?_
  dsimp only
  refine follows_ite h (follows_ite ?_ (updFinish_follows _ _ _ _ ?_)) <;> exact writeAll_follows _ _ h

/-! ### The other bobbin commands -/

theorem execBobConvert_goesOn (pk : Packet) (s : State) : GoesOn s (execBobConvert pk s) := by
  unfold execBobConvert
  refine goesOn_command fun p c y h => ?_
  dsimp only
  split
  · simp [h]
  · split
    · next hc => simp [consumeAll_core hc, h]
    · exact finish_follows _ _ _ (modCmd_follows _ (keepsOrder_of_same fun _ => ⟨rfl, rfl, rfl⟩) (writeAll_follows _ _ h))

theorem execBobGather_goesOn (pk : Packet) (s : State) : GoesOn s (execBobGather pk s) := by
  unfold execBobGather
  refine goesOn_command fun p c y h => ?_
  have hcopy (l : List (Nat × Nat)) (w : Sys) {z : Sys} (hz : Follows (core s.sys) (core z)) :=
    foldl_follows (f := fun z (p : Nat × Nat) => writeBytes (some c.id) ((rowOf pk).dense + p.1 * (rowOf pk).densePitch)
      (readBytes w ((rowOf pk).table + p.2 * (rowOf pk).tablePitch) (rowOf pk).len) z)
      (fun z p hz => writeBytes_follows _ _ _ hz) l hz
  dsimp only
  split
  · simp [h]
  · split
    · next hc => simp [consume_core hc, h]
    · split
      · next hc => simp [consumeAll_core hc, h]
      · split
        · refine finish_follows _ _ _ ?_; exact hcopy _ _ h
        · refine finish_follows _ _ _ ?_; exact hcopy _ _ (by simpa using h)

theorem execBobScatterAdd_goesOn (pk : Packet) (s : State) : GoesOn s (execBobScatterAdd pk s) := by
  unfold execBobScatterAdd
  refine goesOn_command fun p c y h => ?_
  have hadd (l : List (Nat × Nat)) {z : Sys} (hz : Follows (core s.sys) (core z)) :=
    foldl_follows (f := fun z (p : Nat × Nat) => addRow c.id ((rowOf pk).table + p.2 * (rowOf pk).tablePitch)
      (denseRow y (rowOf pk) p.1) z) (fun z p hz => addRow_follows _ _ _ hz) l hz
  dsimp only
  split
  · simp [h]
  · split
    · next hc => simp [consume_core hc, h]
    · split
      · next hc => simp [consumeAll_core hc, h]
      · split
        · refine finish_follows _ _ _ ?_; exact hadd _ h
        · refine finish_follows _ _ _ ?_; exact hadd _ (by simpa using h)

theorem execStateRead_goesOn (pk : Packet) (s : State) : GoesOn s (execStateRead pk s) := by
  unfold execStateRead
  exact goesOn_command fun p c y h => by simp [h]

theorem execCensusClear_goesOn (pk : Packet) (s : State) : GoesOn s (execCensusClear pk s) := by
  unfold execCensusClear
  exact goesOn_command fun p c y h => finish_follows _ _ _ h

theorem execCensusRead_goesOn (pk : Packet) (s : State) : GoesOn s (execCensusRead pk s) := by
  unfold execCensusRead
  refine goesOn_command fun p c y h => ?_
  dsimp only
  split <;> simp [h]

/-! ### Routes and bucket commands -/

theorem execWarpFwdSet_goesOn (pk : Packet) (s : State) : GoesOn s (execWarpFwdSet pk s) := by
  unfold execWarpFwdSet
  refine goesOn_command fun p c y h => ?_
  dsimp only
  split
  · next hc => exact finish_follows _ _ _ (by rwa [consume_core hc])
  · generalize fwdMap _ = m
    exact finish_follows _ _ _ h

theorem execRouteSet_goesOn (pk : Packet) (s : State) : GoesOn s (execRouteSet pk s) := by
  unfold execRouteSet
  exact goesOn_command fun p c y h => follows_ite (finish_follows _ _ _ h) (routeLoad_follows c h)

theorem execBktReduce_goesOn (pk : Packet) (s : State) : GoesOn s (execBktReduce pk s) := by
  unfold execBktReduce
  refine goesOn_command fun p c y h => ?_
  dsimp only
  (repeat' split) <;> simp [h]

theorem execBktGather_goesOn (pk : Packet) (s : State) : GoesOn s (execBktGather pk s) := by
  unfold execBktGather
  exact goesOn_command fun p c y h => by simp [h]

theorem execBktDigestRead_goesOn (pk : Packet) (s : State) : GoesOn s (execBktDigestRead pk s) := by
  unfold execBktDigestRead
  exact goesOn_command fun p c y h => by simp [h]

/-! ### Accumulation commands -/

theorem execAccBegin_goesOn (pk : Packet) (s : State) : GoesOn s (execAccBegin pk s) := by
  unfold execAccBegin
  refine goesOn_command fun p c y h => ?_
  dsimp only
  split
  · next hc => exact finish_follows _ _ _ (by rw [spoilTile_core, consumeAll_core hc]; exact h)
  · exact finish_follows _ _ _ h

theorem execAccMatmul_goesOn (pk : Packet) (s : State) : GoesOn s (execAccMatmul pk s) := by
  unfold execAccMatmul
  refine goesOn_command fun p c y h => ?_
  split
  · next hc => simp [consumeAll_core hc, h]
  · simp [h]

theorem execAccReadout_goesOn (pk : Packet) (s : State) : GoesOn s (execAccReadout pk s) := by
  unfold execAccReadout
  exact goesOn_command fun p c y h => by simp [h]

theorem execAccExportWide_goesOn (pk : Packet) (s : State) : GoesOn s (execAccExportWide pk s) := by
  unfold execAccExportWide
  exact goesOn_command fun p c y h => by simp [h]

theorem execAccDiscard_goesOn (pk : Packet) (s : State) : GoesOn s (execAccDiscard pk s) := by
  unfold execAccDiscard
  refine goesOn_onSys fun p y h => ?_
  have hrun := execCommand_follows (op := 0x0205) (layout := discardLayout) (bad := fun _ => false)
    (ready := fun c y => c.behind == none && !mending y (tileName pk).1)
    (check := discardCheck (tileName pk).1 (tileName pk).2.1 (tileName pk).2.2) (pk := pk)
    (effect := fun c y => startEnding c (tileName pk).1 (tileName pk).2.1 (tileName pk).2.2 y)
    (fun c z hz => by simpa using hz) h
  split
  · next z c e ha he =>
    exact follows_ite (modCmd_follows _ (keepsOrder_of_same fun _ => ⟨rfl, rfl, rfl⟩) (atUnit_follows ha h)) hrun
  · exact hrun

theorem execAccImportWide_goesOn (pk : Packet) (s : State) : GoesOn s (execAccImportWide pk s) := by
  unfold execAccImportWide
  refine goesOn_command fun p c y h => ?_
  dsimp only
  split
  · next hc => simp [consumeAll_core hc, h]
  · simp [h]

theorem execEndingStart_goesOn (n t : Nat) (r : FileRead) (s : State) : GoesOn s (execEndingStart n t r s) := by
  refine goesOn_onSys fun p y h => ?_
  dsimp only
  split
  · split
    · exact h
    · have hz : ∀ c, Follows (core s.sys) (core (viewed c y)) := fun _ => h
      refine follows_ite h (follows_ite (finish_follows _ _ _ h) (follows_ite (finish_follows _ _ _ h)
        (follows_ite (finish_follows _ _ _ ((storeError_core n y).symm ▸ h)) ?_)))
      rw [unview_core]
      exact follows_ite (endGuarded_follows _ _ _ _ (hz _)) (endExact_follows _ _ _ (hz _))
  · exact h

/-! ### DRAM, run-ahead and the yarn engines -/

theorem execDramRead_goesOn (granule source wrong : Nat) (s : State) : GoesOn s (execDramRead granule source wrong s) := by
  unfold execDramRead
  dsimp only
  split
  · exact goesOn_fault
  · refine goesOn_onSys fun p y h => ?_
    split <;> simp [h]

theorem execDramWrite_goesOn (granule : Nat) (mask : BitVec 64) (data : BitVec 512) (s : State) :
    GoesOn s (execDramWrite granule mask data s) := by
  unfold execDramWrite
  dsimp only
  split
  · exact goesOn_fault
  · refine goesOn_onSys fun p y h => ?_
    split <;> simp [h]

theorem execKill_goesOn (n granule : Nat) (s : State) : GoesOn s (execKill n granule s) := by
  refine goesOn_onSys fun p y h => ?_
  dsimp only
  split
  · rw [dropCopies_core]; exact h
  · exact h

theorem execWriteComplete_goesOn (granule : Nat) (s : State) : GoesOn s (execWriteComplete granule s) := by
  refine goesOn_onSys fun p y h => ?_
  (repeat' split) <;> exact h

theorem execRunaheadRead_goesOn (n : Nat) (wrong : List Nat) (s : State) : GoesOn s (execRunaheadRead n wrong s) := by
  unfold execRunaheadRead
  refine goesOn_onSys fun p y h => ?_
  split
  · exact h
  · exact follows_ite h (by rw [foldl_core (fetchAhead_core n)]; exact h)

theorem execGranuleConsume_goesOn (u : Consumption) (s : State) : GoesOn s (execGranuleConsume u s) := by
  unfold execGranuleConsume
  refine goesOn_onSys fun p y h => ?_
  split
  · exact h
  · split
    · exact h
    · split
      · exact h
      · rw [unview_core, upsetStore_core]; exact consumeUnit_follows _ _ _ h

theorem execSlotFree_goesOn (e h : Nat) (s : State) : GoesOn s (execSlotFree e h s) := by
  unfold execSlotFree
  refine goesOn_onSys fun p y hy => ?_
  dsimp only
  (repeat' split) <;> simp [hy]

theorem execScrubRead_goesOn (stack wrong : Nat) (s : State) : GoesOn s (execScrubRead stack wrong s) := by
  unfold execScrubRead
  refine goesOn_onSys fun p y h => ?_
  dsimp only
  split <;> simp [h]

theorem execArbitrationRound_goesOn (a : Nat) (arrivals : List Arrival) (withdrawn : Bool) (s : State) :
    GoesOn s (execArbitrationRound a arrivals withdrawn s) := by
  unfold execArbitrationRound
  refine goesOn_onSys fun p y h => ?_
  dsimp only
  split <;> simp [h]

theorem execPreemption_goesOn (a : Nat) (r : Arrival) (doneBeats : Nat) (s : State) :
    GoesOn s (execPreemption a r doneBeats s) := by
  unfold execPreemption
  refine goesOn_onSys fun p y h => ?_
  dsimp only
  (repeat' split) <;> simp [h]

/-! ### Vector programs -/

theorem execThreadSwitch_goesOn (e h granule : Nat) (s : State) : GoesOn s (execThreadSwitch e h granule s) := by
  unfold execThreadSwitch
  refine goesOn_onSys fun p y hy => ?_
  dsimp only
  split <;> simp [hy]

theorem execVscatter_goesOn (n h : Nat) (s : State) : GoesOn s (execVscatter n h s) := by
  refine goesOn_vecRow fun k y hy => ?_
  split
  · exact hy
  · split
    · exact hy
    · exact foldl_follows (fun z l hz => putElem_follows _ _ _ _ hz) _ hy

theorem execVscatadd_goesOn (n h : Nat) (s : State) : GoesOn s (execVscatadd n h s) := by
  refine goesOn_vecRow fun k y hy => ?_
  dsimp only
  split
  · exact hy
  · split
    · next hc => rw [resultState, consumeAll_core hc]; exact hy
    · exact foldl_follows (fun z l hz => putElem_follows _ _ _ _ hz) _ hy

theorem execVcmp_goesOn (n h : Nat) (s : State) : GoesOn s (execVcmp n h s) := by
  refine goesOn_vecRow fun k y hy => ?_
  (repeat' split) <;> exact hy

theorem execVsel_goesOn (n h : Nat) (s : State) : GoesOn s (execVsel n h s) := by
  refine goesOn_vecRow fun k y hy => ?_
  (repeat' split) <;> exact hy

theorem execVcvt_goesOn (n h : Nat) (s : State) : GoesOn s (execVcvt n h s) := by
  refine goesOn_vecRow fun k y hy => ?_
  (repeat' split) <;> exact hy

theorem execVredsum_goesOn (n h : Nat) (s : State) : GoesOn s (execVredsum n h s) := by
  refine goesOn_vecRow fun k y hy => ?_
  split <;> exact hy

theorem execVwld_goesOn (n h : Nat) (s : State) : GoesOn s (execVwld n h s) := by
  refine goesOn_vecRow fun k y hy => ?_
  dsimp only
  split
  · exact hy
  · split
    · next hc => rw [resultState, consume_core hc]; exact hy
    · (repeat' split) <;> exact hy

theorem execVwadd_goesOn (n h : Nat) (s : State) : GoesOn s (execVwadd n h s) := by
  refine goesOn_vecRow fun k y hy => ?_
  dsimp only
  split <;> exact hy

theorem execVwst_goesOn (n h : Nat) (s : State) : GoesOn s (execVwst n h s) := by
  refine goesOn_vecRow fun k y hy => ?_
  dsimp only
  split
  · exact hy
  · exact foldl_follows (fun z g hz => writeBytes_follows _ _ _ hz) _ hy

theorem execBnz_goesOn (n h : Nat) (s : State) : GoesOn s (execBnz n h s) := by
  refine goesOn_vecRow fun k y hy => ?_
  split <;> exact hy

theorem execVBarrierRelease_goesOn (n : Nat) (s : State) : GoesOn s (execVBarrierRelease n s) := by
  unfold execVBarrierRelease
  refine goesOn_onSys fun p y h => ?_
  dsimp only
  split <;> simp [h]

/-! ### The vector commands and reductions -/

/-- A program loaded, and the command that loads it done. -/
theorem finish_prog_follows {ref : Core} {y : Sys} {id : Nat} {res : List Word64} {prog : SMap Word64} (h : Follows ref (core y)) :
    Follows ref (core (finish id .ok res { y with vec := { y.vec with prog := prog } })) :=
  finish_follows _ _ _ h

theorem execVecLoad_goesOn (pk : Packet) (s : State) : GoesOn s (execVecLoad pk s) := by
  unfold execVecLoad
  refine goesOn_command fun p c y h => ?_
  dsimp only
  split
  · next hc => exact finish_follows _ _ _ (by rwa [consume_core hc])
  · exact finish_prog_follows h

theorem execVecRun_goesOn (pk : Packet) (s : State) : GoesOn s (execVecRun pk s) := by
  unfold execVecRun
  exact goesOn_command fun p c y h => by simp [h]

theorem execRedTopk_goesOn (pk : Packet) (s : State) : GoesOn s (execRedTopk pk s) := by
  unfold execRedTopk
  refine goesOn_onSys fun p y h => execCommand_follows (fun c z hz => ?_) h
  dsimp only
  generalize List.flatMap _ _ = writes
  split
  · simp [hz]
  · generalize redRanges _ ++ _ = ranges
    split
    · next hc => simp [consumeAll_core hc, hz]
    · exact finish_follows _ _ _ (writeAll_follows _ _ hz)

theorem execRedMaxmin_goesOn (pk : Packet) (s : State) : GoesOn s (execRedMaxmin pk s) := by
  unfold execRedMaxmin
  refine goesOn_command fun p c y h => ?_
  dsimp only
  split
  · simp [h]
  · split
    · next hc => simp [consumeAll_core hc, h]
    · simp [h]

theorem execRedCensus_goesOn (pk : Packet) (s : State) : GoesOn s (execRedCensus pk s) := by
  unfold execRedCensus
  refine goesOn_command fun p c y h => ?_
  dsimp only
  split
  · next hc => simp [consumeAll_core hc, h]
  · simp [h]

/-! ### Link events -/

theorem execIdentityFrame_goesOn (port : Nat) (m : WarpMsg) (s : State) : GoesOn s (execIdentityFrame port m s) := by
  unfold execIdentityFrame
  refine goesOn_onSys fun p y h => ?_
  dsimp only
  (repeat' split) <;> simp [h]

theorem execPortTraining_goesOn (l : PortLanes) (s : State) : GoesOn s (execPortTraining l s) := by
  unfold execPortTraining
  refine goesOn_onSys fun p y h => ?_
  dsimp only
  (repeat' split) <;> simp [h]

theorem execPortUp_goesOn (port : Nat) (m : WarpMsg) (s : State) : GoesOn s (execPortUp port m s) := by
  unfold execPortUp
  refine goesOn_onSys fun p y h => ?_
  dsimp only
  (repeat' split) <;> simp [h]

theorem execPortFault_goesOn (port : Nat) (c : FaultCause) (s : State) : GoesOn s (execPortFault port c s) := by
  unfold execPortFault
  refine goesOn_onSys fun p y h => ?_
  dsimp only
  (repeat' split) <;> simp [h]

theorem execPortDown_goesOn (port : Nat) (s : State) : GoesOn s (execPortDown port s) := by
  unfold execPortDown
  refine goesOn_onSys fun p y h => ?_
  dsimp only
  split <;> simp [h]

theorem execLaneEqualization_goesOn (port : Nat) (s : State) : GoesOn s (execLaneEqualization port s) := by
  unfold execLaneEqualization
  refine goesOn_onSys fun p y h => ?_
  dsimp only
  split <;> simp [h]

theorem execLinkPacket_goesOn (port : Nat) (e : LinkEvent) (s : State) : GoesOn s (execLinkPacket port e s) := by
  unfold execLinkPacket
  exact goesOn_onSys fun p y h => follows_ite (outDone_follows port h) h

/-- The ports of a die go down with nothing undelivered. -/
theorem downPorts_follows {ref : Core} (ws : List Nat) {y : Sys} (h : Follows ref (core y)) :
    Follows ref (core (ws.foldl (fun z w => onPort w (fun p => { p with undelivered := [] }) (downPort w z)) y)) :=
  foldl_follows (fun _ w hz => (onPort_core _ w _).symm ▸ downPort_follows w hz) ws h

theorem execLinkReset_goesOn (pk : Packet) (s : State) : GoesOn s (execLinkReset pk s) := by
  unfold execLinkReset
  refine goesOn_onAll fun p y h => ?_
  generalize hm : meetUnit 0x0430 _ _ _ _ pk y = q
  have hq : Follows (core s.sys) (core q.1) := by rw [← hm]; exact meetUnit_follows _ _ _ _ _ pk h
  obtain ⟨z, _ | c⟩ := q
  · exact hq
  · have hports := downPorts_follows (diePorts (pf pk 0 0 3)) hq
    rw [activateUnit_core]
    dsimp only at hports ⊢
    generalize List.foldl _ z _ = w at hports ⊢
    exact hports

theorem execLinkResetTimeout_goesOn (s : State) : GoesOn s (execLinkResetTimeout s) := by
  unfold execLinkResetTimeout
  refine goesOn_onSys fun p y h => ?_
  (repeat' split) <;> simp [h]

theorem execWarpForward_goesOn (port : Nat) (m : WarpMsg) (s : State) : GoesOn s (execWarpForward port m s) := by
  unfold execWarpForward
  refine goesOn_onSys fun p y h => ?_
  (repeat' split) <;> simp [h]

theorem execRemoteWrite_goesOn (port : Nat) (m : WarpMsg) (s : State) : GoesOn s (execRemoteWrite port m s) := by
  unfold execRemoteWrite
  refine goesOn_onSys fun p y h => ?_
  dsimp only
  (repeat' split) <;> simp [h]

theorem execWritesCompleteReport_goesOn (port : Nat) (m : WarpMsg) (s : State) :
    GoesOn s (execWritesCompleteReport port m s) := by
  unfold execWritesCompleteReport
  refine goesOn_onSys fun p y h => ?_
  (repeat' split) <;> simp [h]

/-! ### The step and twin commands -/

theorem execStepBegin_goesOn (pk : Packet) (s : State) : GoesOn s (execStepBegin pk s) := by
  unfold execStepBegin
  exact goesOn_command fun p c y h => by simp [h]

theorem execStepPrepare_goesOn (pk : Packet) (s : State) : GoesOn s (execStepPrepare pk s) := by
  unfold execStepPrepare
  exact goesOn_command fun p c y h => by simp [h]

theorem execPrepareDigest_goesOn (s : State) : GoesOn s (execPrepareDigest s) := by
  unfold execPrepareDigest
  refine goesOn_onSys fun p y h => ?_
  (repeat' split) <;> simp [h]

theorem execPrepareMessage_goesOn (port : Nat) (m : WarpMsg) (s : State) : GoesOn s (execPrepareMessage port m s) := by
  unfold execPrepareMessage
  refine goesOn_onSys fun p y h => ?_
  dsimp only
  split
  · refine follows_ite ?_ h
    split
    · exact h
    · exact follows_ite (endPrepare_follows _ h) h
  · exact h

theorem execStepCommit_goesOn (pk : Packet) (s : State) : GoesOn s (execStepCommit pk s) := by
  unfold execStepCommit
  exact goesOn_command fun p c y h => by simp [h]

theorem execStepAbort_goesOn (pk : Packet) (s : State) : GoesOn s (execStepAbort pk s) := by
  unfold execStepAbort
  exact goesOn_command fun p c y h => by simp [h]

theorem execTwinSet_goesOn (pk : Packet) (s : State) : GoesOn s (execTwinSet pk s) := by
  unfold execTwinSet
  exact goesOn_command fun p c y h => by simp [h]

theorem execShadowBegin_goesOn (pk : Packet) (s : State) : GoesOn s (execShadowBegin pk s) := by
  unfold execShadowBegin
  exact goesOn_command fun p c y h => finish_follows _ _ _ h

theorem execShadowEnd_goesOn (pk : Packet) (s : State) : GoesOn s (execShadowEnd pk s) := by
  unfold execShadowEnd
  exact goesOn_command fun p c y h => by simp [h]

theorem execWeaveSend_goesOn (pk : Packet) (s : State) : GoesOn s (execWeaveSend pk s) := by
  unfold execWeaveSend
  exact goesOn_command fun p c y h => by simp [h]

theorem execWeaveRecv_goesOn (pk : Packet) (s : State) : GoesOn s (execWeaveRecv pk s) := by
  unfold execWeaveRecv
  exact goesOn_command fun p c y h => follows_ite (finish_follows _ _ _ h) h

theorem execWeavePacket_goesOn (port : Nat) (m : WarpMsg) (s : State) : GoesOn s (execWeavePacket port m s) := by
  unfold execWeavePacket
  refine goesOn_onSys fun p y h => ?_
  (repeat' split) <;> simp [h]

/-! ### The general commands -/

theorem execNop_goesOn (pk : Packet) (s : State) : GoesOn s (execNop pk s) := by
  unfold execNop
  exact goesOn_command fun p c y h => by simp [h]

theorem execFence_goesOn (pk : Packet) (s : State) : GoesOn s (execFence pk s) := by
  unfold execFence
  exact goesOn_command fun p c y h => by simp [h]

theorem execPickSet_goesOn (pk : Packet) (s : State) : GoesOn s (execPickSet pk s) := by
  unfold execPickSet
  exact goesOn_command fun p c y h => finish_follows _ _ _ h

theorem execTimeRead_goesOn (pk : Packet) (s : State) : GoesOn s (execTimeRead pk s) := by
  unfold execTimeRead
  exact goesOn_command fun p c y h => by simp [h]

/-! ### Frames received and sessions -/

theorem execDroppedFrame_goesOn (f : RxFrame) (s : State) : GoesOn s (execDroppedFrame f s) := by
  unfold execDroppedFrame
  refine goesOn_onSys fun p y h => ?_
  (repeat' split) <;> simp [h]

theorem execKeepalive_goesOn (f : RxFrame) (s : State) : GoesOn s (execKeepalive f s) := by
  unfold execKeepalive
  exact goesOn_frame fun p y h => by simp [h]

theorem execKeepaliveSend_goesOn (k : KeepaliveTurn) (s : State) : GoesOn s (execKeepaliveSend k s) := by
  unfold execKeepaliveSend
  refine goesOn_onSys fun p y h => ?_
  split <;> simp [h]

theorem execFrameResend_goesOn (svc : Bool) (seq : Nat) (s : State) : GoesOn s (execFrameResend svc seq s) := by
  unfold execFrameResend
  refine goesOn_onSys fun p y h => ?_
  dsimp only
  (repeat' split) <;> simp [h]

theorem execReplyFlush_goesOn (svc : Bool) (s : State) : GoesOn s (execReplyFlush svc s) := by
  unfold execReplyFlush
  refine goesOn_onSys fun p y h => ?_
  dsimp only
  split <;> simp [h]

theorem execCreelWrite_goesOn (f : RxFrame) (s : State) : GoesOn s (execCreelWrite f s) := by
  unfold execCreelWrite
  refine goesOn_frame fun p y h => ?_
  dsimp only
  split <;> simp [h]

theorem execCreelStatus_goesOn (s : State) : GoesOn s (execCreelStatus s) := by
  unfold execCreelStatus
  refine goesOn_onSys fun p y h => ?_
  dsimp only
  (repeat' split) <;> simp [h]

theorem execSessionForceEnd_goesOn (svc : Bool) (s : State) : GoesOn s (execSessionForceEnd svc s) := by
  unfold execSessionForceEnd
  refine goesOn_onSys fun p y h => ?_
  dsimp only
  (repeat' split) <;> simp [h]

theorem execSessionClose_goesOn (f : RxFrame) (s : State) : GoesOn s (execSessionClose f s) := by
  refine goesOn_onSys fun _ _ h => onSessionFrame_follows (fun z hz => ?_) h
  dsimp only
  (repeat' split) <;> simp [hz]

theorem execSessionResume_goesOn (f : RxFrame) (s : State) : GoesOn s (execSessionResume f s) := by
  refine goesOn_onSys fun _ _ h => onSessionFrame_follows (fun z hz => ?_) h
  dsimp only
  (repeat' split) <;> simp [hz]

theorem execSessionLapse_goesOn (svc : Bool) (s : State) : GoesOn s (execSessionLapse svc s) := by
  unfold execSessionLapse
  refine goesOn_onSys fun p y h => ?_
  dsimp only
  (repeat' split) <;> simp [h]

/-! ### Reading, completion and replies -/

theorem execPacketRead_goesOn (s : State) : GoesOn s (execPacketRead s) := by
  unfold execPacketRead
  refine goesOn_onSys fun p y h => ?_
  split <;> simp [h]

theorem execStall_goesOn (creel lane : Nat) (s : State) : GoesOn s (execStall creel lane s) := by
  unfold execStall
  refine goesOn_onSys fun p y h => ?_
  dsimp only
  split <;> simp [h]

theorem execCommandCompletion_goesOn (creel lane : Nat) (s : State) : GoesOn s (execCommandCompletion creel lane s) := by
  unfold execCommandCompletion
  refine goesOn_onSys fun p y h => ?_
  (repeat' split) <;> simp [h]

/-! ### Shutdown -/

theorem execShdnReqN_goesOn (ns : Nat) (s : State) : GoesOn s (execShdnReqN ns s) := by
  unfold execShdnReqN
  refine goesOn_onSys fun p y h => ?_
  split <;> simp [h]

/-! ### The integrity commands -/

theorem execBurlerSet_goesOn (pk : Packet) (s : State) : GoesOn s (execBurlerSet pk s) := by
  unfold execBurlerSet
  exact goesOn_command fun p c y h => finish_follows _ _ _ h

theorem execMendRead_goesOn (pk : Packet) (s : State) : GoesOn s (execMendRead pk s) := by
  unfold execMendRead
  exact goesOn_command fun p c y h => by simp [h]

theorem execSteplogRead_goesOn (pk : Packet) (s : State) : GoesOn s (execSteplogRead pk s) := by
  unfold execSteplogRead
  exact goesOn_command fun p c y h => by simp [h]

theorem execCkptStream_goesOn (pk : Packet) (s : State) : GoesOn s (execCkptStream pk s) := by
  unfold execCkptStream
  refine goesOn_command fun p c y h => ?_
  dsimp only
  split <;> simp [h]

theorem execCkptEnd_goesOn (port : Nat) (m : WarpMsg) (s : State) : GoesOn s (execCkptEnd port m s) :=
  goesOn_onSys fun _ _ h => onCkpt_follows (fun _ _ _ hz => finish_follows _ _ _ hz) h

theorem execBurlerSlice_goesOn (die : Nat) (wantsTile : Bool) (s : State) : GoesOn s (execBurlerSlice die wantsTile s) := by
  unfold execBurlerSlice
  refine goesOn_onSys fun p y h => ?_
  dsimp only
  (repeat' split) <;> simp [h]

theorem execBurlerTestDone_goesOn (die part : Nat) (digest expected : Word64) (s : State) :
    GoesOn s (execBurlerTestDone die part digest expected s) := by
  unfold execBurlerTestDone
  refine goesOn_onAll fun p y h => ?_
  dsimp only
  (repeat' split) <;> simp [h]

theorem execMendDone_goesOn (die : Nat) (pass : Bool) (s : State) : GoesOn s (execMendDone die pass s) := by
  unfold execMendDone
  refine goesOn_onAll fun p y h => ?_
  dsimp only
  (repeat' split) <;> simp [h]

theorem execUnitFailure_goesOn (cls inst : Nat) (s : State) : GoesOn s (execUnitFailure cls inst s) := by
  unfold execUnitFailure
  refine goesOn_onSys fun p y h => ?_
  dsimp only
  refine follows_ite ?_ h
  rw [recordEvent_core]
  show Follows _ (core (trimAll _))
  rw [trimAll_core, abortEngines_core]
  exact foldl_follows (fun _ c hz => failCmd_follows hz c) _ h

/-! ### Firmware and security -/

theorem execFwQuery_goesOn (pk : Packet) (s : State) : GoesOn s (execFwQuery pk s) := by
  unfold execFwQuery
  exact goesOn_command fun p c y h => by simp [h]

theorem execAttest_goesOn (pk : Packet) (s : State) : GoesOn s (execAttest pk s) := by
  unfold execAttest
  refine goesOn_command fun p c y h => ?_
  dsimp only
  split
  · exact finish_follows _ _ _ (by rw [sendReport_core]; exact h)
  · exact writeOut_follows _ _ _ _ h

theorem execMeasureRead_goesOn (pk : Packet) (s : State) : GoesOn s (execMeasureRead pk s) := by
  unfold execMeasureRead
  exact goesOn_command fun p c y h => by simp [h]

theorem execFuseDebugOff_goesOn (pk : Packet) (s : State) : GoesOn s (execFuseDebugOff pk s) := by
  unfold execFuseDebugOff
  refine goesOn_onAll fun p y h => ?_
  dsimp only
  generalize hm : meetUnit 0x0830 _ _ _ _ pk y = q
  have hq : Follows (core s.sys) (core q.1) := by rw [← hm]; exact meetUnit_follows _ _ _ _ _ pk h
  obtain ⟨z, _ | c⟩ := q
  · exact hq
  · dsimp only at hq ⊢
    split
    · exact armFuse_follows c hq
    · split
      · exact blowFuse_follows c p hq
      · exact finish_follows _ _ _ hq
    · exact finish_follows _ _ _ hq

theorem execUnitReset_goesOn (pk : Packet) (s : State) : GoesOn s (execUnitReset pk s) := by
  unfold execUnitReset
  exact goesOn_command fun p c y h => by simp [h]

theorem execUnitReportsReady_goesOn (standby : Bool) (die : Nat) (s : State) :
    GoesOn s (execUnitReportsReady standby die s) := by
  unfold execUnitReportsReady
  refine goesOn_onAll fun p y h => ?_
  split
  · exact h
  · next r _ =>
    split
    · exact h
    · refine finish_follows _ _ _ ?_
      dsimp only
      have hx : Follows (core s.sys) (core (if (standby || r.second) = true then (p, y)
          else activateUnit 3 die true (activateUnit 2 die true (p, y))).2) := by
        split
        · exact h
        · rw [activateUnit_core, activateUnit_core]; exact h
      exact follows_ite hx hx

theorem execReadyTimeExpiry_goesOn (standby : Bool) (die : Nat) (s : State) :
    GoesOn s (execReadyTimeExpiry standby die s) := by
  unfold execReadyTimeExpiry
  refine goesOn_onSys fun p y h => ?_
  split
  · exact h
  · exact follows_ite h (follows_ite (finish_follows _ _ _ h) (by rw [fallbackRecords_core]; exact h))

theorem execStandbyReady_goesOn (bad : List Nat) (s : State) : GoesOn s (execStandbyReady bad s) := by
  refine goesOn_onAll fun p y h => ?_
  split
  · split
    · split
      · next hb => rw [standbyUp_core, standbyBoots_core hb]; exact h
      · exact h
    · rw [standbyUp_core]; exact h
  · exact h

theorem execHsHandover_goesOn (pk : Packet) (s : State) : GoesOn s (execHsHandover pk s) := by
  unfold execHsHandover
  exact goesOn_command fun p c y h => tryHandOver_follows h

theorem execHsFault_goesOn (h : Nat) (s : State) : GoesOn s (execHsFault h s) := by
  unfold execHsFault
  refine goesOn_onSys fun p y hy => ?_
  dsimp only
  (repeat' split) <;> simp [hy]

theorem execTakeover_goesOn (s : State) : GoesOn s (execTakeover s) := by
  unfold execTakeover
  refine goesOn_onSys fun p y h => ?_
  dsimp only
  split <;> simp [h]

theorem execMemRetrainDone_goesOn (ok : Bool) (pause : Nat) (s : State) : GoesOn s (execMemRetrainDone ok pause s) := by
  refine goesOn_onAll fun p y h => ?_
  split
  · exact h
  · split
    · exact h
    · refine finish_follows _ _ _ ?_
      split
      · rw [activateUnit_core, recordEvent_core]; exact h
      · rw [recordEvent_core]; exact h

/-! ### Picks -/

theorem execPick_goesOn (f : RxFrame) (s : State) : GoesOn s (execPick f s) := by
  unfold execPick
  refine goesOn_frame fun p y h => ?_
  (repeat' split) <;> simp [h]

theorem execPickInEdge_goesOn (s : State) : GoesOn s (execPickInEdge s) := by
  unfold execPickInEdge
  refine goesOn_onSys fun p y h => ?_
  dsimp only
  (repeat' split) <;> simp [h]

theorem execPickEcho_goesOn (s : State) : GoesOn s (execPickEcho s) := by
  unfold execPickEcho
  refine goesOn_onSys fun p y h => ?_
  dsimp only
  (repeat' split) <;> simp [h]

theorem execLockExpired_goesOn (k : Nat) (s : State) : GoesOn s (execLockExpired k s) := by
  unfold execLockExpired
  refine goesOn_onSys fun p y h => ?_
  split <;> simp [h]

/-! ### Observation -/

theorem execCtrConfig_goesOn (pk : Packet) (s : State) : GoesOn s (execCtrConfig pk s) := by
  unfold execCtrConfig
  refine goesOn_command fun p c y h => ?_
  dsimp only
  split
  · exact finish_follows _ _ _ h
  · split
    · next hc => exact finish_follows _ _ _ (by rwa [consume_core hc])
    · exact finish_follows _ _ _ h

theorem execCtrRead_goesOn (pk : Packet) (s : State) : GoesOn s (execCtrRead pk s) := by
  unfold execCtrRead
  exact goesOn_command fun p c y h => by simp [h]

theorem execCtrSample_goesOn (set : Nat) (s : State) : GoesOn s (execCtrSample set s) := by
  unfold execCtrSample
  refine goesOn_onSys fun p y h => ?_
  dsimp only
  (repeat' split) <;> simp [h]

theorem execTraceConfig_goesOn (pk : Packet) (s : State) : GoesOn s (execTraceConfig pk s) := by
  unfold execTraceConfig
  exact goesOn_command fun p c y h =>
    follows_ite (follows_ite (finish_follows _ _ _ h) (tryStop_follows (drainAll_follows h))) (finish_follows _ _ _ h)

theorem execTraceTrigger_goesOn (pk : Packet) (s : State) : GoesOn s (execTraceTrigger pk s) := by
  unfold execTraceTrigger
  exact goesOn_command fun p c y h => by simp [h]

theorem execTraceDrain_goesOn (u : Nat) (s : State) : GoesOn s (execTraceDrain u s) := by
  unfold execTraceDrain
  refine goesOn_onSys fun p y h => ?_
  dsimp only
  split <;> simp [h]

theorem execTraceGap_goesOn (u : Nat) (s : State) : GoesOn s (execTraceGap u s) := by
  unfold execTraceGap
  refine goesOn_onSys fun p y h => ?_
  split <;> simp [h]

theorem execTraceWindowEnd_goesOn (s : State) : GoesOn s (execTraceWindowEnd s) := by
  unfold execTraceWindowEnd
  refine goesOn_onSys fun p y h => ?_
  dsimp only
  split <;> simp [h]

theorem execWatchSet_goesOn (pk : Packet) (s : State) : GoesOn s (execWatchSet pk s) := by
  unfold execWatchSet
  refine goesOn_command fun p c y h => finish_follows _ _ _ ?_
  split
  · exact h
  · exact h
  · exact writeBytes_follows _ _ _ h

theorem execEvlogRead_goesOn (pk : Packet) (s : State) : GoesOn s (execEvlogRead pk s) := by
  unfold execEvlogRead
  exact goesOn_command fun p c y h => by simp [h]

theorem execLifeRead_goesOn (pk : Packet) (s : State) : GoesOn s (execLifeRead pk s) := by
  unfold execLifeRead
  exact goesOn_command fun p c y h => by simp [h]

/-! ### Heat and power -/

theorem execThermalSample_goesOn (die : Nat) (r : ThermReading) (s : State) : GoesOn s (execThermalSample die r s) := by
  unfold execThermalSample
  exact goesOn_onSys fun p y h =>
    follows_ite (follows_ite (sampleLoom_core_follows die r h) (sampleOther_follows die r h)) h

theorem execLifeSample_goesOn (vcore : List Nat) (s : State) : GoesOn s (execLifeSample vcore s) := by
  unfold execLifeSample
  refine goesOn_onSys fun p y h => ?_
  dsimp only
  split <;> simp [h]

theorem execHoursTick_goesOn (s : State) : GoesOn s (execHoursTick s) := by
  unfold execHoursTick
  refine goesOn_onSys fun p y h => ?_
  dsimp only
  split <;> simp [h]

theorem execSmbAlertResponse_goesOn (s : State) : GoesOn s (execSmbAlertResponse s) := by
  unfold execSmbAlertResponse
  refine goesOn_onSys fun p y h => ?_
  dsimp only
  split <;> simp [h]

theorem execTestAccessPort_goesOn (i : TapInstr) (s : State) : GoesOn s (execTestAccessPort i s) := by
  unfold execTestAccessPort
  dsimp only
  split
  · exact goesOn_onSys fun _ _ h => h
  · split
    · exact goesOn_onSys fun _ _ h => h
    · refine goesOn_onSys fun p y h => ?_
      split <;> simp [h]
    · exact goesOn_refused

/-! ### Reset and boot -/

theorem execVauxRise_goesOn (s : State) : GoesOn s (execVauxRise s) := by
  unfold execVauxRise
  refine goesOn_onSys fun p y h => ?_
  dsimp only
  split <;> simp [h]

theorem execPerstNRelease_goesOn (hs0 hs1 : HeadTest) (s : State) : GoesOn s (execPerstNRelease hs0 hs1 s) := by
  unfold execPerstNRelease
  refine goesOn_onSys fun p y h => ?_
  dsimp only
  split <;> simp [h]

theorem execBootStage1_goesOn (failing badA badB : List Nat) (s : State) :
    GoesOn s (execBootStage1 failing badA badB s) := by
  unfold execBootStage1
  refine goesOn_onAll fun p y h => ?_
  split <;> simp [h]

/-! ### Bucket events -/

theorem execBucketConversionDone_goesOn (tag : Nat) (s : State) : GoesOn s (execBucketConversionDone tag s) := by
  refine goesOn_onSys fun _ _ h => onBucket_follows (fun b r z hz => ?_) h
  split
  · next hc => exact convertBucket_inl_follows hz hc
  · next hc =>
    have hw := convertBucket_inr_follows hz hc
    exact follows_ite (shadowDone_follows _ r hw) (startSending_follows _ hw)

theorem execHeldPartialRelease_goesOn (tag : Nat) (s : State) : GoesOn s (execHeldPartialRelease tag s) := by
  unfold execHeldPartialRelease
  refine goesOn_onSys fun p y h => follows_ite ?_ h
  split
  · exact h
  · exact follows_ite h (bucketsMoved_follows (takeHeld_follows _ h))

theorem execShardFinal_goesOn (tag : Nat) (s : State) : GoesOn s (execShardFinal tag s) := by
  refine goesOn_onSys fun _ _ h => onBucket_follows (fun b r z hz => ?_) h
  split
  · dsimp only
    generalize hw : (if (shardStatus b).isSome = true then bucketTrace b 2 r.selfPos (bucketPort r) z else z) = w
    have hm : core w = core z := by rw [← hw]; split <;> simp
    rw [← hm] at hz
    split
    · exact hz
    · exact failBucket_follows _ _ hz
    · exact finish_follows _ _ _ (modCmd_follows _ (keepsOrder_of_same fun _ => ⟨rfl, rfl, rfl⟩) hz)
  · exact hz

theorem execBucketResend_goesOn (tag : Nat) (s : State) : GoesOn s (execBucketResend tag s) := by
  refine goesOn_onSys fun _ _ h => onBucket_follows (fun b r z hz => ?_) h
  split
  · dsimp only
    generalize hw : putBucket _ (bucketTrace _ _ _ _ _) = w
    have hm : core w = core z := by
      rw [← hw, putBucket_core, bucketTrace_core, core_mk, core_parts, bucketTrace_core]
    rw [← hm] at hz
    split
    · next hc => exact convertBucket_inl_follows hz hc
    · next hc => exact startSending_follows _ (convertBucket_inr_follows hz hc)
  · exact hz

theorem execTwinCopyRequest_goesOn (port : Nat) (m : WarpMsg) (s : State) : GoesOn s (execTwinCopyRequest port m s) := by
  unfold execTwinCopyRequest
  refine goesOn_onSys fun p y h => ?_
  (repeat' split) <;> simp [h]

theorem execTwinCopyAnswer_goesOn (port : Nat) (m : WarpMsg) (s : State) : GoesOn s (execTwinCopyAnswer port m s) := by
  refine goesOn_onSys fun _ y h => ?_
  split
  · dsimp only
    split
    · split
      · exact h
      · split
        · exact h
        · split
          · exact bucketsMoved_follows (by rwa [putBucket_core])
          · split
            · exact bucketsMoved_follows (useCopy_follows _ _ _ _ h)
            · exact h
    · exact h
  · exact h

/-! ### Registers and locks -/

theorem execRegRead_goesOn (pk : Packet) (s : State) : GoesOn s (execRegRead pk s) := by
  unfold execRegRead
  exact goesOn_command fun p c y h => by simp [h]

theorem execLockAcquire_goesOn (pk : Packet) (s : State) : GoesOn s (execLockAcquire pk s) := by
  unfold execLockAcquire
  exact goesOn_onSys fun _ _ h => afterExpiries_follows
    (fun _ hz => execCommand_follows (fun _ _ hw => finish_follows _ _ _ hw) hz) h

theorem execLockRenew_goesOn (pk : Packet) (s : State) : GoesOn s (execLockRenew pk s) := by
  unfold execLockRenew
  exact goesOn_onSys fun _ _ h => afterExpiries_follows
    (fun _ hz => execCommand_follows (fun _ _ hw => finish_follows _ _ _ hw) hz) h

theorem execLockRelease_goesOn (pk : Packet) (s : State) : GoesOn s (execLockRelease pk s) := by
  unfold execLockRelease
  exact goesOn_onSys fun _ _ h => afterExpiries_follows
    (fun _ hz => execCommand_follows (fun _ _ hw => finish_follows _ _ _ hw) hz) h

/-! ### Image transfer -/

theorem execImageBegin_goesOn (f : RxFrame) (s : State) : GoesOn s (execImageBegin f s) := by
  unfold execImageBegin
  refine goesOn_frame fun p y h => ?_
  split <;> simp [h]

theorem execImageData_goesOn (m : ImageFrame) (s : State) : GoesOn s (execImageData m s) := by
  unfold execImageData
  refine goesOn_frame fun p y h => ?_
  dsimp only
  (repeat' split) <;> simp [h]

theorem execImageEnd_goesOn (m : ImageFrame) (s : State) : GoesOn s (execImageEnd m s) := by
  unfold execImageEnd
  refine goesOn_frame fun p y h => ?_
  (repeat' split) <;> simp [h]

theorem execImageAbort_goesOn (f : RxFrame) (s : State) : GoesOn s (execImageAbort f s) := by
  unfold execImageAbort
  exact goesOn_frame fun p y h => by simp [h]

/-! ### Every step -/

/-- The commands that free an entry or flip the banks, and the events that reset the device. -/
def movesBanks : Instr → Bool
  | .stateSet _ | .commitStart | .stepUndo _ | .perstNAssert _ | .vauxLoss => true
  | _ => false

/-- Every other command and event goes on. -/
theorem exec_goesOn {i : Instr} (hi : movesBanks i = false) (s : State) : GoesOn s (exec i s) := by
  cases i with
  | nop pk => exact execNop_goesOn pk _
  | fence pk => exact execFence_goesOn pk _
  | pickSet pk => exact execPickSet_goesOn pk _
  | timeRead pk => exact execTimeRead_goesOn pk _
  | memCopy pk => exact execMemCopy_goesOn pk _
  | memFill pk => exact execMemFill_goesOn pk _
  | yarnLoad pk => exact execYarnLoad_goesOn pk _
  | yarnStore pk => exact execYarnStore_goesOn pk _
  | memRetrain pk => exact execMemRetrain_goesOn pk _
  | accBegin pk => exact execAccBegin_goesOn pk _
  | accMatmul pk => exact execAccMatmul_goesOn pk _
  | accReadout pk => exact execAccReadout_goesOn pk _
  | accExportWide pk => exact execAccExportWide_goesOn pk _
  | accImportWide pk => exact execAccImportWide_goesOn pk _
  | accDiscard pk => exact execAccDiscard_goesOn pk _
  | vecLoad pk => exact execVecLoad_goesOn pk _
  | vecRun pk => exact execVecRun_goesOn pk _
  | redTopk pk => exact execRedTopk_goesOn pk _
  | redMaxmin pk => exact execRedMaxmin_goesOn pk _
  | redCensus pk => exact execRedCensus_goesOn pk _
  | warpFwdSet pk => exact execWarpFwdSet_goesOn pk _
  | routeSet pk => exact execRouteSet_goesOn pk _
  | bktReduce pk => exact execBktReduce_goesOn pk _
  | bktGather pk => exact execBktGather_goesOn pk _
  | bktDigestRead pk => exact execBktDigestRead_goesOn pk _
  | linkReset pk => exact execLinkReset_goesOn pk _
  | updRun pk => exact execUpdRun_goesOn pk _
  | updMicroLoad pk => exact execUpdMicroLoad_goesOn pk _
  | bobConvert pk => exact execBobConvert_goesOn pk _
  | bobGather pk => exact execBobGather_goesOn pk _
  | bobScatterAdd pk => exact execBobScatterAdd_goesOn pk _
  | stateSet pk => cases hi
  | stateRead pk => exact execStateRead_goesOn pk _
  | censusClear pk => exact execCensusClear_goesOn pk _
  | censusRead pk => exact execCensusRead_goesOn pk _
  | stepBegin pk => exact execStepBegin_goesOn pk _
  | stepPrepare pk => exact execStepPrepare_goesOn pk _
  | stepCommit pk => exact execStepCommit_goesOn pk _
  | stepAbort pk => exact execStepAbort_goesOn pk _
  | stepUndo pk => cases hi
  | twinSet pk => exact execTwinSet_goesOn pk _
  | shadowBegin pk => exact execShadowBegin_goesOn pk _
  | shadowEnd pk => exact execShadowEnd_goesOn pk _
  | weaveSend pk => exact execWeaveSend_goesOn pk _
  | weaveRecv pk => exact execWeaveRecv_goesOn pk _
  | regRead pk => exact execRegRead_goesOn pk _
  | regWrite pk => exact goesOn_onSys fun p _ h => writeCommand_follows p pk h
  | lockAcquire pk => exact execLockAcquire_goesOn pk _
  | lockRenew pk => exact execLockRenew_goesOn pk _
  | lockRelease pk => exact execLockRelease_goesOn pk _
  | fwQuery pk => exact execFwQuery_goesOn pk _
  | unitReset pk => exact execUnitReset_goesOn pk _
  | hsHandover pk => exact execHsHandover_goesOn pk _
  | attest pk => exact execAttest_goesOn pk _
  | measureRead pk => exact execMeasureRead_goesOn pk _
  | fuseDebugOff pk => exact execFuseDebugOff_goesOn pk _
  | ctrConfig pk => exact execCtrConfig_goesOn pk _
  | ctrRead pk => exact execCtrRead_goesOn pk _
  | traceConfig pk => exact execTraceConfig_goesOn pk _
  | traceTrigger pk => exact execTraceTrigger_goesOn pk _
  | watchSet pk => exact execWatchSet_goesOn pk _
  | evlogRead pk => exact execEvlogRead_goesOn pk _
  | lifeRead pk => exact execLifeRead_goesOn pk _
  | burlerSet pk => exact execBurlerSet_goesOn pk _
  | mendRead pk => exact execMendRead_goesOn pk _
  | steplogRead pk => exact execSteplogRead_goesOn pk _
  | ckptStream pk => exact execCkptStream_goesOn pk _
  | shutdownRequest pk => exact goesOn_onSys fun p _ h => writeOf_follows _ _ pk p h
  | collSelfWrite pk => exact goesOn_onSys fun p _ h => writeOf_follows _ _ pk p h
  | runaheadDisable pk => exact goesOn_onSys fun p _ h => writeOf_follows _ _ pk p h
  | creelModeSet pk => exact goesOn_onSys fun p _ h => writeOf_follows _ _ pk p h
  | traceRpWrite pk => exact goesOn_onSys fun p _ h => writeOf_follows _ _ pk p h
  | vld n h => exact goesOn_vecRow fun k y hy => by rwa [loadLanes_core]
  | vst n h => exact goesOn_vecRow fun k _ hy => storeLanes_follows k _ hy
  | vgather n h => exact goesOn_vecRow fun k y hy => by rwa [loadLanes_core]
  | vscatter n h => exact execVscatter_goesOn n h _
  | vscatadd n h => exact execVscatadd_goesOn n h _
  | vadd n h => exact goesOn_sameState fun k y => laneOp_core k _ y
  | vsub n h => exact goesOn_sameState fun k y => laneOp_core k _ y
  | vmul n h => exact goesOn_sameState fun k y => laneOp_core k _ y
  | vfma n h => exact goesOn_sameState fun k y => floatOp_core k _ y
  | vdiv n h => exact goesOn_sameState fun k y => floatOp_core k _ y
  | vsqrt n h => exact goesOn_sameState fun k y => floatOp_core k _ y
  | vmin n h => exact goesOn_sameState fun k y => laneOp_core k _ y
  | vmax n h => exact goesOn_sameState fun k y => laneOp_core k _ y
  | vand n h => exact goesOn_sameState fun k y => laneOp_core k _ y
  | vor n h => exact goesOn_sameState fun k y => laneOp_core k _ y
  | vxor n h => exact goesOn_sameState fun k y => laneOp_core k _ y
  | vshl n h => exact goesOn_sameState fun k y => laneOp_core k _ y
  | vshr n h => exact goesOn_sameState fun k y => laneOp_core k _ y
  | vcmp n h => exact execVcmp_goesOn n h _
  | vsel n h => exact execVsel_goesOn n h _
  | vcvt n h => exact execVcvt_goesOn n h _
  | vredsum n h => exact execVredsum_goesOn n h _
  | vredmax n h => exact goesOn_sameState fun k y => redExtreme_core true k y
  | vredmin n h => exact goesOn_sameState fun k y => redExtreme_core false k y
  | vwld n h => exact execVwld_goesOn n h _
  | vwadd n h => exact execVwadd_goesOn n h _
  | vwst n h => exact execVwst_goesOn n h _
  | sadd n h => exact goesOn_sameState fun _ _ => rfl
  | smovi n h => exact goesOn_sameState fun _ _ => rfl
  | slane n h => exact goesOn_sameState fun _ _ => rfl
  | br n h => exact goesOn_sameState fun _ _ => rfl
  | bnz n h => exact execBnz_goesOn n h _
  | vBarrier n h => exact goesOn_sameState fun _ _ => rfl
  | vBarrierRelease n => exact execVBarrierRelease_goesOn n _
  | vEnd n h => exact goesOn_sameState fun _ _ => rfl
  | threadSwitch e h granule => exact execThreadSwitch_goesOn e h granule _
  | fadd die => exact goesOn_microRow fun _ _ _ _ _ h => h
  | fsub die => exact goesOn_microRow fun _ _ _ _ _ h => h
  | fmul die => exact goesOn_microRow fun _ _ _ _ _ h => h
  | fdiv die => exact goesOn_microRow fun _ _ _ _ _ h => h
  | fsqrt die => exact goesOn_microRow fun _ _ _ _ _ h => h
  | fmin die => exact goesOn_microRow fun _ _ _ _ _ h => h
  | fmax die => exact goesOn_microRow fun _ _ _ _ _ h => h
  | fneg die => exact goesOn_microRow fun _ _ _ _ _ h => h
  | fabs die => exact goesOn_microRow fun _ _ _ _ _ h => h
  | fsign die => exact goesOn_microRow fun _ _ _ _ _ h => h
  | fscale die => exact goesOn_microRow fun _ _ _ _ _ h => h
  | fsel die => exact goesOn_microRow fun _ _ _ _ _ h => h
  | fmov die => exact goesOn_microRow fun _ _ _ _ _ h => h
  | microEnd die => exact execMicroEnd_goesOn die _
  | sessionOpen f => exact goesOn_onSys fun _ _ hy => onSessionFrame_follows (fun _ hz => openFrame_follows f hz) hy
  | sessionForceEnd svc => exact execSessionForceEnd_goesOn svc _
  | sessionResume f => exact execSessionResume_goesOn f _
  | sessionClose f => exact execSessionClose_goesOn f _
  | sessionLapse svc => exact execSessionLapse_goesOn svc _
  | creelWrite f => exact execCreelWrite_goesOn f _
  | keepalive f => exact execKeepalive_goesOn f _
  | keepaliveSend k => exact execKeepaliveSend_goesOn k _
  | frameResend svc seq => exact execFrameResend_goesOn svc seq _
  | droppedFrame f => exact execDroppedFrame_goesOn f _
  | creelStatus => exact execCreelStatus_goesOn _
  | replyFlush svc => exact execReplyFlush_goesOn svc _
  | packetRead => exact execPacketRead_goesOn _
  | stall creel lane => exact execStall_goesOn creel lane _
  | commandCompletion creel lane => exact execCommandCompletion_goesOn creel lane _
  | lockExpired k => exact execLockExpired_goesOn k _
  | pick f => exact execPick_goesOn f _
  | pickInEdge => exact execPickInEdge_goesOn _
  | pickAdvance => exact goesOn_onSys fun _ y hy => by rwa [nextAdvance_core]
  | pickEcho => exact execPickEcho_goesOn _
  | ctrSample set => exact execCtrSample_goesOn set _
  | arbitrationRound a arrivals withdrawn => exact execArbitrationRound_goesOn a arrivals withdrawn _
  | preemption a r doneBeats => exact execPreemption_goesOn a r doneBeats _
  | dramRead granule source wrong => exact execDramRead_goesOn granule source wrong _
  | dramWrite granule mask data => exact execDramWrite_goesOn granule mask data _
  | kill n granule => exact execKill_goesOn n granule _
  | writeComplete granule => exact execWriteComplete_goesOn granule _
  | runaheadRead n wrong => exact execRunaheadRead_goesOn n wrong _
  | granuleConsume u => exact execGranuleConsume_goesOn u _
  | slotFree e h => exact execSlotFree_goesOn e h _
  | scrubRead stack wrong => exact execScrubRead_goesOn stack wrong _
  | memRetrainDone ok pause => exact execMemRetrainDone_goesOn ok pause _
  | unitFailure cls inst => exact execUnitFailure_goesOn cls inst _
  | endingStart n t r => exact execEndingStart_goesOn n t r _
  | bucketConversionDone tag => exact execBucketConversionDone_goesOn tag _
  | bucketPacket port m => exact goesOn_onSys fun _ _ h => bucketMsg_follows port m _ h
  | heldPartialRelease tag => exact execHeldPartialRelease_goesOn tag _
  | twinHalfSum port m => exact goesOn_onSys fun _ _ h => bucketMsg_follows port m _ h
  | shardFinal tag => exact execShardFinal_goesOn tag _
  | bucketResend tag => exact execBucketResend_goesOn tag _
  | gatherPacket port m => exact goesOn_onSys fun _ _ h => bucketMsg_follows port m _ h
  | latenessExpiry tag => exact goesOn_onSys fun _ _ hy => onBucket_follows (fun b r z hz => by rwa [checkWindow_core]) hy
  | twinCopyRequest port m => exact execTwinCopyRequest_goesOn port m _
  | twinCopyAnswer port m => exact execTwinCopyAnswer_goesOn port m _
  | warpForward port m => exact execWarpForward_goesOn port m _
  | remoteWrite port m => exact execRemoteWrite_goesOn port m _
  | linkPacket port e => exact execLinkPacket_goesOn port e _
  | identityFrame port m => exact execIdentityFrame_goesOn port m _
  | portUp port m => exact execPortUp_goesOn port m _
  | portFault port c => exact execPortFault_goesOn port c _
  | portDown port => exact execPortDown_goesOn port _
  | laneEqualization port => exact execLaneEqualization_goesOn port _
  | prepareDigest => exact execPrepareDigest_goesOn _
  | prepareMessage port m => exact execPrepareMessage_goesOn port m _
  | commitStart => cases hi
  | weavePacket port m => exact execWeavePacket_goesOn port m _
  | ckptData port m => exact goesOn_onSys fun _ _ hy => onCkpt_follows (fun x b _ hz => takeData_follows x b hz) hy
  | ckptEnd port m => exact execCkptEnd_goesOn port m _
  | burlerSlice die wantsTile => exact execBurlerSlice_goesOn die wantsTile _
  | burlerTestDone die part digest expected => exact execBurlerTestDone_goesOn die part digest expected _
  | mendDone die pass => exact execMendDone_goesOn die pass _
  | imageBegin f => exact execImageBegin_goesOn f _
  | imageData f => exact execImageData_goesOn f _
  | imageEnd f => exact execImageEnd_goesOn f _
  | imageAbort f => exact execImageAbort_goesOn f _
  | hsFault h => exact execHsFault_goesOn h _
  | takeover => exact execTakeover_goesOn _
  | standbyReady bad => exact execStandbyReady_goesOn bad _
  | thermalSample die r => exact execThermalSample_goesOn die r _
  | lifeSample vcore => exact execLifeSample_goesOn vcore _
  | hoursTick => exact execHoursTick_goesOn _
  | perstNAssert ns => cases hi
  | perstNRelease hs0 hs1 => exact execPerstNRelease_goesOn hs0 hs1 _
  | bootStage1 failing badA badB => exact execBootStage1_goesOn failing badA badB _
  | vauxRise => exact execVauxRise_goesOn _
  | shdnReqN ns => exact execShdnReqN_goesOn ns _
  | smbVersion => exact goesOn_smb _ s
  | smbStatus => exact goesOn_smb _ s
  | smbHottestLogic => exact goesOn_smb _ s
  | smbHottestDram => exact goesOn_smb _ s
  | smbHottestOther => exact goesOn_smb _ s
  | smbDieLogicTemp d => exact goesOn_smb _ s
  | smbStackTemp d => exact goesOn_smb _ s
  | smbVcore d => exact goesOn_smb _ s
  | smbIdent => exact goesOn_smb _ s
  | smbLife => exact goesOn_smb _ s
  | smbAlertResponse => exact execSmbAlertResponse_goesOn _
  | traceDrain u => exact execTraceDrain_goesOn u _
  | traceGap u => exact execTraceGap_goesOn u _
  | traceWindowEnd => exact execTraceWindowEnd_goesOn _
  | portTraining l => exact execPortTraining_goesOn l _
  | linkResetTimeout => exact execLinkResetTimeout_goesOn _
  | unitReportsReady standby die => exact execUnitReportsReady_goesOn standby die _
  | readyTimeExpiry standby die => exact execReadyTimeExpiry_goesOn standby die _
  | writesCompleteReport port m => exact execWritesCompleteReport_goesOn port m _
  | vauxLoss => cases hi
  | testAccessPort ti => exact execTestAccessPort_goesOn ti _

/-- The passing of a nanosecond. -/
theorem tick_goesOn (s : State) : GoesOn s (tick s) := goesOn_onSys fun _ _ h => tickSys_follows h

end Sys2Proof.Laws
end

section
/-! PROOFS (O51, O52, O53). Each step keeps the state map legal and the commands in order, and only a commit or an undo flips the banks. -/

namespace Sys2Proof.Laws

open Sys2Proof Sys2Proof.Machine Sys2Proof.Safety

/-! ### The commands and events that free an entry or flip the banks -/

/-- The completion of a command changes no more of an entry than its digest. -/
theorem finish_bare (id : Nat) (st : Status) (res : List Word64) (y : Sys) (k : Nat) :
    bare (entryAt (finish id st res y) k) = bare (entryAt y k) := by
  unfold finish
  split
  · rfl
  · next c _ =>
    dsimp only
    generalize (if (c.partialPoison && isSuccess st) = true then Status.memUncorrectable else st) = st'
    refine Eq.trans ?_ (addDigests_bare c.wrote y k)
    (repeat' split) <;> rfl

/-- No ACTIVE entry that stays ACTIVE changes SEL. -/
def SelStays (m n : SMap Entry) : Prop :=
  ∀ k, (mapGet {} m k).state = .active → (mapGet {} n k).state = .active → (mapGet {} n k).sel = (mapGet {} m k).sel

/-- The order of commands, a legal map and its banks are kept. -/
def Steady (a b : Core) : Prop := Sound a b ∧ (LegalMap a.map → SelStays a.map b.map)

theorem Follows.steady {a b : Core} (h : Follows a b) : Steady a b :=
  ⟨h.sound, fun hm k hk _ => ((h.2 hm).2 k hk).2⟩

theorem entryAt_setEntry (k j : Nat) (e : Entry) (y : Sys) : entryAt (setEntry k e y) j = if j = k then e else entryAt y j :=
  mapGet_set ({} : Entry) y.smap.entries k j e

/-- An entry that becomes FREE leaves a legal map. -/
theorem freeEntry_sound (k : Nat) (y : Sys) : Sound (core y) (core (setEntry k {} y)) := by
  have hkk : entryAt (setEntry k {} y) k = {} := (entryAt_setEntry k k {} y).trans (if_pos rfl)
  have hfree : (entryAt (setEntry k {} y) k).state = .free := congrArg Entry.state hkk
  refine ⟨id, fun hm => ⟨mapRising_set ({} : Entry) y.smap.entries k {} hm.1, ?_⟩⟩
  exact legalEntries_put (f := entryAt y) (g := entryAt (setEntry k {} y)) (fun hne => absurd hfree hne) (fun hne => absurd hfree hne)
    (fun j hj => (entryAt_setEntry k j {} y).trans (if_neg hj)) hm.2

/-- The entry that a STATE_SET frees. -/
theorem freeEntry_steady {a : Core} {y : Sys} (k id : Nat) (res : List Word64) (h : Follows a (core y)) :
    Steady a (core (finish id .ok res (setEntry k {} y))) := by
  have hfree := freeEntry_sound k y
  refine ⟨sound_follows ⟨hfree.1 ∘ h.sound.1, hfree.2 ∘ h.sound.2⟩ (finish_follows id .ok res (follows_refl _)), fun hm j hj hact => ?_⟩
  have hbare := finish_bare id .ok res (setEntry k {} y) j
  have hother : entryAt (setEntry k {} y) j = entryAt y j := by
    refine (entryAt_setEntry k j {} y).trans (if_neg ?_)
    rintro rfl
    have hstate : (entryAt (setEntry j {} y) j).state = .active := (sameRanges_of_bare hbare).1.symm.trans hact
    rw [entryAt_setEntry, if_pos rfl] at hstate
    cases hstate
  exact ((sel_of_bare hbare).trans (congrArg Entry.sel hother)).trans ((h.2 hm).2 j hj).2

/-- A command that its unit takes up has passed its check, in a state of the same map. -/
theorem meetUnit_checked {op : Nat} {layout : List Nat} {bad : Packet → Bool} {ready : Cmd → Sys → Bool}
    {check : Cmd → Sys → Option (Status × List Word64)} {pk : Packet} {y w : Sys} {c : Cmd}
    (h : meetUnit op layout bad ready check pk y = (w, some c)) : ∃ z, check c z = none ∧ z.smap = y.smap ∧ w.smap = y.smap := by
  unfold meetUnit at h
  split at h
  · cases h
  · next z d hu =>
    have hz : z.smap = y.smap := by rw [atUnit_cm hu]
    split at h
    · cases h
    · split at h
      · cases h
      · cases h
      · cases h
      · dsimp only at h
        split at h
        · split at h
          · cases h
          · next hcheck =>
            cases h
            exact ⟨z, hcheck, hz, by rw [accept_frame]; exact hz⟩
        · cases h

theorem execStateSet_steady {pk : Packet} {s t : State} (h : execStateSet pk s = .next t) : Steady (core s.sys) (core t.sys) := by
  unfold execStateSet at h
  rw [onSys_next] at h
  subst h
  dsimp only
  unfold execCommand
  generalize hm : meetUnit 0x0520 _ _ _ _ pk s.sys = q
  have hq : Follows (core s.sys) (core q.1) := by rw [← hm]; exact meetUnit_follows _ _ _ _ _ pk (follows_refl _)
  obtain ⟨w, _ | c⟩ := q
  · exact hq.steady
  · obtain ⟨z, hcheck, hz, hw⟩ := meetUnit_checked hm
    have hentry : ∀ k, entryAt z k = entryAt w k := fun k => by rw [entryAt, entryAt, hz, hw]
    have hbad : ∀ f b n, badEntryRanges z f b n = badEntryRanges w f b n := fun f b n => by
      unfold badEntryRanges mapHit
      rw [hz, hw]
    simp only [firstFail_none, List.mem_cons, forall_eq_or_imp, hentry, hbad] at hcheck
    obtain ⟨-, -, -, hload, hact, -⟩ := hcheck
    have hk : pf pk 0 0 8 < 256 := Nat.mod_lt _ (by decide)
    dsimp only at hq ⊢
    split
    · next ha =>
      rw [ha, if_neg (by decide)]
      simp only [ha, beq_self_eq_true, Bool.true_and, Bool.or_eq_false_iff, bne_eq_false_iff_eq] at hload
      exact (finish_follows _ _ _ (load_follows hk hload.1 hload.2 hq)).steady
    · next ha =>
      rw [ha, if_neg (by decide)]
      simp only [ha, beq_self_eq_true, Bool.true_and, bne_eq_false_iff_eq] at hact
      exact (finish_follows _ _ _ (activate_follows hact hq)).steady
    · exact freeEntry_steady _ _ _ (follows_ite (keepView_follows _ hq) hq)

theorem afterReset_steady (a : Core) (vaux : Bool) (y : Sys) : Steady a (core (afterReset vaux y)) := by
  refine ⟨afterReset_sound a vaux y, fun _ k _ hk => ?_⟩
  rw [afterReset_core] at hk
  cases hk

theorem execPerstNAssert_steady {ns : Nat} {s t : State} (h : execPerstNAssert ns s = .next t) : Steady (core s.sys) (core t.sys) := by
  unfold execPerstNAssert at h
  rw [onSys_next] at h
  subst h
  dsimp only
  split
  · exact (follows_refl _).steady
  · split
    · exact afterReset_steady _ _ _
    · split
      · exact afterReset_steady _ _ _
      · exact (follows_refl _).steady

theorem execStepUndo_sound {pk : Packet} {s t : State} (h : execStepUndo pk s = .next t) : Sound (core s.sys) (core t.sys) := by
  unfold execStepUndo at h
  rw [onSys_next] at h
  subst h
  dsimp only
  unfold execCommand
  generalize hm : meetUnit 0x0604 _ _ _ _ pk s.sys = q
  have hq : Follows (core s.sys) (core q.1) := by rw [← hm]; exact meetUnit_follows _ _ _ _ _ pk (follows_refl _)
  obtain ⟨w, _ | c⟩ := q
  · exact hq.sound
  · have hundo := commitWhenAlone_sound { w with cm := { w.cm with commitWait := some c.id } }
    exact ⟨hundo.1 ∘ hq.sound.1, hundo.2 ∘ hq.sound.2⟩

theorem execCommitStart_sound {s t : State} (h : execCommitStart s = .next t) : Sound (core s.sys) (core t.sys) := by
  unfold execCommitStart at h
  rw [onSys_next] at h
  subst h
  dsimp only
  split
  · exact commitWhenAlone_sound s.sys
  · exact (follows_refl _).sound

/-! ### Every step -/

theorem exec_steady {i : Instr} {s t : State} (hi : flipsBanks i = false) (h : exec i s = .next t) : Steady (core s.sys) (core t.sys) := by
  cases hb : movesBanks i with
  | false => exact (exec_goesOn hb s t h).steady
  | true =>
    unfold movesBanks at hb
    split at hb
    · exact execStateSet_steady h
    · cases hi
    · cases hi
    · exact execPerstNAssert_steady h
    · cases h; exact afterReset_steady _ _ _
    · cases hb

theorem exec_sound {i : Instr} {s t : State} (h : exec i s = .next t) : Sound (core s.sys) (core t.sys) := by
  cases hi : flipsBanks i with
  | false => exact (exec_steady hi h).1
  | true =>
    unfold flipsBanks at hi
    split at hi
    · exact execCommitStart_sound h
    · exact execStepUndo_sound h
    · cases hi

theorem step_sound {s t : State} (h : step s = .next t) : Sound (core s.sys) (core t.sys) := by
  unfold step at h
  split at h
  · exact (tick_goesOn s t h).sound
  · next rest _ => exact exec_sound (s := { s with pending := rest }) h

theorem step_steady {s t : State} (h : step s = .next t) (hi : ∀ i, s.pending.head? = some i → flipsBanks i = false) :
    Steady (core s.sys) (core t.sys) := by
  unfold step at h
  split at h
  · exact (tick_goesOn s t h).steady
  · next c rest hp => exact exec_steady (s := { s with pending := rest }) (hi c (by rw [hp]; rfl)) h

/-- Settles O51: each step keeps a legal map, by the operations that write the map. -/
theorem stateMapStaysLegal : Obligations.StateMapStaysLegal := by
  intro s t hs ht
  rw [mapLegal_iff] at hs ⊢
  exact (step_sound ht).2 hs

/-- Settles O52: each step keeps the order of commands, by the operations that write their list. -/
theorem commandsStayInOrder : Obligations.CommandsStayInOrder := by
  intro s t hs ht
  rw [cmdsInOrder_iff] at hs ⊢
  exact (step_sound ht).1 hs

end Sys2Proof.Laws
end

section
/-! PROOF (O53). What a commit or an undo makes of the map and of the step state. -/

namespace Sys2Proof.Laws

open Sys2Proof Sys2Proof.Machine Sys2Proof.Safety

/-- A packet that names no bucket changes neither commands nor map. -/
theorem arrive_unnamed (port pick : Nat) (hd : BucketHdr) (payload : List Byte) {y : Sys} (h : y.coll.buckets = []) :
    core (arrive port pick hd payload y) = core y ∧ (arrive port pick hd payload y).coll.buckets = [] := by
  have hnone : bucketFor y hd = none := by rw [bucketFor, h]; rfl
  unfold arrive holdPacket
  rw [hnone]
  dsimp only
  split
  · split <;> exact ⟨rfl, h⟩
  · exact ⟨rfl, h⟩

/-- Where no bucket is left, the packets that wait change neither commands nor map. -/
theorem bucketsMoved_unnamed {y : Sys} (h : y.coll.buckets = []) : core (bucketsMoved y) = core y := by
  have harrive : ∀ (l : List HeldPartial) (pick : Nat) (z : Sys), z.coll.buckets = [] →
      core (l.foldl (fun z p => arrive p.port pick p.hdr p.payload z) z) = core z := by
    intro l pick
    induction l with
    | nil => exact fun _ _ => rfl
    | cons p l ih =>
      intro z hz
      obtain ⟨hcore, hnone⟩ := arrive_unnamed p.port pick p.hdr p.payload hz
      exact (ih _ hnone).trans hcore
  unfold bucketsMoved unstall
  rw [serveRequests_core]
  exact harrive _ _ _ h

/-- A command that has written nothing completes without a digest. -/
theorem finish_clean {id : Nat} {c : Cmd} {y : Sys} (st : Status) (res : List Word64) (hcmd : findCmd y id = some c)
    (hclean : c.wrote = []) : (finish id st res y).smap.entries = y.smap.entries ∧ (finish id st res y).stp = y.stp := by
  unfold finish
  split
  · exact ⟨rfl, rfl⟩
  · next d hd =>
    have hdc : d = c := by
      rw [hcmd] at hd
      exact (Option.some.inj (Option.filter_eq_some_iff.mp hd).1).symm
    subst hdc
    dsimp only
    rw [hclean]
    generalize (if (d.partialPoison && isSuccess st) = true then Status.memUncorrectable else st) = st'
    have hdry : ¬(([] : SMap Byte) ≠ [] ∧ isSuccess st' = false ∧ boundToOpen (addDigests [] y) d.pkt = true) := fun h => h.1 rfl
    rw [if_neg hdry]
    exact ⟨rfl, rfl⟩

/-- The completion of a command found in a state of the same commands and map. -/
theorem finish_clean_core {id : Nat} {c : Cmd} {y z : Sys} (st : Status) (res : List Word64) (hcmd : findCmd y id = some c)
    (hclean : c.wrote = []) (hz : z.cm.cmds = y.cm.cmds) :
    (finish id st res z).smap.entries = z.smap.entries ∧ (finish id st res z).stp = z.stp :=
  finish_clean st res (by rw [findCmd, hz]; exact hcmd) hclean

theorem flipAll_cmds (y : Sys) : (flipAll y).cm.cmds = y.cm.cmds := congrArg Core.cmds (dropFlipped_core y)

/-- A commit flips the map, and the device returns to IDLE with the step committed (R392). -/
theorem commitNow_commits {id : Nat} {c : Cmd} {y : Sys} (hcmd : findCmd y id = some c) (hclean : c.wrote = []) :
    (commitNow id y).smap.entries = y.smap.entries.map flipped ∧ (commitNow id y).stp.state = .idle ∧
      (commitNow id y).stp.lastCommit = openStep y ∧ (commitNow id y).stp.undoValid = true := by
  have hmoved : core (bucketsMoved (endBuckets (flipAll y))) = core (flipAll y) := bucketsMoved_unnamed rfl
  unfold commitNow
  dsimp only
  generalize bucketsMoved (endBuckets (flipAll y)) = w at hmoved
  have hcmds : w.cm.cmds = y.cm.cmds := (congrArg Core.cmds hmoved).trans (flipAll_cmds y)
  have hmap : w.smap.entries = y.smap.entries.map flipped := (congrArg Core.map hmoved).trans (flipAll_entries y)
  generalize hstep : onStep _ (endLog _ _ w) = z
  obtain ⟨hentries, hstp⟩ := finish_clean_core (z := z) .ok [commitWord z false, BitVec.ofNat 64 ((activeEntries y).length % 2 ^ 9)]
    hcmd hclean (by rw [← hstep]; exact hcmds)
  rw [hentries, hstp, ← hstep]
  exact ⟨hmap, rfl, rfl, rfl⟩

/-- What an undo makes of an entry but for its flip (R397). -/
def cleared (p : Nat × Entry) : Nat × Entry := (p.1, { p.2 with backWritten := false, digest := 0 })

/-- An undo flips the map back, and LAST_COMMIT falls by one (R397). -/
theorem undoNow_undoes {id : Nat} {c : Cmd} {y : Sys} (hcmd : findCmd y id = some c) (hclean : c.wrote = []) :
    (undoNow id y).smap.entries = (y.smap.entries.map flipped).map cleared ∧ (undoNow id y).stp.lastCommit = y.stp.lastCommit - 1 ∧
      (undoNow id y).stp.undoValid = false ∧ (undoNow id y).stp.abortPending = false := by
  have hcmds := flipAll_cmds y
  have hmap := flipAll_entries y
  unfold undoNow
  dsimp only
  generalize flipAll y = w at hcmds hmap
  generalize hstep : onStep _ { endLog _ _ w with smap := _ } = z
  obtain ⟨hentries, hstp⟩ := finish_clean_core (z := z) .ok [commitWord z false, BitVec.ofNat 64 ((activeEntries y).length % 2 ^ 9)]
    hcmd hclean (by rw [← hstep]; exact hcmds)
  rw [hentries, hstp, ← hstep]
  refine ⟨?_, rfl, rfl, rfl⟩
  show w.smap.entries.map cleared = _
  rw [hmap]

theorem flipped_state (p : Nat × Entry) : (flipped p).2.state = p.2.state := (flipped_ranges p).1

theorem flipped_sel (p : Nat × Entry) : (flipped p).2.sel = if p.2.state = .active then !p.2.sel else p.2.sel := by
  unfold flipped; split <;> rfl

/-- Settles O53: a commit and an undo flip the map; every other step keeps the banks. -/
theorem onlyCommitAndUndoFlipTheBanks : Obligations.OnlyCommitAndUndoFlipTheBanks := by
  refine ⟨fun s id c hup hwait hcmd hrunning hclean halone => ?_, fun s t k hs ht hi hact hstay => ?_⟩
  · refine ⟨_, execCommitStart_flips hup hwait hcmd hrunning halone, ?_⟩
    by_cases hop : c.op = 0x0602
    · rw [if_pos hop]
      obtain ⟨hmap, hidle, hlast, hundo⟩ := commitNow_commits hcmd hclean
      have hentry : ∀ k, entryAt (commitNow id s.sys) k = (flipped (k, entryAt s.sys k)).2 := fun k => by
        rw [entryAt, hmap, mapGet_flipped]; rfl
      refine ⟨fun k => ?_, fun _ => ⟨fun k hk => ?_, hidle, hlast, hundo⟩, fun hne => absurd hop hne⟩
      · rw [hentry]
        exact ⟨flipped_state _, flipped_sel _⟩
      · rw [hentry, flipped, if_pos hk]
        exact ⟨rfl, rfl⟩
    · rw [if_neg hop]
      obtain ⟨hmap, hlast, hundo, habort⟩ := undoNow_undoes hcmd hclean
      have hentry : ∀ k, entryAt (undoNow id s.sys) k = (cleared (flipped (k, entryAt s.sys k))).2 := fun k => by
        rw [entryAt, hmap, mapGet_map (g := cleared) (fun _ => rfl) rfl, mapGet_flipped]
        exact congrArg (fun j => (cleared (j, (flipped (k, entryAt s.sys k)).2)).2) (flipped_key (k, entryAt s.sys k)).symm
      refine ⟨fun k => ?_, fun heq => absurd heq hop, fun _ => ⟨fun k => ?_, hlast, hundo, habort⟩⟩
      · rw [hentry]
        exact ⟨flipped_state _, flipped_sel _⟩
      · rw [hentry]
        exact ⟨rfl, rfl⟩
  · exact (step_steady ht hi).2 ((mapLegal_iff s.sys).mp hs) k hact hstay

end Sys2Proof.Laws
end

section
/-! TRANSLATION (O59). Where a legal state map, and the translation that a command began with, take an address. -/

namespace Sys2Proof.Laws

open Sys2Proof Sys2Proof.Machine Sys2Proof.Safety

/-- An address of one range lies in no other that does not overlap it. -/
theorem overlap_inside {b n c m o : Nat} (h : overlap b n c m = false) (ho : o < n) : overlap (b + o) 1 c m = false := by
  simp only [overlap, Bool.and_eq_false_iff, decide_eq_false_iff_not] at h ⊢
  omega

/-! ### One entry (R275) -/

section
variable {e : Entry} {a o : Nat}

theorem entryTakes_outside (hface : overlap a 1 e.face e.length = false) (hback : overlap a 1 e.back e.length = false) :
    entryTakes e a = none := by
  simp only [overlap, Bool.and_eq_false_iff, decide_eq_false_iff_not] at hface hback
  unfold entryTakes
  split
  · rfl
  · rw [if_neg (by omega), if_neg (by omega)]

theorem entryTakes_face (hused : e.state ≠ .free) (ho : o < e.length) :
    entryTakes e (e.face + o) = some (if e.sel then e.back + o else e.face + o) := by
  unfold entryTakes
  rw [if_neg hused, if_pos (by omega), Nat.add_sub_cancel_left]

theorem entryTakes_back (hused : e.state ≠ .free) (hapart : overlap e.face e.length e.back e.length = false) (ho : o < e.length) :
    entryTakes e (e.back + o) = some (if e.sel then e.face + o else e.back + o) := by
  simp only [overlap, Bool.and_eq_false_iff, decide_eq_false_iff_not] at hapart
  unfold entryTakes
  rw [if_neg hused, if_neg (by omega), if_pos (by omega), Nat.add_sub_cancel_left]

end

/-! ### The map -/

theorem translateIn_none {l : SMap Entry} {a : Nat} (h : ∀ p ∈ l, entryTakes p.2 a = none) : translateIn l a = a := by
  induction l with
  | nil => rfl
  | cons p l ih =>
    rw [translateIn, h p List.mem_cons_self]
    exact ih fun q hq => h q (List.mem_cons_of_mem p hq)

/-- An entry that takes an address, where no other entry does, says where it goes. -/
theorem translateIn_taken {l : SMap Entry} {p : Nat × Entry} {a b : Nat} (hp : p ∈ l) (htakes : entryTakes p.2 a = some b)
    (hother : ∀ q ∈ l, q ≠ p → entryTakes q.2 a = none) : translateIn l a = b := by
  induction l with
  | nil => cases hp
  | cons q l ih =>
    by_cases hq : q = p
    · rw [translateIn, hq, htakes]
    · rw [translateIn, hother q List.mem_cons_self hq]
      exact ih ((List.mem_cons.mp hp).resolve_left (Ne.symm hq)) fun r hr => hother r (List.mem_cons_of_mem q hr)

/-- In a legal map one entry holds an address of its ranges (R274). -/
theorem entryTakes_other {y : Sys} {p q : Nat × Entry} {a o : Nat} (hm : mapLegal y) (hp : p ∈ y.smap.entries) (hused : p.2.state ≠ .free)
    (hq : q ∈ y.smap.entries) (hqp : q ≠ p) (ho : o < p.2.length) (ha : a = p.2.face + o ∨ a = p.2.back + o) : entryTakes q.2 a = none := by
  obtain ⟨hrising, -, hapart⟩ := hm
  by_cases hfree : q.2.state = .free
  · exact if_pos hfree
  · have hkey : p.1 ≠ q.1 := fun hk => by
      have hboth : p.2 = q.2 := Option.some.inj
        ((mapFind_of_mem hrising (k := p.1) hp).symm.trans (hk ▸ mapFind_of_mem hrising (k := q.1) hq))
      exact hqp (Prod.ext hk.symm hboth.symm)
    obtain ⟨hff, hfb, hbf, hbb⟩ := hapart p hp q hq hused hfree hkey
    rcases ha with rfl | rfl
    · exact entryTakes_outside (overlap_inside hff ho) (overlap_inside hfb ho)
    · exact entryTakes_outside (overlap_inside hbf ho) (overlap_inside hbb ho)

/-- With no copy kept, the entries alone translate. -/
theorem translateAddr_unviewed {y : Sys} (hview : y.smap.view = []) (a : Nat) : translateAddr y a = translateIn y.smap.entries a := by
  rw [translateAddr, hview]
  rfl

/-! ### The copies that a command keeps (R282) -/

section
variable {x : Sys} {c : Cmd} {f b n o : Nat} {rest : List (Nat × Nat × Nat)}

theorem translate_kept_face (hkept : c.kept = (f, b, n) :: rest) (ho : o < n) : translateAddr (viewed c x) (f + o) = b + o := by
  have hin : translateKept ((f, b, n) :: rest) (f + o) = some (b + o) := by
    rw [translateKept, if_pos (by omega), Nat.add_sub_cancel_left]
  rw [translateAddr, viewed_smap, hkept, hin]
  rfl

theorem translate_kept_back (hkept : c.kept = (f, b, n) :: rest) (ho : o < n) (hout : overlap (b + o) 1 f n = false) :
    translateAddr (viewed c x) (b + o) = f + o := by
  simp only [overlap, Bool.and_eq_false_iff, decide_eq_false_iff_not] at hout
  have hin : translateKept ((f, b, n) :: rest) (b + o) = some (f + o) := by
    rw [translateKept, if_neg (by omega), if_pos (by omega), Nat.add_sub_cancel_left]
  rw [translateAddr, viewed_smap, hkept, hin]
  rfl

end

/-- A running command keeps the copies of an entry that is freed with SEL 1 (R282). -/
theorem keepView_keeps {y : Sys} {c : Cmd} {e : Entry} (hrun : c.phase = .running) (hc : c ∈ y.cm.cmds) (hsel : e.sel = true) :
    { c with kept := (e.face, e.back, e.length) :: c.kept } ∈ (keepView e y).cm.cmds := by
  unfold keepView
  rw [if_pos hsel]
  exact List.mem_map.mpr ⟨c, hc, if_pos hrun⟩

/-- Settles O59: by the one entry that holds an address, and by the copies kept. -/
theorem translationReachesACopy : Obligations.TranslationReachesACopy := by
  refine ⟨fun y e k o hm hview he hused ho => ?_, fun y a hview hout => ?_, fun y c e o hrun hc hsel ho => ?_⟩
  · obtain ⟨-, -, -, -, -, -, -, -, -, -, hapart, -⟩ := hm.2.1 (k, e) he hused
    rw [translateAddr_unviewed hview, translateAddr_unviewed hview]
    exact ⟨translateIn_taken he (entryTakes_face hused ho) fun q hq hne => entryTakes_other hm he hused hq hne ho (.inl rfl),
      translateIn_taken he (entryTakes_back hused hapart ho) fun q hq hne => entryTakes_other hm he hused hq hne ho (.inr rfl)⟩
  · rw [translateAddr_unviewed hview]
    refine translateIn_none fun p hp => ?_
    by_cases hfree : p.2.state = .free
    · exact if_pos hfree
    · exact entryTakes_outside (hout p hp hfree).1 (hout p hp hfree).2
  · exact ⟨_, keepView_keeps hrun hc hsel, rfl, fun x =>
      ⟨translate_kept_face rfl ho, fun hout => translate_kept_back rfl ho hout⟩⟩

end Sys2Proof.Laws
end

section
/-! MICROPROGRAM INSTRUCTIONS (O26). A microprogram instruction takes effect where its run stands at it; a MICRO_END whose accesses go to a
retraining channel waits. -/

namespace Sys2Proof.Laws

open Sys2Proof Sys2Proof.Machine Sys2Proof.Safety

/-- The instruction that a run stands at has its effect. -/
theorem microRow_at {op die : Nat} {s : State} {id : Nat} {o : UpdOp} {w : Word32} {r : MicroRun}
    {f : Nat → UpdOp → Word32 → MicroRun → Sys → Sys} (h : AtMicro op die s id o w r) : microRow die op f s.sys = f id o w r s.sys := by
  obtain ⟨rfl, hcmd, ⟨c, hfind, rfl⟩, rfl, hup, hop⟩ := h
  unfold microRow
  dsimp only
  rw [hcmd]
  dsimp only
  rw [hfind]
  dsimp only
  rw [if_neg]
  rintro (hdown | hne)
  · exact Bool.noConfusion (hup.symm.trans hdown)
  · exact hne hop

/-- A MICRO_END whose accesses go to a retraining channel waits (R254). -/
theorem execMicroEnd_waits {die : Nat} {s : State} {id : Nat} {o : UpdOp} {w : Word32} {r : MicroRun} (h : AtMicro 0x3F die s id o w r)
    (hheld : anyHeld s.sys (endRangesMicro o r.elem) = true) : execMicroEnd die s = onward s s.sys := by
  refine onSys_eq ?_
  rw [microRow_at h]
  exact if_pos hheld

/-- The run of a die after it is replaced. -/
theorem microAt_setMicro (die : Nat) (r : MicroRun) (y : Sys) : microAt (setMicro die r y) die = r :=
  (mapGet_set ({} : MicroRun) y.upd.runs die die r).trans (if_pos rfl)

/-- An UPD_RUN of two elements by the microprogram of slot 0, whose master and back copies lie at 0 and at 65536. -/
def updPacket : Packet := { params := [0x80220000, 2, 0x100000, 0, 65536, 128, 65664, 256, 65792, 0, 0, 0, 0, 0, 0, 0] }

/-- Its run at the MICRO_END of element 0, while the channel that holds the back copies retrains. -/
def microInRetraining : State := { sys := {
  pwr := { phase := .ready },
  smap := { entries := [(0, { state := .active, face := 0, back := 65536, length := 65536 })] },
  cm := { cmds := [{ id := 0, op := 0x0500, pkt := updPacket, creel := 0, lane := 0, phase := .running }], nextId := 1 },
  mem := { retrain := some { cmd := 1, stack := 0, channel := 1, start := 0 } },
  upd := { slots := [(0, [0xFC000000])], runs := [(0, { cmd := some 0 })] } } }

theorem microInRetraining_at : AtMicro 0x3F 0 microInRetraining 0 (updOf updPacket) 0xFC000000 { cmd := some 0 } :=
  ⟨rfl, rfl, ⟨_, rfl, rfl⟩, by decide +kernel, rfl, by decide +kernel⟩

theorem microInRetraining_held : anyHeld microInRetraining.sys (endRangesMicro (updOf updPacket) 0) = true := by decide +kernel

/-- Refutes O26: a MICRO_END does nothing while a channel that it accesses retrains (R254), which nothing in the statement excludes. -/
theorem not_microInstructionsComplete : ¬ Obligations.MicroInstructionsComplete := by
  intro h
  obtain ⟨-, -, -, -, -, -, -, -, -, -, -, -, -, hend⟩ := h 0 microInRetraining 0 (updOf updPacket) 0xFC000000 { cmd := some 0 }
  have hnext : execMicroEnd 0 microInRetraining = _ := (hend microInRetraining_at).1 (by decide +kernel)
  rw [execMicroEnd_waits microInRetraining_at microInRetraining_held] at hnext
  injection hnext with hstate
  have hrun := congrArg (fun t : State => (microAt t.sys 0).elem) hstate
  dsimp only at hrun
  rw [microAt_setMicro] at hrun
  exact absurd hrun (by decide)

end Sys2Proof.Laws
end

section
/-! STATE MAP AND CENSUS COMMANDS (O13). The checks of each command pass, and what it does then. -/

namespace Sys2Proof.Laws

open Sys2Proof Sys2Proof.Machine Sys2Proof.Safety

section
variable {op : Nat} {layout : List Nat} {bad : Bool} {pk : Packet} {s : State} {z : Sys} {c : Cmd}

theorem entryAt_met (h : Meets op layout bad pk s z c) (k : Nat) : entryAt z k = entryAt s.sys k := entryAt_congr (meets_smap h) k

theorem entryAt_taken (h : Meets op layout bad pk s z c) (k : Nat) : entryAt (taken c z) k = entryAt s.sys k :=
  entryAt_congr (taken_smap h) k

theorem badEntryRanges_met (h : Meets op layout bad pk s z c) (face back len : Nat) :
    badEntryRanges z face back len = badEntryRanges s.sys face back len := by
  simp only [badEntryRanges, mapHit_congr (meets_smap h)]

theorem censusSlot_taken (h : Meets op layout bad pk s z c) (slot : Nat) : censusSlot (taken c z) slot = censusSlot s.sys slot := by
  unfold censusSlot
  rw [taken_cen h]

theorem censusRecord_taken (h : Meets op layout bad pk s z c) (slot : Nat) : censusRecord (taken c z) slot = censusRecord s.sys slot := by
  unfold censusRecord censusCtl
  rw [censusSlot_taken h, taken_cen h]

end

/-! ### STATE_SET (R282, R283) -/

section
variable {pk : Packet} {s : State} {z : Sys} {c : Cmd}

/-- What the STATE_SET statements ask of each action: the packet meets its unit outside a shadow and no weave sends. -/
abbrev StateSetMeets (pk : Packet) (s : State) (z : Sys) (c : Cmd) : Prop :=
  Meets 0x0520 [bits [(24, 4), (16, 2), (0, 8)], allBits, allBits, bits [(0, 40)]]
    (badCode pk 0 24 4 [0, 1, 2, 3, 4] || badCode pk 0 16 2 [0, 1, 2]) pk s z c ∧ c.shadow = false ∧ weaveSender s.sys = false

theorem weaveSender_met (h : StateSetMeets pk s z c) : weaveSender z = false :=
  (weaveSender_congr (meets_stp h.1)).trans h.2.2

/-- A LOAD of a FREE entry whose ranges R274 allows. -/
theorem execStateSet_loads (h : StateSetMeets pk s z c) (hload : pf pk 0 16 2 = 0) (hfree : (entryAt s.sys (pf pk 0 0 8)).state = .free)
    (hranges : badEntryRanges s.sys (pw pk 1) (pw pk 2) (pf pk 3 0 40) = false) :
    execStateSet pk s = onward s (finish c.id .ok [] (setEntry (pf pk 0 0 8)
      { state := .loading, face := pw pk 1, back := pw pk 2, length := pf pk 3 0 40, kind := pf pk 0 24 4 } (taken c z))) := by
  have hsender := weaveSender_met h
  obtain ⟨hmet, hshadow, -⟩ := h
  unfold execStateSet
  rw [hload]
  refine onSys_eq (execCommand_go hmet rfl ?_)
  refine firstFail_cons rfl (firstFail_cons hshadow (firstFail_cons hsender (firstFail_cons ?_ (firstFail_cons rfl
    (firstFail_cons rfl rfl)))))
  rw [entryAt_met hmet, hfree, badEntryRanges_met hmet, hranges]
  rfl

/-- The operands of ACTIVATE and FREE are zero (R283). -/
theorem entryOperands_zero (hface : pw pk 1 = 0) (hback : pw pk 2 = 0) (hlen : pf pk 3 0 40 = 0) (hkind : pf pk 0 24 4 = 0) :
    (pw pk 1 != 0 || pw pk 2 != 0 || pf pk 3 0 40 != 0 || pf pk 0 24 4 != 0) = false := by
  rw [hface, hback, hlen, hkind]
  rfl

/-- An ACTIVATE of a LOADING entry. -/
theorem execStateSet_activates (h : StateSetMeets pk s z c)
    (hzero : (pw pk 1 != 0 || pw pk 2 != 0 || pf pk 3 0 40 != 0 || pf pk 0 24 4 != 0) = false) (hact : pf pk 0 16 2 = 1)
    (hloading : (entryAt s.sys (pf pk 0 0 8)).state = .loading) :
    execStateSet pk s = onward s (finish c.id .ok [] (setEntry (pf pk 0 0 8)
      { entryAt s.sys (pf pk 0 0 8) with state := .active } (taken c z))) := by
  have hsender := weaveSender_met h
  obtain ⟨hmet, hshadow, -⟩ := h
  unfold execStateSet
  rw [hact]
  refine onSys_eq ((execCommand_go hmet rfl ?_).trans ?_)
  · refine firstFail_cons hzero (firstFail_cons hshadow (firstFail_cons hsender (firstFail_cons rfl (firstFail_cons ?_
      (firstFail_cons rfl rfl)))))
    rw [entryAt_met hmet, hloading]
    rfl
  · dsimp only
    rw [entryAt_taken hmet]
    rfl

/-- A FREE of an entry that is not ACTIVE while a step is open. -/
theorem execStateSet_frees (h : StateSetMeets pk s z c)
    (hzero : (pw pk 1 != 0 || pw pk 2 != 0 || pf pk 3 0 40 != 0 || pf pk 0 24 4 != 0) = false) (hfree : pf pk 0 16 2 = 2)
    (hidle : (entryAt s.sys (pf pk 0 0 8)).state = .active → s.sys.stp.state = .idle) :
    execStateSet pk s = onward s (finish c.id .ok [] (setEntry (pf pk 0 0 8) {} (keepView (entryAt s.sys (pf pk 0 0 8)) (taken c z)))) := by
  have hsender := weaveSender_met h
  obtain ⟨hmet, hshadow, -⟩ := h
  unfold execStateSet
  rw [hfree]
  refine onSys_eq ((execCommand_go hmet rfl ?_).trans ?_)
  · refine firstFail_cons hzero (firstFail_cons hshadow (firstFail_cons hsender (firstFail_cons rfl (firstFail_cons rfl
      (firstFail_cons ?_ rfl)))))
    rw [entryAt_met hmet]
    by_cases hactive : (entryAt s.sys (pf pk 0 0 8)).state = .active
    · rw [stepOpen_of_idle ((congrArg StepSt.state (meets_stp hmet)).trans (hidle hactive)), Bool.and_false]
    · rw [beq_eq_false_iff_ne.mpr hactive]
      rfl
  · dsimp only
    rw [entryAt_taken hmet]
    rfl

end

/-- Settles O13: the checks of each command pass, so it is taken up; what it reads stands as before the packet met its unit. -/
theorem mapAndCensusCommandsComplete : Obligations.MapAndCensusCommandsComplete := by
  unfold Obligations.MapAndCensusCommandsComplete
  refine ⟨?stateSet, ?stateRead, ?censusClear, ?censusRead⟩
  case stateSet =>
    intro pk s z c hmet
    dsimp only
    intro hshadow hweave
    have h : StateSetMeets pk s z c := ⟨hmet, hshadow, hweave⟩
    refine ⟨fun hload hfree hranges => execStateSet_loads h hload hfree hranges, fun hface hback hlen hkind => ?_⟩
    have hzero := entryOperands_zero hface hback hlen hkind
    exact ⟨fun hact hloading => execStateSet_activates h hzero hact hloading, fun hfree hidle => execStateSet_frees h hzero hfree hidle⟩
  case stateRead =>
    intro pk s z c hmet
    change execStateRead pk s = _
    unfold execStateRead
    refine onSys_eq ((execCommand_go hmet rfl rfl).trans ?_)
    rw [entryAt_taken hmet]
  case censusClear =>
    intro pk s z c hmet
    dsimp only
    intro hfirst hrange hlast
    change execCensusClear pk s = _
    unfold execCensusClear
    refine onSys_eq ((execCommand_go hmet rfl (firstFail_cons ?_ rfl)).trans ?_)
    · simp only [Bool.or_eq_false_iff, beq_eq_false_iff_ne, decide_eq_false_iff_not]
      omega
    · dsimp only
      rw [taken_cen hmet]
  case censusRead =>
    intro pk s z c hmet
    dsimp only
    intro hfirst hlast haligned hrange hheld hface
    change execCensusRead pk s = _
    unfold execCensusRead
    refine onSys_eq ((execCommand_go hmet ?_ (firstFail_cons ?_ (firstFail_cons ?_ rfl))).trans ?_)
    · rw [rangeHeld_met hmet, hheld]
      rfl
    · simp only [Bool.or_eq_false_iff, beq_eq_false_iff_ne, decide_eq_false_iff_not]
      omega
    · rw [haligned, hrange]
      rfl
    · rw [protectedHit_taken hmet, hface, if_neg Bool.false_ne_true, censusSlot_taken hmet, censusRecord_taken hmet]

end Sys2Proof.Laws
end

section
/-! BOBBIN COMMANDS (O12). Conversions, gathers and scatter-adds: the checks pass, and what they do then. -/

namespace Sys2Proof.Laws

open Sys2Proof Sys2Proof.Machine Sys2Proof.Safety

section
variable {op : Nat} {layout : List Nat} {bad : Bool} {pk : Packet} {s : State} {z : Sys} {c : Cmd}

theorem dieIdle_met (h : Meets op layout bad pk s z c) (die : Nat) : dieIdle z die = dieIdle s.sys die := by
  unfold dieIdle microAt
  rw [meets_upd h]

theorem rowScalars_taken (h : Meets op layout bad pk s z c) (f : Fmt) (a n : Nat) :
    rowScalars (taken c z) f a n = rowScalars s.sys f a n := by
  simp only [rowScalars, readBytes_taken h]

theorem rowElems_taken (h : Meets op layout bad pk s z c) (f : Fmt) (a b n : Nat) :
    rowElems (taken c z) f a b n = rowElems s.sys f a b n := by
  simp only [rowElems, rowBlocks, rowScalars_taken h, readBytes_taken h, readByte_congr (taken_mem h) (taken_smap h)]

theorem convRows_taken (h : Meets op layout bad pk s z c) (o : ConvOp) : convRows (taken c z) o = convRows s.sys o := by
  simp only [convRows, rowElems_taken h]

theorem rowIndex_taken (h : Meets op layout bad pk s z c) (o : RowOp) (r : Nat) : rowIndex (taken c z) o r = rowIndex s.sys o r :=
  readNat_taken h _ _

theorem denseRow_taken (h : Meets op layout bad pk s z c) (o : RowOp) (r : Nat) : denseRow (taken c z) o r = denseRow s.sys o r := by
  simp only [denseRow, rowScalars_taken h]

end

/-- Where every index lies in the table, every row is done (R305). -/
theorem rowsToDo_all {o : RowOp} {y : Sys} : ∀ {n : Nat}, (∀ p ∈ (List.range n).map (fun r => (r, rowIndex y o r)), p.2 < o.tableRows) →
    rowsToDo o n y = ((List.range n).map (fun r => (r, rowIndex y o r)), y)
  | 0, _ => rfl
  | n + 1, h => by
    rw [List.range_succ, List.map_append] at h ⊢
    have hn := h (n, rowIndex y o n) (List.mem_append_right _ (List.mem_singleton.mpr rfl))
    rw [rowsToDo, rowsToDo_all fun p hp => h p (List.mem_append_left _ hp)]
    exact if_pos hn

/-- Settles O12: the checks of each command pass, so it is taken up; what it reads stands as before the packet met its unit, and every row
is done. The spare nibble that a 4-bit format writes is the model's choice (log 106), as is minus infinity in an unsigned format (log 104). -/
theorem bobbinCommandsComplete : Obligations.BobbinCommandsComplete := by
  unfold Obligations.BobbinCommandsComplete
  refine ⟨?convert, ?gather, ?scatter⟩
  case convert =>
    intro pk s z c hmet
    dsimp only
    intro hdie hpair hrows hrows' hn hn' hslot hsrc hdst hsrcAddr hdstAddr hidle hview hheld hface hclean
    change execBobConvert pk s = _
    unfold execBobConvert
    refine onSys_eq ((execCommand_go hmet ?_ ?_).trans ?_)
    · rw [dieIdle_met hmet, anyHeld_met hmet, hidle, hheld]
      rfl
    · refine firstFail_cons (decide_eq_false (Nat.not_lt.mpr hdie)) (firstFail_cons (by rw [hpair]; rfl) (firstFail_cons ?_
        (firstFail_cons hview (firstFail_cons (by rw [hsrcAddr, hdstAddr]; rfl) rfl))))
      rw [hsrc, hdst]
      simp only [Bool.or_false, Bool.or_eq_false_iff, beq_eq_false_iff_ne, decide_eq_false_iff_not]
      omega
    · have hfree : (convWrites (convOf pk) (convRows s.sys (convOf pk))).any
          (fun w => protectedHit (taken c z) (backIsFace c) w.1 w.2.length) = false := by
        rw [List.any_eq_false]
        intro w hw
        rw [protectedHit_taken hmet, hface w hw]
        exact Bool.false_ne_true
      dsimp only
      rw [convRows_taken hmet, hfree, if_neg Bool.false_ne_true, hclean]
  case gather =>
    intro pk s z c hmet
    dsimp only
    intro hdie hfmt hexp hlen hchecks hidle hheld hface hindices hinside hclean
    change execBobGather pk s = _
    unfold execBobGather
    have hdone := rowsToDo_all (o := rowOf pk) (y := taken c z) (n := (rowOf pk).rows) (by simpa only [rowIndex_taken hmet] using hinside)
    simp only [rowIndex_taken hmet] at hdone
    refine onSys_eq ((execCommand_go hmet ?_ (firstFail_append (firstFail_cons ?_ (firstFail_cons ?_ rfl)) hchecks)).trans ?_)
    · rw [dieIdle_met hmet, anyHeld_met hmet, hidle, hheld]
      rfl
    · exact decide_eq_false (Nat.not_lt.mpr hdie)
    · rw [hfmt, hexp, hlen]
      rfl
    · dsimp only
      rw [protectedHit_taken hmet, hface, if_neg Bool.false_ne_true, hindices]
      dsimp only
      rw [hdone, hclean]
      dsimp only
      rw [if_pos (by rw [List.length_map, List.length_range])]
      simp only [readBytes_taken hmet]
  case scatter =>
    intro pk s z c hmet
    dsimp only
    intro hdie hfmt hlo hhi hchecks hidle hheld hface hindices hinside hclean
    change execBobScatterAdd pk s = _
    unfold execBobScatterAdd
    have hdone := rowsToDo_all (o := rowOf pk) (y := taken c z) (n := (rowOf pk).rows) (by simpa only [rowIndex_taken hmet] using hinside)
    simp only [rowIndex_taken hmet] at hdone
    refine onSys_eq ((execCommand_go hmet ?_ (firstFail_append (firstFail_cons ?_ (firstFail_cons ?_ (firstFail_cons ?_ rfl))) hchecks)).trans ?_)
    · rw [dieIdle_met hmet, anyHeld_met hmet, hidle, hheld]
      rfl
    · exact decide_eq_false (Nat.not_lt.mpr hdie)
    · simp only [List.mem_cons, List.not_mem_nil, or_false] at hfmt
      rcases hfmt with hfmt | hfmt <;> rw [hfmt] <;> rfl
    · simp only [Bool.or_eq_false_iff, decide_eq_false_iff_not]
      omega
    · dsimp only
      rw [protectedHit_taken hmet, hface, if_neg Bool.false_ne_true, hindices]
      dsimp only
      rw [hdone, hclean]
      dsimp only
      rw [if_pos (by rw [List.length_map, List.length_range])]
      simp only [denseRow_taken hmet]

end Sys2Proof.Laws
end

section
/-! UPDATE COMMANDS (O11). Updates and the loading of their microprograms: the checks pass, and what they do then. -/

namespace Sys2Proof.Laws

open Sys2Proof Sys2Proof.Machine Sys2Proof.Safety

section
variable {op : Nat} {layout : List Nat} {bad : Bool} {pk : Packet} {s : State} {z : Sys} {c : Cmd}

theorem mapped_met (h : Meets op layout bad pk s z c) (n : Nat) (a : UpdArray) : mapped z n a = mapped s.sys n a := by
  unfold mapped
  rw [meets_smap h]

theorem overBack_met (h : Meets op layout bad pk s z c) (a n : Nat) : overBack z a n = overBack s.sys a n := by
  unfold overBack
  rw [meets_smap h]

end

/-! ### The checks of UPD_RUN (R287 to R289) -/

section
variable {o : UpdOp} {y : Sys}

/-- The fields of an update pass (R287, R288). -/
theorem updFields_pass (hlo : 1 ≤ o.count) (hhi : o.count ≤ 2 ^ 36) (hexpLo : -256 ≤ o.gexp) (hexpHi : o.gexp ≤ 255)
    (hexp : o.gf64 = false → o.gexp = 0) (hunused : badUnused o = false) (hconsts : ∀ i ∈ usedConsts o, f32IsFinite (cst o i) = true)
    (hnesterov : o.nesterov = true → o.prog = 1) (hslot : o.slot ≤ 0x3FF) :
    (o.count == 0 || decide (2 ^ 36 < o.count) || decide (o.gexp < -256) || decide (255 < o.gexp) || (!o.gf64 && o.gexp != 0) ||
      badUnused o || (usedConsts o).any (fun i => !f32IsFinite (cst o i)) || (o.nesterov && o.prog != 1) ||
      decide (0x3FF < o.slot)) = false := by
  have hfinite : (usedConsts o).any (fun i => !f32IsFinite (cst o i)) = false := by
    rw [List.any_eq_false]
    intro i hi
    rw [hconsts i hi]
    exact Bool.false_ne_true
  have hgrid : (!o.gf64 && o.gexp != 0) = false := by
    cases hg : o.gf64 with
    | true => rfl
    | false => rw [hexp hg]; rfl
  have hprog : (o.nesterov && o.prog != 1) = false := by
    cases hn : o.nesterov with
    | true => rw [hnesterov hn]; rfl
    | false => rfl
  rw [hfinite, hgrid, hprog, hunused]
  simp only [Bool.or_false, Bool.or_eq_false_iff, beq_eq_false_iff_ne, decide_eq_false_iff_not]
  omega

/-- The arrays of an update lie in its die's stack (R289). -/
theorem updArrays_pass (haligned : aligned64 o.grad = true) (hgrad : inStack o.die o.grad (o.count * gradSize o) = true)
    (harrays : ∀ a ∈ usedArrays o, aligned64 a.face = true ∧ aligned64 a.back = true ∧ inStack o.die a.face (o.count * a.size) = true ∧
      inStack o.die a.back (o.count * a.size) = true ∧ mapped y o.count a = true) :
    (!aligned64 o.grad || !inStack o.die o.grad (o.count * gradSize o) ||
      (usedArrays o).any (fun a => !aligned64 a.face || !aligned64 a.back || !inStack o.die a.face (o.count * a.size) ||
        !inStack o.die a.back (o.count * a.size))) = false := by
  have hused : (usedArrays o).any (fun a => !aligned64 a.face || !aligned64 a.back || !inStack o.die a.face (o.count * a.size) ||
      !inStack o.die a.back (o.count * a.size)) = false := by
    rw [List.any_eq_false]
    intro a ha
    obtain ⟨hface, hback, hfaceIn, hbackIn, -⟩ := harrays a ha
    rw [hface, hback, hfaceIn, hbackIn]
    exact Bool.false_ne_true
  rw [hused, haligned, hgrad]
  rfl

/-- The arrays of an update are mapped, and its gradient lies clear of the back ranges (R289). -/
theorem updMap_pass (hover : overBack y o.grad (o.count * gradSize o) = false) (hmapped : ∀ a ∈ usedArrays o, mapped y o.count a = true) :
    ((usedArrays o).any (fun a => !mapped y o.count a) || overBack y o.grad (o.count * gradSize o)) = false := by
  rw [hover, Bool.or_false, List.any_eq_false]
  intro a ha
  rw [hmapped a ha]
  exact Bool.false_ne_true

/-- An update whose writes meet no face range, and whose operands hold no poison, begins its program (R290, R301). -/
theorem updRun_clean {c : Cmd} (hface : ∀ a ∈ usedArrays o, (isMicro o = false ∨ a.back ≠ 0) →
      protectedHit y (backIsFace c) a.back (o.count * a.size) = false) (hclean : consumeAll 3 y (updRanges o) = none) :
    updRun c o y =
      if isMicro o then setMicro o.die (microBegin o 0 { cmd := some c.id, ls := y.upd.lossScale } y) y
      else updFinish c.id o y.upd.lossScale (builtinLoop c.id o y.upd.lossScale.toInt o.count 0 {} y).1
        (builtinLoop c.id o y.upd.lossScale.toInt o.count 0 {} y).2 := by
  have hfree : (usedArrays o).any (fun a => (!isMicro o || a.back != 0) &&
      protectedHit y (backIsFace c) a.back (o.count * a.size)) = false := by
    rw [List.any_eq_false]
    intro a ha hhit
    simp only [Bool.and_eq_true, Bool.or_eq_true, Bool.not_eq_true', bne_iff_ne] at hhit
    exact Bool.false_ne_true ((hface a ha hhit.1).symm.trans hhit.2)
  unfold updRun
  dsimp only
  rw [hfree, if_neg Bool.false_ne_true, hclean]

end

/-- Settles O11: the checks of each command pass, so it is taken up; what it reads stands as before the packet met its unit. -/
theorem updateCommandsComplete : Obligations.UpdateCommandsComplete := by
  unfold Obligations.UpdateCommandsComplete
  refine ⟨?run, ?load⟩
  case run =>
    intro pk s z c hmet
    dsimp only
    intro hdie hfmt hlo hhi hexpLo hexpHi hexp hunused hconsts hnesterov hslot hview haligned hgrad harrays hover hshadow hidle hheld
      hface hclean
    have htaken : ((isMicro (updOf pk) && mapGet [] s.sys.upd.slots ((updOf pk).prog - 0x80) == []) = false) →
        exec (.updRun pk) s = onward s (updRun c (updOf pk) (taken c z)) := by
      intro hfull
      change execUpdRun pk s = _
      unfold execUpdRun
      refine onSys_eq (execCommand_go hmet ?_ ?_)
      · rw [dieIdle_met hmet, anyHeld_met hmet, hidle, hheld]
        rfl
      · refine firstFail_cons (decide_eq_false (Nat.not_lt.mpr hdie)) (firstFail_cons ?_
          (firstFail_cons (updFields_pass hlo hhi hexpLo hexpHi hexp hunused hconsts hnesterov hslot) (firstFail_cons hview
          (firstFail_cons (updArrays_pass haligned hgrad harrays) (firstFail_cons hshadow (firstFail_cons ?_ (firstFail_cons ?_ rfl)))))))
        · simp only [List.mem_cons, List.not_mem_nil, or_false] at hfmt
          rcases hfmt with hfmt | hfmt <;> rw [hfmt] <;> rfl
        · rw [meets_upd hmet]
          exact hfull
        · refine updMap_pass ((overBack_met hmet _ _).trans hover) fun a ha => ?_
          obtain ⟨-, -, -, -, hmapped⟩ := harrays a ha
          exact (mapped_met hmet _ a).trans hmapped
    have hwork := updRun_clean (c := c) (y := taken c z)
      (fun a ha hwrites => (protectedHit_taken hmet _ _ _).trans (hface a ha hwrites)) hclean
    rw [taken_upd hmet] at hwork
    refine ⟨fun hbuiltin => ?_, fun hmicro hloaded => ?_⟩
    · rw [htaken (by rw [hbuiltin]; rfl), hwork, hbuiltin]
      rfl
    · rw [htaken (by rw [beq_eq_false_iff_ne.mpr hloaded, Bool.and_false]), hwork, if_pos hmicro]
  case load =>
    intro pk s z c hmet
    dsimp only
    intro hlo hhi hview haligned hrange hheld huse hclean hclean' hlegal
    change execUpdMicroLoad pk s = _
    unfold execUpdMicroLoad
    refine onSys_eq ((execCommand_go hmet ?_ ?_).trans ?_)
    · rw [rangeHeld_met hmet, huse, hheld]
      rfl
    · have hpass : firstFail [(pf pk 0 8 7 == 0 || decide (64 < pf pk 0 8 7), Status.paramRange),
          (fileClosed s.perm [(pw pk 1, 4 * pf pk 0 8 7)], .debugClosed),
          (!aligned64 (pw pk 1) || !inDram (pw pk 1) (4 * pf pk 0 8 7), .addrRange)] = none := by
        refine firstFail_cons ?_ (firstFail_cons hview (firstFail_cons (by rw [haligned, hrange]; rfl) rfl))
        simp only [Bool.or_eq_false_iff, beq_eq_false_iff_ne, decide_eq_false_iff_not]
        omega
      dsimp only
      rw [hpass, hclean, readBytes_met hmet, hlegal]
      rfl
    · dsimp only
      rw [hclean', readBytes_taken hmet, taken_upd hmet]

end Sys2Proof.Laws
end

section
/-! POWER (O44). PERST_N, VAUX, the boot ROM stage, boot stage 1 and the shutdown: what each makes of the device. -/

namespace Sys2Proof.Laws

open Sys2Proof Sys2Proof.Machine Sys2Proof.Safety

/-! ### Stage 0 (R50, R586) -/

/-- Stage 0 passes where the headstock's test and its boot ROM do, and is otherwise without effect (R586). -/
theorem stageZero_eq (r : HeadTest) (h : Nat) (y : Sys) :
    stageZero r h y = ((if r.selfTest then bootRom r.bad h y else none).isSome, (if r.selfTest then bootRom r.bad h y else none).getD y) := by
  unfold stageZero
  split
  · next hz => rw [hz]; rfl
  · next hz => rw [hz]; rfl

/-! ### What the end of a session leaves (R469) -/

section
variable (svc : Bool) (y : Sys)

theorem sendPlain_t (p : Port) (typ : Nat) (payload : List Byte) : (sendPlain svc p typ payload y).t = y.t := by
  unfold sendPlain
  rw [noteTx_t, setSess_t]

theorem disarm_t : (disarm svc y).t = y.t := by
  unfold disarm; split <;> rfl

theorem sessionEnded_t (reason : Nat) : (sessionEnded svc reason y).t = y.t := by
  unfold sessionEnded
  dsimp only
  rw [setSess_t, disarm_t, recordEvent_nv]
  exact sendPlain_t svc y _ _ _

theorem endOpen_t : (endOpen svc y).t = y.t := by
  unfold endOpen
  split
  · exact sessionEnded_t svc y _
  · rfl

end

/-! ### The end of a shutdown (R625; log 67) -/

section
variable (h : Nat) (y : Sys)

theorem ownOf_markClean : (ownOf (markClean h y) h).clean = true := by
  unfold markClean ownOf onOwn
  rw [mapGet_mod, if_pos rfl]

theorem finishShutdown_t : (finishShutdown y).t = y.t := by
  unfold finishShutdown; split <;> rfl

/-- The end of a shutdown marks the active headstock clean. -/
theorem finishShutdown_clean : (ownOf (finishShutdown y) (finishShutdown y).hs.active).clean = true := by
  have hmarked : ∀ z : Sys, z.hs = y.hs → (ownOf (markClean y.hs.active z) (markClean y.hs.active z).hs.active).clean = true := by
    intro z hz
    have hhs : (markClean y.hs.active z).hs = y.hs := hz
    rw [hhs]
    exact ownOf_markClean _ z
  unfold finishShutdown
  split
  · exact hmarked (markClean _ y) rfl
  · exact hmarked y rfl

end

/-- Where nothing is due and no handover waits, a nanosecond continues a shutdown in progress (R475, R625; log 67). -/
theorem tickSys_shutDown {y : Sys} (hup : answers y = true) (hsched : y.t.sched = []) (hreads : y.obs.reads = [])
    (hhandover : y.cm.handover = none) (hbegun : y.pwr.sdSource ≠ 0) (hgoes : y.pwr.sdDone = false) :
    ∃ z : Sys, z.t = y.t ∧ tickSys y = { finishShutdown z with t := { y.t with timeBase := (y.t.timeBase + 1) % 2 ^ 64 } } := by
  have hdue : dueAdvances y = y := by
    rw [dueAdvances, hsched]
    rfl
  have hheld : y.pwr.phase ≠ .held := by
    intro hp
    rw [answers, hp] at hup
    exact Bool.noConfusion hup
  refine ⟨endOpen true (endOpen false { y with obs := { y.obs with reads := [] } }), ?_, ?_⟩
  · rw [endOpen_t, endOpen_t]
  · unfold tickSys
    rw [if_neg hheld, hdue, serveReads, hreads]
    have hover : tryHandOver { y with obs := { y.obs with reads := [] } } = { y with obs := { y.obs with reads := [] } } := by
      rw [tryHandOver, hhandover]
    have hcontinue : ¬(y.pwr.sdSource = 0 ∨ y.pwr.sdDone = true ∨ answers { y with obs := { y.obs with reads := [] } } = false) := by
      rintro (hs | hd | ha)
      · exact hbegun hs
      · exact Bool.noConfusion (hgoes.symm.trans hd)
      · exact Bool.noConfusion (hup.symm.trans ha)
    rw [List.foldl_nil, hover, continueShutdown, if_neg hcontinue]
    dsimp only
    rw [finishShutdown_t, endOpen_t, endOpen_t]

/-- Settles O44: by the branches of each event, and by the nanosecond that ends a shutdown. -/
theorem powerEventsComplete : Obligations.PowerEventsComplete := by
  unfold Obligations.PowerEventsComplete
  refine ⟨fun s ns => ⟨?assert, ?short⟩, fun s => rfl, ?rise, ?release, ?boot, ?pin, ?shutdown⟩
  case assert =>
    intro hns
    change execPerstNAssert ns s = _
    unfold execPerstNAssert
    refine onSys_eq ?_
    rw [if_neg (by omega), if_pos hns]
    rfl
  case short =>
    intro hns
    change execPerstNAssert ns s = _
    unfold execPerstNAssert
    exact onSys_eq (if_pos hns)
  case rise =>
    intro s hvaux
    change execVauxRise s = _
    unfold execVauxRise
    exact onSys_eq (if_neg (Bool.eq_false_iff.mp hvaux))
  case release =>
    intro s hs0 hs1 hheld hvaux
    dsimp only
    change execPerstNRelease hs0 hs1 s = _
    unfold execPerstNRelease
    refine onSys_eq ((if_pos (by rw [hheld, hvaux]; rfl)).trans ?_)
    simp only [stageZero_eq]
  case boot =>
    intro s failing badA badB hstage hsource
    change execBootStage1 failing badA badB s = _
    unfold execBootStage1
    refine onAll_eq ?_
    rw [hstage, hsource]
    rfl
  case pin =>
    intro s ns hup hns
    change execShdnReqN ns s = _
    unfold execShdnReqN
    exact onSys_eq (if_pos (by rw [hup, decide_eq_true hns]; rfl))
  case shutdown =>
    intro s hempty hup hsched hreads hhandover hbegun hgoes
    obtain ⟨z, hz, htick⟩ := tickSys_shutDown hup hsched hreads hhandover hbegun hgoes
    refine ⟨_, step_nil hempty, ?_⟩
    rw [htick]
    exact ⟨rfl, rfl, rfl, finishShutdown_clean z, rfl⟩

end Sys2Proof.Laws
end

section
/-! HEADSTOCKS (O42). Faults, takeovers and resets of headstocks: the branch that each event takes. -/

namespace Sys2Proof.Laws

open Sys2Proof Sys2Proof.Machine Sys2Proof.Safety

/-! ### What leaves the headstock state as it is -/

section
variable (y : Sys)

theorem recordEvent_hs (severity code source data : Nat) : (recordEvent severity code source data y).hs = y.hs := by
  rw [recordEvent_nv]

theorem noteTx_hs (p : Port) : (noteTx p y).hs = y.hs := by
  cases p <;> rfl

theorem endTransfer_hs (result : Nat) : (endTransfer result y).hs = y.hs := by
  unfold endTransfer imageStatus sendSeq
  dsimp only
  (repeat' split) <;> simp only [noteTx_hs, setSess_hs]

theorem activatedRecord_hs (t inst version : Nat) (fell : Bool) : (activatedRecord t inst version fell y).hs = y.hs :=
  recordEvent_hs y _ _ _ _

theorem recordActivation_hs (t u version : Nat) : (recordActivation t u version y).hs = y.hs := by
  unfold recordActivation
  (repeat' split) <;> simp only [activatedRecord_hs]

theorem onImages_hs (t : Nat) (f : TypeImages → TypeImages) : (onImages t f y).hs = y.hs := by
  unfold onImages
  (repeat' split) <;> rfl

theorem settleType_hs (t : Nat) : (settleType t y).hs = y.hs := by
  unfold settleType
  (repeat' split) <;> simp only [onImages_hs]

theorem activateUnit_hs (t u : Nat) (afterBoot : Bool) (x : Perm × Sys) : (activateUnit t u afterBoot x).2.hs = x.2.hs := by
  unfold activateUnit
  dsimp only
  split
  · rfl
  · rw [settleType_hs, recordActivation_hs]
    split <;> rfl

theorem bootRom_hs {bad : List Nat} {h : Nat} {z : Sys} (hb : bootRom bad h y = some z) : z.hs = y.hs := by
  unfold bootRom at hb
  dsimp only at hb
  repeat' split at hb
  all_goals cases hb
  all_goals rfl

end

/-! ### The standby (R58, R586, R600) -/

/-- A boot ROM whose current slot starts runs an image (R590). -/
theorem bootRom_starts {bad : List Nat} {h : Nat} {y : Sys} (hstarts : slotStarts bad y h (ownOf y h).images.current = true) :
    ∃ z, bootRom bad h y = some z := by
  unfold bootRom
  dsimp only
  simp only [hstarts, if_true]
  (repeat' split) <;> exact ⟨_, rfl⟩

section
variable {bad : List Nat} {p : Perm} {y : Sys}

/-- At its second attempt a standby runs the image that it ran before (R600). -/
theorem standbyBoots_again (hfell : y.sec.resets.any (fun r => r.standby && r.second) = true)
    (hstarts : slotStarts bad y (1 - y.hs.active) (unitSlot y 1 (1 - y.hs.active)) = true) :
    standbyBoots bad (p, y) =
      some (p, onBoot (1 - y.hs.active) (fun _ => { slot := unitSlot y 1 (1 - y.hs.active), fallback := 1 }) y) := by
  unfold standbyBoots
  dsimp only
  rw [if_pos hfell, if_pos hstarts]

/-- At its first attempt a standby whose current slot starts boots, and the headstock state stands (R590). -/
theorem standbyBoots_first (hfell : y.sec.resets.any (fun r => r.standby && r.second) = false)
    (hstarts : slotStarts bad y (1 - y.hs.active) (ownOf y (1 - y.hs.active)).images.current = true) :
    ∃ x, standbyBoots bad (p, y) = some x ∧ x.2.hs = y.hs := by
  unfold standbyBoots
  dsimp only
  rw [if_neg (by rw [hfell]; exact Bool.false_ne_true)]
  generalize hw : onBoot (1 - y.hs.active) (fun _ => {})
    { y with sec := { y.sec with onPending := setDel y.sec.onPending (unitKey 1 (1 - y.hs.active)) } } = w
  have hhs : w.hs = y.hs := by rw [← hw]; rfl
  obtain ⟨z, hz⟩ := bootRom_starts (bad := bad) (h := 1 - y.hs.active) (y := w) (by rw [← hw]; exact hstarts)
  rw [hz]
  refine ⟨_, rfl, ?_⟩
  have hzs := (bootRom_hs w hz).trans hhs
  dsimp only
  split
  · rw [activateUnit_hs]; exact hzs
  · rw [settleType_hs]; exact hzs

/-- A standby that boots after PERST_N comes up (R586). -/
theorem execStandbyReady_boots {s : State} (hup : isUp s.sys = true) (hworks : s.sys.hs.activeFaulted = false)
    (hbooting : s.sys.hs.standby = .booting) : execStandbyReady bad s = onwardAll s (standbyUp (s.perm, s.sys)) := by
  unfold execStandbyReady
  refine onAll_eq ?_
  rw [hup, hworks, standbyComes, hbooting]
  rfl

/-- A standby in its reset comes up where its boot ROM starts a slot (R58, R600). -/
theorem execStandbyReady_resets {s : State} (hup : isUp s.sys = true) (hworks : s.sys.hs.activeFaulted = false)
    (hreset : s.sys.hs.standby = .reset) (hunit : ∃ r ∈ s.sys.sec.resets, r.standby = true) :
    execStandbyReady bad s = onwardAll s (match standbyBoots bad (s.perm, s.sys) with
      | some x => standbyUp x
      | none => (s.perm, s.sys)) := by
  have hcomes : s.sys.sec.resets.any (fun r => r.standby) = true := List.any_eq_true.mpr hunit
  unfold execStandbyReady
  refine onAll_eq ?_
  rw [hup, hworks, standbyComes, hreset, hcomes]
  rfl

end

/-! ### Resets of units (R600, R601) -/

section
variable {s : State} {die : Nat} {r : UnitReset}

theorem execUnitReportsReady_standby (hup : isUp s.sys = true) (hready : s.sys.hs.standby = .ready)
    (hfind : s.sys.sec.resets.find? (fun r => r.standby == true && (true || r.die == die)) = some r) :
    execUnitReportsReady true die s = onward s (finish r.cmd .ok (resetWords (dropReset r s.sys) r) (dropReset r s.sys)) := by
  refine onAll_eq (x := (s.perm, finish r.cmd .ok (resetWords (dropReset r s.sys) r) (dropReset r s.sys))) ?_
  rw [hfind]
  dsimp only
  rw [hup, hready]
  rfl

theorem execUnitReportsReady_die (hup : isUp s.sys = true)
    (hfind : s.sys.sec.resets.find? (fun r => r.standby == false && (false || r.die == die)) = some r) :
    execUnitReportsReady false die s =
      let x := if r.second then (s.perm, s.sys) else activateUnit 3 die true (activateUnit 2 die true (s.perm, s.sys))
      let y := dropReset r x.2
      let y := { y with sec := { y.sec with heldInReset := setDel y.sec.heldInReset die } }
      onwardAll s (x.1, finish r.cmd .ok (resetWords y r) y) := by
  unfold execUnitReportsReady
  refine onAll_eq ?_
  rw [hfind]
  dsimp only
  rw [hup]
  rfl

variable {standby : Bool}

/-- A unit whose time has passed for the second time fails its command (R601). -/
theorem execReadyTimeExpiry_fails (hfind : s.sys.sec.resets.find? (fun r => r.standby == standby && (standby || r.die == die)) = some r)
    (hlate : r.began + readyWithin standby ≤ s.sys.t.timeBase) (hsecond : r.second = true) :
    execReadyTimeExpiry standby die s = onward s (finish r.cmd .unitResetFailed [] (dropReset r s.sys)) := by
  unfold execReadyTimeExpiry
  refine onSys_eq ?_
  rw [hfind]
  dsimp only
  rw [if_neg (Nat.not_lt.mpr hlate), if_pos hsecond]

/-- A unit whose time has passed for the first time tries the former image (R601). -/
theorem execReadyTimeExpiry_again (hfind : s.sys.sec.resets.find? (fun r => r.standby == standby && (standby || r.die == die)) = some r)
    (hlate : r.began + readyWithin standby ≤ s.sys.t.timeBase) (hfirst : r.second = false) :
    execReadyTimeExpiry standby die s =
      let again := s.sys.sec.resets.map (fun q => if q.cmd = r.cmd then { q with second := true, began := s.sys.t.timeBase } else q)
      onward s (fallbackRecords { s.sys with sec := { s.sys.sec with resets := again } } r) := by
  unfold execReadyTimeExpiry
  refine onSys_eq ?_
  rw [hfind]
  dsimp only
  rw [if_neg (Nat.not_lt.mpr hlate), if_neg (by rw [hfirst]; exact Bool.false_ne_true)]

end

/-! ### Faults and takeovers (R51 to R54) -/

section
variable {s : State}

theorem execHsFault_declares {h : Nat} (hpower : powered s.sys = true) (hh : h < 2) (hphase : s.sys.pwr.phase ≠ .failed)
    (hworks : if h = s.sys.hs.active then s.sys.hs.silent = false ∧ s.sys.hs.activeFaulted = false else s.sys.hs.standby ≠ .absent) :
    execHsFault h s = onward s (faultHeadstock h s.sys) := by
  have hout : (if h = s.sys.hs.active then s.sys.hs.silent || s.sys.hs.activeFaulted else s.sys.hs.standby == .absent) = false := by
    split at hworks
    · next ha => rw [if_pos ha, hworks.1, hworks.2]; rfl
    · next ha => rw [if_neg ha]; exact beq_eq_false_iff_ne.mpr hworks
  unfold execHsFault
  refine onSys_eq ?_
  dsimp only
  rw [hout, hpower, decide_eq_true hh, bne_iff_ne.mpr hphase]
  rfl

/-- What the new active headstock starts from (R51, R573). -/
theorem execTakeover_takes (hpower : powered s.sys = true) (hfault : s.sys.hs.activeFaulted = true) (hready : s.sys.hs.standby = .ready) :
    let h := 1 - s.sys.hs.active
    let n := satAt (umax 8) (s.sys.hs.takeovers + 1)
    let hs := { s.sys.hs with active := h, standby := .absent, takeovers := n, takeoverEvent := true, activeFaulted := false }
    let y := onLife (fun l => { l with takeovers := inc32 l.takeovers }) (endTransfer 0x25 { partMram s.sys with hs := hs })
    execTakeover s = onward s (expireLocks (migrate (payOwed (settleDevice (loseAdvances (resendAll true (resendAll false
      (takeoverNotice (recordEvent 4 0x0002 h n y))))))))) := by
  unfold execTakeover
  refine onSys_eq ((if_pos ?_).trans ?_)
  · rw [hpower, hfault, hready]
    rfl
  · dsimp only
    rw [onLife_hs, endTransfer_hs]

end

/-- Settles O42: by the branch that each event takes. The fault of a READY standby after the active headstock's is the model's choice
(log 108); what a takeover loses and settles rests on logs 65 and 66. -/
theorem headstockEventsComplete : Obligations.HeadstockEventsComplete := by
  unfold Obligations.HeadstockEventsComplete
  refine ⟨fun s h hpower hh hphase hworks => execHsFault_declares hpower hh hphase hworks,
    fun s hpower hfault hready => execTakeover_takes hpower hfault hready, ?standby, ?reset⟩
  case standby =>
    intro s bad hup hworks
    dsimp only
    refine ⟨fun hbooting => execStandbyReady_boots hup hworks hbooting, fun hreset hunit => ?_⟩
    have hexec : exec (.standbyReady bad) s = _ := execStandbyReady_resets (bad := bad) hup hworks hreset hunit
    refine ⟨fun hfell hstarts => ?_, fun hfell hstarts => ?_, fun hnone => ?_⟩
    · rw [hexec, standbyBoots_again hfell hstarts]
      rfl
    · obtain ⟨x, hx, hhs⟩ := standbyBoots_first (p := s.perm) hfell hstarts
      refine ⟨x, hx, ?_⟩
      rw [hexec, hx, ← hhs]
      rfl
    · rw [hexec, hnone]
  case reset =>
    intro s standby die r hup hfind
    refine ⟨fun hstandby hready => ?_, fun hdie => ?_, fun hlate hsecond => execReadyTimeExpiry_fails hfind hlate hsecond,
      fun hlate hfirst => execReadyTimeExpiry_again hfind hlate hfirst⟩
    · subst hstandby
      exact execUnitReportsReady_standby hup hready hfind
    · subst hdie
      exact execUnitReportsReady_die hup hfind

end Sys2Proof.Laws
end
